-- ==== Sys2Proof/Word.lean ====
section
/-! DEFINITION. The word types of the Palrix model and nothing else. -/

namespace Sys2Proof

/-- A byte of memory, of a record or of a frame. -/
abbrev Byte := BitVec 8

/-- A 32-bit field of a record or register (00 R10). -/
abbrev Word := BitVec 32

/-- A 64-bit field of a record or register (00 R10). -/
abbrev Dword := BitVec 64

/-- A stitch: one tick of the global time-stamp counter.  The count never wraps within the life of the module
(04 R120), so it is a plain number here; registers show its low 64 bits. -/
abbrev Stitch := Nat

end Sys2Proof
end

