-- ==== Sys2Proof/Syntax.lean ====
section
/-! DEFINITION. The commands of the Palrix block: one constructor of `Instr` per row of spec/opcode_table.json, and the
operand types they carry.  Every constructor's first operand is the stitch at which the command reaches its unit (log 1). -/

namespace Sys2Proof

/-- Where a host command stands: the admin mailbox or a command ring (02 R53, R55). -/
inductive Src where
  | admin
  | ring (r : Nat)
  deriving DecidableEq, Repr

/-- What host memory answers while the Hook serves one command (log 2): the bytes at payload_addr (`none` when the read
returns an Unsupported Request or a Completer Abort, 02 R63), whether a completion write faults (02 R60), and whether the Stash cannot rebuild
data that the command reads there (12 R353). -/
structure HostIo where
  payload : Option (List Byte)
  cplFault : Bool
  stashBad : Bool := false
  deriving DecidableEq, Repr

/-- A unit that keeps a launch queue: a panel sequencer (01 R19), a cable engine (09 R262) or a seam link. -/
inductive LUnit where
  | panel (p : Nat)
  | engine (e : Nat)
  | link (k : Nat)
  deriving DecidableEq, Repr

/-- The ring registers whose write has behaviour under 02 R56. -/
inductive RingReg where
  | sqBase
  | cqBase
  | size
  | revision
  deriving DecidableEq, Repr

/-- The W1C registers that INTR_CAUSE_CLEAR writes (02 R51, R53). -/
inductive CauseReg where
  | main
  | ringCpl
  | ringAttn
  | faultSummary
  | timingSummary
  | adminStatus
  deriving DecidableEq, Repr

/-- The mask registers that INTR_MASK_WRITE writes (02 R51, R52). -/
inductive MaskReg where
  | main
  | ringCpl
  | ringAttn
  | vectorMap (c : Nat)
  | msixMask (v : Nat)
  | msixFunction
  deriving DecidableEq, Repr

/-- The four causes of a host-interface reset (02 R43). -/
inductive ResetKind where
  | flr
  | hot
  | linkDown
  | perst
  deriving DecidableEq, Repr

/-- The faults that abort a course (05 R174, 12 R342, 09 R289); the watchdog has a row of its own. -/
inductive FaultCause where
  | memory
  | arrayParity
  | feederParity
  | poisoned
  | vectorParity
  deriving DecidableEq, Repr

/-- A local verdict (03 R113). -/
inductive Verdict where
  | frog
  | skip
  | pass
  deriving DecidableEq, Repr

/-- How a training of a seam link ends (10 R291, R292): the lanes' result, and the peer when it trained. -/
inductive TrainResult where
  | failed
  | palrix (rate : Nat)
  | forerunner
  deriving DecidableEq, Repr

/-- A gauge record (04 R139). -/
structure GaugeRec where
  value : Dword
  stitch : Nat
  periodQ : Nat
  source : BitVec 16
  flags : BitVec 16
  sequence : Word
  deriving DecidableEq, Repr

/-- A link frame after RS decoding and check (10 R293). -/
structure Frame where
  frameType : Byte
  flags : Byte
  seq : BitVec 16
  ack : BitVec 16
  dest : BitVec 16
  stream : Word
  offset : Word
  payload : List Byte
  deriving DecidableEq, Repr

/-- What one member says of itself in an election or skein-formation message (10 R294, 04 R126, R129, R130): `unaligned` after its
holdover has expired (log 101). -/
structure MemberInfo where
  serial : Dword
  device : BitVec 16
  timeSource : Nat
  refValid : Bool
  standbyCount : Nat
  counter : Nat
  unaligned : Bool
  deriving DecidableEq, Repr

/-- An election or skein-formation message: flooded, identified by its source and sequence number (10 R304). -/
structure ElectionMsg where
  source : BitVec 16
  sequence : Word
  members : List MemberInfo
  announce : Option (BitVec 16)
  deriving DecidableEq, Repr

/-- One end of a cable found at skein formation (10 R300): this link and what stands at its other end. -/
structure Wire where
  fromSerial : Dword
  fromLink : Nat
  toSerial : Dword
  toLink : Nat
  deriving DecidableEq, Repr

/-- The values a member sends in the JOB_OPEN exchange (03 R87, 11 R327, 10 R302). -/
structure OpenExchange where
  member : BitVec 16
  seed : Dword
  firstStep : Dword
  memberCount : Word
  sumFormat : Nat
  usedIndices : List Nat
  agrees : Bool
  deriving DecidableEq, Repr

/-- A seam cable as its two-wire bus describes it at training: its identity, and its length in centimetres (16 R453). -/
structure Cable where
  identity : List Byte
  length : Nat
  deriving DecidableEq, Repr

/-- What cast-on finds in the hardware (14 R405): the presence pin, the input in 10 mV and how long in ns it has held the turn-on condition
(16 R442, R443), and the results of the tests and trainings that cast-on runs. -/
structure CastOnFindings where
  presence : Bool
  vin : Nat
  vinHeld : Nat
  serial : Dword
  stepping : Byte
  stashChannels : BitVec 16
  imageAOk : Bool
  imageBOk : Bool
  slotAOk : Bool
  slotBOk : Bool
  pcieSpeed : Nat
  pcieWidth : Nat
  failedStacks : List Nat
  failedRows : List (Nat × Nat)
  failedNeedles : List Nat
  failedEngines : List Nat
  failedGroups : List Nat
  links : List (Nat × TrainResult)
  cables : List (Nat × Cable)
  dieTempWest : Byte
  dieTempEast : Byte
  smbusStrap : BitVec 2
  refclk : Bool
  deriving DecidableEq, Repr

/-- How a unit is addressed by a power-state row (14 R394). -/
inductive PwTarget where
  | panel (p : Nat)
  | engine (e : Nat)
  | module
  deriving DecidableEq, Repr

/-- An SPDM request the responder knows (14 R415), or any other. -/
inductive SpdmReq where
  | getVersion
  | getCapabilities
  | negotiateAlgorithms (sig hash : Word)
  | getDigests
  | getCertificate (slot : Byte) (offset length : BitVec 16)
  | challenge (slot : Byte) (nonce : List Byte)
  | getMeasurements (index : Byte) (nonce : List Byte)
  | other (code : Byte)
  deriving DecidableEq, Repr

/-- The instructions of IEEE 1149.1 that the debug header receives (15 R435). -/
inductive JtagInstr where
  | boundaryScan (code : Word)
  | priv (code : Word)
  deriving DecidableEq, Repr

/-- A cause of the loss of input power: the input at a voltage in 10 mV, the removal of the module, an interruption, or a failure of the input
power stage itself (13 R392; 16 R442 to R444). -/
inductive PowerLoss where
  | turnOff (vin : Nat)
  | stageFailure
  | removal
  | interruption (duration : Nat)
  deriving DecidableEq, Repr

/-- How a report frame arrived: its link and its link sequence number (10 R297, 15 R428). -/
structure Arrival where
  link : Nat
  seq : BitVec 16
  deriving DecidableEq, Repr

/-- The member that made a report, and how its frame arrived. -/
structure Sender where
  via : Arrival
  member : BitVec 16
  deriving DecidableEq, Repr

/-- A report of JOB_OPEN: how its frame arrived, and the values it carries, its member among them (03 R87). -/
structure OpenReport where
  via : Arrival
  values : OpenExchange
  deriving DecidableEq, Repr

/-- A member's DEVICE completion of a marker: its stitch, and the unit that completed it (03 R106; 15 R427). -/
structure Marked where
  stitch : Nat
  unit : Nat
  deriving DecidableEq, Repr

/-- A rising edge of PPS_IN, and how long in ns REF_IN has then held within ±2 ppm (16 R449). -/
structure PpsEdge where
  stitch : Stitch
  refHeld : Nat
  deriving DecidableEq, Repr

/-- A change of the CYC_IN loop: its sense, and how long in ns the loop then stays (16 R448). -/
structure LoopEdge where
  falling : Bool
  hold : Nat
  deriving DecidableEq, Repr

/-- A link that begins training, and the cable that it then reads, where there is one (10 R291; 16 R453). -/
structure Training where
  link : Nat
  cable : Option Cable
  deriving DecidableEq, Repr

/-- How the recomputation of a swatch ended on the needle that ran it: with the correct tile, with other bytes, or with a fault of the needle
(13 R371, R372). -/
inductive Recomputed where
  | correct
  | other (bytes : List Byte)
  | faults
  deriving DecidableEq, Repr

/-- How an SPDM request reached the module: over SMBus at an address, or in a UDP datagram at a port (16 R450, R451). -/
inductive MgmtPath where
  | smbus (address : Nat)
  | udp (port : Nat)
  deriving DecidableEq, Repr

/-- What a lost time reference was (16 R449). -/
inductive RefLoss where
  | pps
  | refIn
  deriving DecidableEq, Repr

/-- The commands of the block (spec/opcode_table.json), in the table's order. -/
inductive Instr where
  | identify (t : Stitch) (src : Src) (io : HostIo)
  | setConfig (t : Stitch) (src : Src) (io : HostIo)
  | getConfigReport (t : Stitch) (src : Src) (io : HostIo)
  | setLatencyTolerance (t : Stitch) (src : Src) (io : HostIo)
  | fwBlock (t : Stitch) (src : Src) (io : HostIo)
  | fwActivate (t : Stitch) (src : Src) (io : HostIo)
  | attest (t : Stitch) (src : Src) (io : HostIo)
  | darnLoad (t : Stitch) (src : Src) (io : HostIo)
  | jobOpen (t : Stitch) (src : Src) (io : HostIo)
  | jobClose (t : Stitch) (src : Src) (io : HostIo)
  | patternLoad (t : Stitch) (src : Src) (io : HostIo)
  | tensorMap (t : Stitch) (src : Src) (io : HostIo)
  | courseSubmit (t : Stitch) (src : Src) (io : HostIo)
  | stepBegin (t : Stitch) (src : Src) (io : HostIo)
  | stepCommit (t : Stitch) (src : Src) (io : HostIo)
  | snapshotRead (t : Stitch) (src : Src) (io : HostIo)
  | bindOff (t : Stitch) (src : Src) (io : HostIo)
  | resume (t : Stitch) (src : Src) (io : HostIo)
  | structureLoad (t : Stitch) (src : Src) (io : HostIo)
  | deltaUpdate (t : Stitch) (src : Src) (io : HostIo)
  | solve (t : Stitch) (src : Src) (io : HostIo)
  | checkpoint (t : Stitch) (src : Src) (io : HostIo)
  | restore (t : Stitch) (src : Src) (io : HostIo) (imageOk : Bool)
  | traceControl (t : Stitch) (src : Src) (io : HostIo)
  | countersRead (t : Stitch) (src : Src) (io : HostIo)
  | selfTest (t : Stitch) (src : Src) (io : HostIo)
  | unknownOpcode (t : Stitch) (src : Src) (io : HostIo)
  | ringDoorbell (t : Stitch) (r : Nat) (value : Word)
  | ringCqDoorbell (t : Stitch) (r : Nat) (value : Word)
  | ringEnable (t : Stitch) (r : Nat) (intEnable : Bool)
  | ringDisable (t : Stitch) (r : Nat) (intEnable : Bool)
  | ringDrainDone (t : Stitch) (r : Nat)
  | ringConfigWrite (t : Stitch) (r : Nat) (reg : RingReg) (value : Dword)
  | ringFetch (t : Stitch) (entries : Option (List (List Byte)))
  | holdEntryAccept (t : Stitch) (r : Nat)
  | heldCourseEnqueue (t : Stitch) (u : LUnit)
  | heldCompletionWrite (t : Stitch) (r : Nat) (fault : Bool)
  | intrCauseClear (t : Stitch) (reg : CauseReg) (value : Word)
  | registerWrite (t : Stitch) (off : Nat) (wide : Bool) (value : Dword)
  | timeStitchRead (t : Stitch) (wide : Bool)
  | timeGaugeRead (t : Stitch)
  | timeMissedLaunchesRead (t : Stitch)
  | powerThrottleStitchesRead (t : Stitch)
  | timeGaugeControlWrite (t : Stitch) (value : Word)
  | timeGaugeDelayWrite (t : Stitch) (value : Word)
  | powerHostCapWrite (t : Stitch) (value : Word)
  | cntSnapshot (t : Stitch) (value : Word)
  | obsRegisterAccess (t : Stitch) (off : Nat) (write : Option Dword)
  | bar2Read (t : Stitch) (off len : Nat)
  | bar2Write (t : Stitch) (off : Nat) (data : List Byte)
  | hostInterfaceReset (t : Stitch) (kind : ResetKind)
  | hostInterfaceReady (t : Stitch)
  | pcieLinkTrain (t : Stitch) (partnerSpeed partnerWidth lanes : Nat) (eqFail : List Nat)
  | configRequestRetry (t : Stitch)
  | ptmResponseReceived (t : Stitch) (master : Dword)
  | courseLaunch (t : Stitch) (u : LUnit)
  | panelReadyReport (t : Stitch) (course : Nat) (u : LUnit)
  | batchWaitExpiry (t : Stitch) (p : Nat)
  | courseRetire (t : Stitch) (course : Nat)
  | markerComplete (t : Stitch) (job marker : Word) (panel : Option Nat)
  | markerReportReceived (t : Stitch) (sender : Sender) (job marker : Word) (mark : Marked)
  | stagingPageAvailable (t : Stitch) (job : Word)
  | courseFault (t : Stitch) (course unit : Nat) (cause : FaultCause) (addr : Nat) (row : Option Nat)
  | courseWatchdogExpiry (t : Stitch) (course unit : Nat)
  | implicitStepCommit (t : Stitch) (course : Nat)
  | swatchSelect (t : Stitch) (needle course op tile : Nat) (written : Option (List Byte))
  | swatchReplicaRun (t : Stitch) (swatch : Nat) (result : Recomputed)
  | swatchCompare (t : Stitch) (swatch : Nat)
  | swatchTiebreak (t : Stitch) (swatch : Nat) (result : Recomputed)
  | suspectClear (t : Stitch) (needle : Nat)
  | idleTestItemStart (t : Stitch) (needle : Nat)
  | testItemComplete (t : Stitch) (unit : Nat) (builtinPass : Bool)
  | selfTestTargetTaken (t : Stitch) (unit : Nat)
  | selfTestTargetReleased (t : Stitch) (unit : Nat)
  | stepDeadline (t : Stitch) (job : Word)
  | verdictReportReceived (t : Stitch) (sender : Sender) (job : Word) (step : Dword) (verdict : Verdict) (decided : Nat)
  | verdictTimeout (t : Stitch) (job : Word)
  | frogRestart (t : Stitch) (job : Word)
  | abandonDropWindowEnd (t : Stitch) (job : Word)
  | jobOpenExchangeReceived (t : Stitch) (job : Word) (report : OpenReport)
  | jobOpenAgreeTimeout (t : Stitch) (job : Word)
  | delayMeasurement (t : Stitch) (link t1 t2 t3 t4 : Nat)
  | timeMessageSend (t : Stitch)
  | timeMessageReceived (t : Stitch) (link : Nat) (counter : Nat)
  | holdoverEntry (t : Stitch)
  | masterTakeover (t : Stitch)
  | holdoverExpiry (t : Stitch)
  | electionMessageReceived (t : Stitch) (link : Nat) (msg : ElectionMsg)
  | ppsInEdge (edge : PpsEdge)
  | refLossTimeout (t : Stitch) (what : RefLoss)
  | ppsOutPulse (t : Stitch)
  | ptpMessage (t : Stitch) (masterTime : Nat)
  | cycInEdge (t : Stitch) (edge : LoopEdge)
  | quadCount (t : Stitch) (counts : Int)
  | gaugeCoastedRecord (t : Stitch)
  | gaugeRecordReceived (t : Stitch) (link : Nat) (rec : GaugeRec)
  | cycOutPulse (t : Stitch)
  | cycDetChange (t : Stitch) (connected : Bool)
  | timedWake (t : Stitch) (u : PwTarget)
  | linkTraining (t : Stitch) (training : Training)
  | linkUp (t : Stitch) (link : Nat) (result : TrainResult)
  | linkLossOfLock (t : Stitch) (link : Nat)
  | linkRetryTimer (t : Stitch) (link : Nat)
  | linkPlanRejoin (t : Stitch) (link : Nat)
  | skeinFormation (t : Stitch) (wires : List Wire) (members : List MemberInfo)
  | idleFrameReceived (t : Stitch) (link : Nat) (ack : BitVec 16)
  | ackFrameReceived (t : Stitch) (link : Nat) (acks naks : List (BitVec 16))
  | retransmitTimeout (t : Stitch) (link : Nat) (seq : BitVec 16)
  | uncorrectableFrame (t : Stitch) (link : Nat) (seq : BitVec 16)
  | delayFrameReceived (t : Stitch) (link : Nat) (t1 t2 : Nat)
  | trainingFrameReceived (t : Stitch) (link : Nat) (serial : Dword) (peerLink die generation : Nat)
  | cutFrameReceived (t : Stitch) (link : Nat) (cutStitch : Nat) (lastSeq : BitVec 16)
  | dataFrameReceived (t : Stitch) (link : Nat) (frame : Frame)
  | unscheduledFrameReceived (t : Stitch) (link : Nat) (frame : Frame)
  | unknownFrameDropped (t : Stitch) (link : Nat) (frameType : Byte)
  | slotBoundary (t : Stitch)
  | seamCourseWithdrawal (t : Stitch) (course : Nat)
  | cutStitchReached (t : Stitch)
  | cutTaken (t : Stitch)
  | cutReportReceived (t : Stitch) (sender : Sender) (cut taken : Nat)
  | bindOffReportTimeout (t : Stitch)
  | resumeStitchReached (t : Stitch)
  | engineOperationStart (t : Stitch) (engine : Nat)
  | solveFactorCutoff (t : Stitch) (op : Nat)
  | solveDeadlineReached (t : Stitch) (op : Nat)
  | solveOperationEnd (t : Stitch) (op : Nat)
  | cableEngineLost (t : Stitch) (engine : Nat)
  | patrolScrub (t : Stitch) (addr : Nat) (corrected uncorrectable : Bool)
  | rowRepair (t : Stitch) (addr : Nat) (uncorrectable : Bool)
  | pageRetirement (t : Stitch) (addr : Nat) (uncorrectable : Bool)
  | stackInterfaceRetrain (t : Stitch) (stack : Nat) (ok : Bool)
  | stackTemperatureSample (t : Stitch) (stack : Nat) (temp : Nat)
  | bar2ThermalAbort (t : Stitch) (off : Nat)
  | stashChannelChange (t : Stitch) (channel : Nat) (up : Bool)
  | retentionScrub (t : Stitch) (block : Nat)
  | wearLevelMove (t : Stitch) (fromBlock toBlock : Nat)
  | checkpointWriteDone (t : Stitch) (ok : Bool)
  | restoreDone (t : Stitch) (firstBadSection : Option Nat)
  | idleShallowEntry (t : Stitch) (u : PwTarget)
  | idleDeepEntry (t : Stitch) (u : PwTarget)
  | standbyEntry (t : Stitch)
  | hibernateEntry (t : Stitch)
  | powerStateWake (t : Stitch) (u : PwTarget)
  | hibernateExit (t : Stitch) (badChunks : List Nat)
  | powerStateExitDone (t : Stitch) (u : PwTarget)
  | powerSample (t : Stitch) (east : Bool) (draw voltage current : Nat)
  | overcurrentEvent (t : Stitch) (current : Nat)
  | dieOvertempShutdown (t : Stitch) (east : Bool) (temp : Nat)
  | powerGood (t : Stitch) (f : CastOnFindings)
  | inputPowerLoss (t : Stitch) (cause : PowerLoss)
  | overvoltageTurnOff (t : Stitch) (vin : Nat)
  | pwrCycleAssert (t : Stitch) (duration : Nat)
  | hookWatchdogExpiry (t : Stitch)
  | bridgeLaneGroupFail (t : Stitch) (group : Nat)
  | fwHandover (t : Stitch)
  | unitMicrocodeSwitch (t : Stitch) (unit : Nat)
  | fwTrialExpiry (t : Stitch)
  | debugTokenExpiry (t : Stitch)
  | spdmRequest (t : Stitch) (via : MgmtPath) (req : SpdmReq)
  | dhcpFallbackTimeout (t : Stitch)
  | uartRxCharacter (t : Stitch) (ch : Byte)
  | adminDoorbell (t : Stitch) (value : Word)
  | intrMaskWrite (t : Stitch) (reg : MaskReg) (value : Word)
  | resizableBarWrite (t : Stitch) (sizeLog2 : Nat)
  | snapshotReadDone (t : Stitch) (job commandId : Word)
  | dieThrottleTemperature (t : Stitch) (east : Bool) (temp : Nat)
  | obsSample (t : Stitch)
  | jtagInstruction (t : Stitch) (ins : JtagInstr)
  | dhcpAddress (t : Stitch) (addr : Word)
  deriving DecidableEq, Repr

end Sys2Proof
end

