-- ==== Sys2Proof/WellFormed.lean ====
section
/-! DEFINITION. Which terms of `Instr` are commands of the block: the ranges of the operands that Lean's types leave wider
than the spec does (unit numbers 00 R4, rings 02 R55, links 01 R22, stacks 01 R23). -/

namespace Sys2Proof

/-- A source names the mailbox or one of 32 rings (02 R55). -/
def Src.wf : Src → Bool
  | .admin => true
  | .ring r => decide (r < 32)

/-- A launch queue is one of 12 panels, 8 engines or 32 links (01 R14). -/
def LUnit.wf : LUnit → Bool
  | .panel p => decide (p < 12)
  | .engine e => decide (e < 8)
  | .link k => decide (k < 32)

/-- A power-state target is a panel, an engine or the module (14 R394). -/
def PwTarget.wf : PwTarget → Bool
  | .panel p => decide (p < 12)
  | .engine e => decide (e < 8)
  | .module => true

/-- A mask register exists: 67 causes and 66 vectors (02 R50). -/
def MaskReg.wf : MaskReg → Bool
  | .vectorMap c => decide (c < 67)
  | .msixMask v => decide (v < 66)
  | _ => true

/-- A frame's payload is 224 bytes (10 R293). -/
def Frame.wf (f : Frame) : Bool := decide (f.payload.length = 224)

/-- A report arrives on one of 32 links (01 R22). -/
def Arrival.wf (v : Arrival) : Bool := decide (v.link < 32)

/-- The operands of a command lie in the ranges of the spec. -/
def Instr.wf : Instr → Bool
  | .identify _ src _ | .setConfig _ src _ | .getConfigReport _ src _ | .setLatencyTolerance _ src _ | .fwBlock _ src _
  | .fwActivate _ src _ | .attest _ src _ | .darnLoad _ src _ | .jobOpen _ src _ | .jobClose _ src _ | .patternLoad _ src _
  | .tensorMap _ src _ | .courseSubmit _ src _ | .stepBegin _ src _ | .stepCommit _ src _ | .snapshotRead _ src _
  | .bindOff _ src _ | .resume _ src _ | .structureLoad _ src _ | .deltaUpdate _ src _ | .solve _ src _
  | .checkpoint _ src _ | .restore _ src _ _ | .traceControl _ src _ | .countersRead _ src _ | .selfTest _ src _
  | .unknownOpcode _ src _ => src.wf
  | .ringDoorbell _ r _ | .ringCqDoorbell _ r _ | .ringEnable _ r _ | .ringDisable _ r _ | .ringDrainDone _ r
  | .ringConfigWrite _ r _ _ | .holdEntryAccept _ r | .heldCompletionWrite _ r _ => decide (r < 32)
  | .ringFetch _ (some es) => es.all (fun e => decide (e.length = 64) || decide (e.length = 32))
  | .ringFetch _ none => true
  | .heldCourseEnqueue _ u | .courseLaunch _ u | .panelReadyReport _ _ u => u.wf
  | .batchWaitExpiry _ p => decide (p < 12)
  | .registerWrite _ off _ _ => decide (off < 0x4000000) && decide (off % 4 = 0)
  | .obsRegisterAccess _ off _ => decide (off < 0x10000)
  | .markerComplete _ _ _ (some p) => decide (p < 12)
  | .courseFault _ _ u _ _ _ | .courseWatchdogExpiry _ _ u => decide (u < 200)
  | .swatchSelect _ n _ _ _ _ | .suspectClear _ n | .idleTestItemStart _ n => decide (n < 144)
  | .testItemComplete _ u _ | .selfTestTargetTaken _ u | .selfTestTargetReleased _ u => decide (u < 152)
  | .delayMeasurement _ k _ _ _ _ | .timeMessageReceived _ k _ | .electionMessageReceived _ k _ | .gaugeRecordReceived _ k _
  | .linkTraining _ { link := k, .. } | .linkUp _ k _ | .linkLossOfLock _ k | .linkRetryTimer _ k | .linkPlanRejoin _ k
  | .idleFrameReceived _ k _ | .ackFrameReceived _ k _ _ | .retransmitTimeout _ k _ | .uncorrectableFrame _ k _
  | .delayFrameReceived _ k _ _ | .trainingFrameReceived _ k _ _ _ _ | .cutFrameReceived _ k _ _
  | .unknownFrameDropped _ k _ => decide (k < 32)
  | .dataFrameReceived _ k f | .unscheduledFrameReceived _ k f => decide (k < 32) && f.wf
  | .markerReportReceived _ { via := v, .. } _ _ _ | .verdictReportReceived _ { via := v, .. } _ _ _ _
  | .jobOpenExchangeReceived _ _ { via := v, .. } | .cutReportReceived _ { via := v, .. } _ _ => v.wf
  | .engineOperationStart _ e | .cableEngineLost _ e => decide (e < 8)
  | .patrolScrub _ a _ _ | .rowRepair _ a _ | .pageRetirement _ a _ => decide (a < 0x9000000000)
  | .stackInterfaceRetrain _ k _ | .stackTemperatureSample _ k _ => decide (k < 12)
  | .stashChannelChange _ c _ => decide (c < 16)
  | .timedWake _ u | .idleShallowEntry _ u | .idleDeepEntry _ u | .powerStateWake _ u | .powerStateExitDone _ u => u.wf
  | .bridgeLaneGroupFail _ g => decide (g < 66)
  | .unitMicrocodeSwitch _ u => decide (u < 200)
  | .intrMaskWrite _ reg _ => reg.wf
  | _ => true

end Sys2Proof
end

