-- ==== Sys2Proof/Decode.lean ====
section
/-! DEFINITION. The command that a word spells by the bits of spec/opcode_table.json.  No row of that table gives bits, so no
word spells a command; the submission entries of 02 R63 and R66, whose opcodes 02 R68 gives, are decoded in
Sys2Proof/Machine/Operands.lean from the bytes the machine holds. -/

namespace Sys2Proof

/-- No row of the opcode table gives bits: every word is refused. -/
def decodeTableWord (_nbits _w : Nat) : Option Instr := none

end Sys2Proof
end

