-- ==== Sys2Proof/Config.lean ====
section
/-! DEFINITION. What an implementation fixes and what the spec leaves open: opaque constants, so that nothing in Lean can
evaluate one or prove a value of it.  A claim that holds with them holds for every value (log 4, log 8). -/

namespace Sys2Proof.Config

/-- A fresh free value for each number drawn from `State.freeCtr` (log 4). -/
opaque freeBits : Nat → Dword

/-- The Hook's hardware random source (13 R368): the n-th draw. -/
opaque random : Nat → Nat

/-- The modulus of the Keadan production key in the boot ROM (02 R75). -/
opaque keadanModulus : List Byte

/-- The public exponent of the Keadan production key (02 R75). -/
opaque keadanExponent : List Byte

/-- Whether an RSA-4096 signature verifies over a SHA-512 digest under a key (02 R73, R75): modulus, exponent, digest,
signature. -/
opaque rsaVerifies : List Byte → List Byte → List Byte → List Byte → Bool

/-- The RSA-4096 signature of the PUF-derived key over a SHA-512 digest (14 R413, R414). -/
opaque rsaSign : List Byte → List Byte

/-- The certificate chain, DER, leaf first (14 R414). -/
opaque certChain : List Byte

/-- The SHA-512 digest of the boot ROM (14 R413 index 1). -/
opaque bootRomDigest : List Byte

/-- The SHA-512 digest of the running firmware image of a given version before its signature (14 R413 index 2). -/
opaque firmwareDigest : Word → List Byte

/-- The SHA-512 digest of the unit microcode that runs, by the running version, the version before it and the units that still run that one's
(14 R413 index 3). -/
opaque microcodeDigest : Word → Word → List Nat → List Byte

/-- The delay of the CYC_IN path of this module within its range (16 R448). -/
opaque cycInPath : Nat

/-- The formats of the destination, A, B and C of a VEC_MAP item, by its params, as places among the formats of the vector units: the item's
layout states none (13 R382; log 36). -/
opaque mapItemFormats : List Byte → Vector Nat 4

/-- How many items the built-in test set holds for a unit (13 R382: not documented). -/
opaque builtinItems : Nat

/-- The Reed-Solomon parity of a frame's first 244 bytes (10 R293; the generator is not given). -/
opaque rsParity : List Byte → List Byte

/-- What a private observation group shows at a stitch (15 R438). -/
opaque privateGroup : BitVec 12 → Nat → BitVec 16

/-- The predicted core cycles of one factorisation, by the kind of the structure, its column starts, row indices and engine mask
(09 R258, R287; the exchange term is not given). -/
opaque predictedFactor : Nat → List Nat → List Nat → BitVec 8 → Nat

/-- The predicted core cycles of one solve (09 R258, R287). -/
opaque predictedSolve : Nat → List Nat → List Nat → BitVec 8 → Nat

/-- The content of an SPDM answer beyond what 14 R415 states: request code and argument. -/
opaque spdmBody : Nat → Nat → List Byte

/-- The signature over an SPDM answer (14 R415). -/
opaque spdmSign : List Byte → List Byte

/-- The platform id of CPER headers: the UEFI layout holds it and the spec does not give it (13 R384). -/
opaque platformId : List Byte

/-- The sq_head field of an admin completion, which follows no submission ring (02 R64). -/
opaque adminSqHead : Nat

/-- The notification type of CPER headers: the UEFI layout holds it and the spec does not give it (13 R384). -/
opaque notificationType : List Byte

/-- The factory's erase count of a block of the Stash (12 R355). -/
opaque factoryErases : Nat → Nat

/-- The bank, within its stack, of the row that backs a device page: the physical page map is not given (12 R337). -/
opaque bankOf : Nat → Nat

/-- A bitwise function of an integer and of a constant that is no integer (07 R210 gives the functions of two's-complement values alone):
function code, integer, and sign, significand and exponent of the constant. -/
opaque bitwiseUnstated : Nat → Int → Bool → Nat → Int → Int

/-- Stitches of `n` running ones, from a stitch on, in which a unit waits for operands streamed from stacked memory (05 R165, 09 R288;
the rate of memory is not given): unit, stitch, n. -/
opaque memoryStall : Nat → Nat → Nat → Nat

/-- The frequency correction in parts per 10⁹ that a measured offset (1/16 stitch) asks for, before its limit: 04 R122 and R129
give the limits and not the loop. -/
opaque steering : Int → Int

/-- The code that an intermediate BS4 value takes when it is no number or rounds beyond 6 (06 R192 has no row for E2M1; 07 R221): sign,
significand and exponent; 0 and 0 for an infinity, 0 and 1 for NaN. -/
opaque bs4Beyond : Bool → Nat → Int → BitVec 4

/-- What a draw leaves in the local stores: draw, needle (or 144 plus the panel for a panel store), byte offset.  No rule says what an
operation leaves in a pocket or a panel store, or what either holds before it is first filled (01 R18, R19). -/
opaque storeByte : Nat → Nat → Nat → Byte

/-- What a draw leaves in a register of a vector unit: draw, needle, register (32 and up are the masks; 07 R207). -/
opaque vectorRegister : Nat → Nat → Nat → BitVec 2048

end Sys2Proof.Config
end

