-- ==== Sys2Proof/Machine/Bytes.lean ====
section
/-! DEFINITION. Bytes of records: little-endian fields (00 R10), CRC-32C and SHA-512. -/

namespace Sys2Proof.Machine

/-- `n` bytes of a number, least significant first (00 R10). -/
def le : Nat → Nat → List Byte
  | 0, _ => []
  | n + 1, v => BitVec.ofNat 8 v :: le n (v / 256)

/-- The number a run of bytes spells, least significant first (00 R10). -/
def leVal : List Byte → Nat
  | [] => 0
  | b :: bs => b.toNat + 256 * leVal bs

/-- `n` bytes of a record from an offset; bytes past its end read as zero. -/
def slice (bs : List Byte) (off n : Nat) : List Byte :=
  let got := (bs.drop off).take n
  got ++ List.replicate (n - got.length) 0

/-- A little-endian field of a record: its offset and its size in bytes. -/
def field (bs : List Byte) (off n : Nat) : Nat := leVal ((bs.drop off).take n)

/-- Bit `i` of a number. -/
def bitOf (v i : Nat) : Bool := v / 2 ^ i % 2 == 1

/-- Every one of `n` bytes from an offset is zero (00 R11). -/
def zeroBytes (bs : List Byte) (off n : Nat) : Bool := ((bs.drop off).take n).all (· == 0)

/-- A list of `size` zero bytes with fields written in: offset, size and value of each. -/
def record (size : Nat) (fs : List (Nat × Nat × Nat)) : List Byte :=
  fs.foldl (fun acc f => acc.take f.1 ++ le f.2.1 f.2.2 ++ acc.drop (f.1 + f.2.1)) (List.replicate size 0)

/-- A byte string written over a record from an offset. -/
def overlayBytes (acc : List Byte) (off : Nat) (bs : List Byte) : List Byte :=
  acc.take off ++ bs ++ acc.drop (off + bs.length)

/-- The two's complement value of an unsigned number of `n` bits. -/
def signed (n v : Nat) : Int := if v % 2 ^ n < 2 ^ (n - 1) then ((v % 2 ^ n : Nat) : Int) else ((v % 2 ^ n : Nat) : Int) - (2 ^ n : Nat)

/-- The unsigned number of `n` bits of a two's complement value. -/
def unsigned (n : Nat) (v : Int) : Nat := (v % (2 ^ n : Nat)).toNat

/-- One bit of CRC-32C (Castagnoli, reflected polynomial 0x82F63B78). -/
def crcBit (c : Nat) : Nat := if c % 2 = 1 then (c / 2) ^^^ 0x82F63B78 else c / 2

/-- One byte of CRC-32C. -/
def crcByte (c : Nat) (b : Byte) : Nat :=
  crcBit (crcBit (crcBit (crcBit (crcBit (crcBit (crcBit (crcBit (c ^^^ b.toNat))))))))

/-- CRC-32C over a run of bytes (03 R90, 09 R255, 14 R410). -/
def crc32c (bs : List Byte) : Nat := bs.foldl crcByte 0xFFFFFFFF ^^^ 0xFFFFFFFF

/-- CRC-32C over a record with one 4-byte field taken as zero. -/
def crc32cZeroed (bs : List Byte) (off : Nat) : Nat := crc32c (bs.take off ++ [0, 0, 0, 0] ++ bs.drop (off + 4))

/-! ### SHA-512 (02 R73; the function is FIPS 180-4's, PRESUMED: log 9) -/

/-- Words of 64 bits written one after the other in a number, the first one highest. -/
def splitWords (count n : Nat) : List (BitVec 64) := ((List.range count).map (fun i => BitVec.ofNat 64 (n / 2 ^ (64 * i)))).reverse

/-- A byte string as a number, the first byte highest. -/
def beVal (bs : List Byte) : Nat := bs.foldl (fun n b => 256 * n + b.toNat) 0

/-- A message with its end mark and its length in bits, a whole number of 128-byte blocks. -/
def digestInput (bs : List Byte) : List Byte :=
  let fill := (239 - bs.length % 128) % 128
  bs ++ 0x80 :: (List.replicate fill 0 ++ (le 16 (8 * bs.length)).reverse)

/-- The round constants, ten to a number: the first 64 bits of the fractions of the cube roots of the first eighty primes. -/
def cubeRootWords : List Nat :=
  [0x428a2f98d728ae227137449123ef65cdb5c0fbcfec4d3b2fe9b5dba58189dbbc3956c25bf348b53859f111f1b605d019923f82a4af194f9bab1c5ed5da6d8118d807aa98a303024212835b0145706fbe,
   0x243185be4ee4b28c550c7dc3d5ffb4e272be5d74f27b896f80deb1fe3b1696b19bdc06a725c71235c19bf174cf692694e49b69c19ef14ad2efbe4786384f25e30fc19dc68b8cd5b5240ca1cc77ac9c65,
   0x2de92c6f592b02754a7484aa6ea6e4835cb0a9dcbd41fbd476f988da831153b5983e5152ee66dfaba831c66d2db43210b00327c898fb213fbf597fc7beef0ee4c6e00bf33da88fc2d5a79147930aa725,
   0x06ca6351e003826f142929670a0e6e7027b70a8546d22ffc2e1b21385c26c9264d2c6dfc5ac42aed53380d139d95b3df650a73548baf63de766a0abb3c77b2a881c2c92e47edaee692722c851482353b,
   0xa2bfe8a14cf10364a81a664bbc423001c24b8b70d0f89791c76c51a30654be30d192e819d6ef5218d69906245565a910f40e35855771202a106aa07032bbd1b819a4c116b8d2d0c81e376c085141ab53,
   0x2748774cdf8eeb9934b0bcb5e19b48a8391c0cb3c5c95a634ed8aa4ae3418acb5b9cca4f7763e373682e6ff3d6b2b8a3748f82ee5defb2fc78a5636f43172f6084c87814a1f0ab728cc702081a6439ec,
   0x90befffa23631e28a4506cebde82bde9bef9a3f7b2c67915c67178f2e372532bca273eceea26619cd186b8c721c0c207eada7dd6cde0eb1ef57d4f7fee6ed17806f067aa72176fba0a637dc5a2c898a6,
   0x113f9804bef90dae1b710b35131c471b28db77f523047d8432caab7b40c724933c9ebe0a15c9bebc431d67c49c100d4c4cc5d4becb3e42b6597f299cfc657e2a5fcb6fab3ad6faec6c44198c4a475817]

/-- The initial hash value: the same of the square roots of the first eight primes. -/
def squareRootWords : Nat :=
  0x6a09e667f3bcc908bb67ae8584caa73b3c6ef372fe94f82ba54ff53a5f1d36f1510e527fade682d19b05688c2b3e6c1f1f83d9abfb41bd6b5be0cd19137e2179

/-- The exclusive OR of a word turned right by several amounts. -/
def turned (w : BitVec 64) (amounts : List Nat) : BitVec 64 := amounts.foldl (fun t r => t ^^^ w.rotateRight r) 0

/-- The schedule words that follow the last sixteen (oldest first), `n` of them. -/
def scheduleFrom : Nat → List (BitVec 64) → List (BitVec 64)
  | 0, _ => []
  | n + 1, ws =>
    let old := ws.getD 1 0
    let late := ws.getD 14 0
    let w := ws.getD 0 0 + ws.getD 9 0 + (turned old [1, 8] ^^^ old >>> 7) + (turned late [19, 61] ^^^ late >>> 6)
    w :: scheduleFrom n (ws.drop 1 ++ [w])

/-- A round takes the eight working variables and the sum of a round constant and a schedule word. -/
def digestRound (v : List (BitVec 64)) (kw : BitVec 64) : List (BitVec 64) :=
  let reg := fun i => v.getD i 0
  let choice := reg 6 ^^^ (reg 4 &&& (reg 5 ^^^ reg 6))
  let majority := (reg 0 &&& reg 1) ||| (reg 2 &&& (reg 0 ||| reg 1))
  let t := reg 7 + turned (reg 4) [14, 18, 41] + choice + kw
  (t + turned (reg 0) [28, 34, 39] + majority) :: [reg 0, reg 1, reg 2, reg 3 + t] ++ (v.drop 4).take 3

/-- The hash value after the blocks of a padded message, `n` of them. -/
def digestBlocks : Nat → List Byte → List (BitVec 64) → List (BitVec 64)
  | 0, _, v => v
  | n + 1, bs, v =>
    let ws := splitWords 16 (beVal (bs.take 128))
    let ks := cubeRootWords.flatMap (splitWords 10)
    let r := (List.zipWith (· + ·) ks (ws ++ scheduleFrom 64 ws)).foldl digestRound v
    digestBlocks n (bs.drop 128) (List.zipWith (· + ·) v r)

/-- The SHA-512 digest of a byte string. -/
def sha512 (bs : List Byte) : List Byte :=
  let m := digestInput bs
  (digestBlocks (m.length / 128) m (splitWords 8 squareRootWords)).flatMap (fun w => (le 8 w.toNat).reverse)

end Sys2Proof.Machine
end

