-- ==== Sys2Proof/Machine/State.lean ====
section
/-! DEFINITION. The state of the Palrix block as plain data: every register, queue, record, buffer and counter the spec gives
the module, grouped by the unit that holds it, and `State.reset`.  INVENTORY.md lists each field with its rule. -/

namespace Sys2Proof.Machine

/-- Why the machine stops with a fault.  A fault is SAFE: the model stops where the hardware may go on. -/
inductive Fault where
  /-- Raised by PWR_CYCLE_ASSERT: a low pulse from 10 ms up to 100 ms, whose result 16 R445 calls undefined. -/
  | pwrCycleUndefined
  deriving DecidableEq, Repr

/-- Why a command is refused.  A refusal is SAFE: nothing is claimed of a machine that stops. -/
inductive Refusal where
  /-- Raised by `exec`'s own arms only, for a command that has no meaning yet. -/
  | notModelled (mnemonic : String)
  deriving DecidableEq, Repr

/-! ### Host interface -/

/-- One MSI-X table entry (02 R50). -/
structure MsixEntry where
  addr : Dword
  data : Word
  masked : Bool
  deriving DecidableEq, Repr

/-- W1C bits, one field for each register that holds some (02 R51, R53). -/
structure Causes where
  admin : Bool := false
  ringCpl : Word := 0
  ringAttn : Word := 0
  fault : BitVec 8 := 0
  timing : BitVec 5 := 0
  overrun : Bool := false
  deriving DecidableEq, Repr

/-- The INTR block, the MSI-X table and the pending-bit array (02 R50 to R52); `fresh` holds the W1C bits the module has set in the Hook
cycle of stitch `freshAt`, against which a host clear in that cycle loses (00 R12). -/
structure Intr where
  admin : Bool
  ringCpl : Word
  ringAttn : Word
  maskMain : BitVec 3
  maskRingCpl : Word
  maskRingAttn : Word
  fault : BitVec 8
  timing : BitVec 5
  vectorMap : List (BitVec 7)
  msix : List MsixEntry
  pba : List Bool
  fnMask : Bool
  fresh : Causes
  freshAt : Nat
  deriving DecidableEq, Repr

/-- What a completion needs of its command (02 R63 to R66), whether its completion write faults (02 R60), and the number of
host-interface resets that had passed when it was taken (02 R43: a reset drops every completion not yet written). -/
structure CmdTag where
  src : Src
  rev : Nat
  opcode : Nat
  commandId : Word
  jobId : Word
  intr : Bool
  sqHead : Nat
  resultAddr : Dword
  resultLen : Nat
  cplFault : Bool
  epoch : Nat
  deriving DecidableEq, Repr

/-- A completion before it is written (02 R64): its phase bit, its stitch and its place come with the writing. -/
structure Completion where
  tag : CmdTag
  status : BitVec 16
  secondary : Word
  reportAttached : Bool
  truncated : Bool
  result : Dword
  deriving DecidableEq, Repr

/-- The admin mailbox (02 R53, R54). -/
structure Admin where
  command : List Byte
  busy : Bool
  done : Bool
  overrun : Bool
  completion : List Byte
  latched : Option (List Byte)
  phase : Bool
  deriving DecidableEq, Repr

/-- A fetched submission entry and sq_head after it was fetched (02 R61, R64). -/
structure Fetched where
  entry : List Byte
  sqHead : Nat
  deriving DecidableEq, Repr

/-- A command that waits for hold entries, with its payload (01 R19). -/
structure WaitingCmd where
  entry : List Byte
  sqHead : Nat
  payload : List Byte
  cplFault : Bool
  deriving DecidableEq, Repr

/-- One command ring (02 R55). -/
structure Ring where
  sqBase : Dword
  cqBase : Dword
  sizeLog2 : Nat
  intEnable : Bool
  enable : Bool
  revision : Nat
  enabled : Bool
  halted : Bool
  attn : Nat
  sqHead : Nat
  sqTail : Nat
  cqHead : Nat
  cqTail : Nat
  phase : Bool
  priority : Nat
  held : List Completion
  fetched : List Fetched
  waiting : Option WaitingCmd
  outstanding : Nat
  deriving DecidableEq, Repr

/-- The PCIe link (02 R40, R70). -/
structure Pcie where
  speed : Nat
  width : Nat
  exposed : Bool
  widthFault : Bool
  deriving DecidableEq, Repr

/-- The DEV block's own state and the global facts it reports (02 R46, R47). -/
structure Dev where
  serial : Dword
  stepping : Byte
  scratch : Word
  castOnPhase : Byte
  castOnComplete : Bool
  hostReady : Bool
  fwActivating : Bool
  configFactory : Bool
  castOnStitch : Nat
  bar2Base : Nat
  bar2SizeLog2 : Nat
  usablePages : Nat
  retiredPages : Nat
  issuingStopped : Bool
  failedGroups : List Nat
  rrRing : Nat
  epoch : Nat
  stackLost : Bool
  findings : Option CastOnFindings
  deriving DecidableEq, Repr

/-! ### Configuration record -/

/-- The fields of the configuration record (02 R78). -/
structure ConfigFields where
  ownerKeyDigest : List Byte
  powerLimit : Nat
  powerLimitStartup : Nat
  bar2SizeLog2 : Nat
  pcieMaxSpeed : Nat
  rev1Allowed : Nat
  timeSource : Nat
  standbyCount : Nat
  reduceSumFormat : Nat
  swatchRateLog2 : Nat
  pivotTauLog2 : Int
  refineStepsMax : Nat
  traceRingMib : Nat
  traceSpill : Nat
  scrubDays : Nat
  debugConsole : Nat
  deriving DecidableEq, Repr

/-- A record stored in one of the two slots of the Stash (02 R72). -/
structure StoredRecord where
  sequence : Nat
  bytes : List Byte
  deriving DecidableEq, Repr

/-- The configuration of the module (02 R72 to R80): `fields` are the values of the record in force, the others the
values that took effect at the last cast-on, host-interface reset or JOB_OPEN (`standbysNow`). -/
structure Cfg where
  slotA : Option StoredRecord
  slotB : Option StoredRecord
  inForceB : Bool
  sequence : Nat
  fields : ConfigFields
  castTimeSource : Nat
  castConsole : Nat
  castStartup : Nat
  standbysNow : Nat
  resetSpeed : Nat
  resetBar2 : Nat
  report : List Byte
  deriving DecidableEq, Repr

/-! ### Patterns, tensors, structures, jobs -/

/-- A loaded pattern (03 R89 to R93): its handle and its checked image. -/
structure Pattern where
  handle : Nat
  image : List Byte
  deriving DecidableEq, Repr

/-- A mapped tensor (03 R96). -/
structure Tensor where
  id : Word
  format : Nat
  rank : Nat
  kind : Nat
  stepWritten : Bool
  hostWritable : Bool
  extent : List Nat
  stride : List Nat
  base : Nat
  length : Nat
  stackMask : BitVec 12
  scaleId : Word
  deriving DecidableEq, Repr

/-- Pages that differ from the latest committed contents, and the listed bytes of those pages (03 R82, R83, R118). -/
structure Overlay where
  pages : List Nat
  cells : List Host.Cell
  deriving DecidableEq, Repr

/-- An older committed view that is still held (03 R118), as its difference from the latest; `kept` gives for each page the
number of the change that replaced it, so that views which share a page share the number; `poison` lists the granules of those pages that were
poisoned when they were replaced (12 R342). -/
structure HeldView where
  number : Nat
  ov : Overlay
  kept : List (Nat × Nat)
  poison : List Nat
  deriving DecidableEq, Repr

/-- One entry of a factor, by row and column, in binary64 (09 R265). -/
structure FEntry where
  row : Nat
  col : Nat
  value : Dword
  deriving DecidableEq, Repr

/-- A factor of a structure: its entries, the replaced pivots, the value generation it was computed from, and in fixed mode the binary points
of the forward sweep's y and of each entry (09 R260, R267, R269, R273). -/
structure Factor where
  entries : List FEntry
  perturbed : List Nat
  ofGen : Nat
  sweepPoints : List Int
  entryPoints : List Int
  deriving DecidableEq, Repr

/-- A version of a structure (09 R260). -/
structure SVersion where
  values : List Dword
  valueGen : Nat
  factor : Option Factor
  deriving DecidableEq, Repr

/-- A DELTA_UPDATE that waits for the operations accepted before it (09 R262, R263): its entries are position, whether the value is
added, and value. -/
structure DeltaWait where
  tag : CmdTag
  after : List Nat
  entries : List (Nat × Bool × Dword)
  deriving DecidableEq, Repr

/-- A resident sparse structure (09 R253 to R260). -/
structure Structure where
  handle : Nat
  kind : Nat
  stepWritten : Bool
  fixedMode : Bool
  n : Nat
  nnz : Nat
  regionBase : Nat
  regionLength : Nat
  mask : BitVec 8
  colptr : List Nat
  rowidx : List Nat
  ranges : List (Int × Int)
  tag : Dword
  committed : SVersion
  working : Option SVersion
  factorGen : Nat
  deltas : List DeltaWait
  fits : Bool
  deriving DecidableEq, Repr

/-- A member's report of its DEVICE completion of a SKEIN marker: the stitch and the unit of that completion, and the link the report came by
(03 R106; 15 R417, R427). -/
structure MarkReport where
  member : BitVec 16
  stitch : Nat
  unit : Nat
  link : Nat
  deriving DecidableEq, Repr

/-- How far a marker emission has come (03 R105 to R107). -/
inductive MarkStatus where
  | pending
  | device (stitch : Nat)
  | complete (stitch : Nat)
  | void
  deriving DecidableEq, Repr

/-- One emission of a marker identifier (03 R107), with what outlives its course: unit set, tag, step and lowest unit; `ord` rises
from emission to emission, `deviceAt` is this module's own completion of a SKEIN marker. -/
structure MarkerEm where
  ord : Nat
  marker : Word
  course : Nat
  scope : Nat
  needles : List Nat
  engines : List Nat
  links : List Nat
  patternTag : Dword
  step : Nat
  lowUnit : Nat
  status : MarkStatus
  parts : List Nat
  panels : List (Nat × Nat)
  deviceAt : Option Nat
  reports : List MarkReport
  lastUnit : Nat
  deriving DecidableEq, Repr

/-- Where an attempt of a step stands. -/
inductive StepPhase where
  | running
  | decided
  | restart (stitch : Nat)
  deriving DecidableEq, Repr

/-- A step that is open or committing (03 R111 to R116); `moved` is how far RESUMEs have moved its deadline (13 R390), `restarted` the restart
stitch of a rerun (13 R377), `answered`: its STEP_COMMIT has completed before the outcome (12 R341). -/
structure Step where
  number : Nat
  deadlineKind : Nat
  span : Nat
  deadlineRaw : Dword
  deadline : Option Nat
  moved : Nat
  attempt : Nat
  phase : StepPhase
  commit : Option CmdTag
  answered : Bool
  nonFinite : Bool
  flagged : Bool
  flaggedTiles : Nat
  cleared : List Nat
  swatchFailed : Bool
  forceFrog : Bool
  causes : BitVec 4
  pendCauses : BitVec 4
  verdict : Option (Verdict × Nat)
  reports : List (BitVec 16 × Verdict × Nat)
  restarted : Nat
  maxima : List (Word × Word)
  coded : List Word
  deriving DecidableEq, Repr

/-- A history of attempt maxima (08 R232, R234). -/
structure Hist where
  tensorId : Word
  format : Nat
  kind : Nat
  scaleCode : Nat
  newestStep : Nat
  maxima : List Word
  deriving DecidableEq, Repr

/-- The job scale state (08 R230, R232). -/
structure Scale where
  g : Int
  clean : Nat
  commits : Nat
  skips : Nat
  lastStep : Option Nat
  hists : List Hist
  deriving DecidableEq, Repr

/-- A trace ring in stacked memory; `queued` are the records whose spill write waits (15 R424, R425, R430, R431). -/
structure TraceRing where
  base : Nat
  slots : Nat
  classMask : Word
  running : Bool
  spillOn : Bool
  writeCount : Nat
  readCount : Nat
  dropped : Nat
  lost : Nat
  lostFirst : Nat
  lostLast : Nat
  lostTypes : Word
  spill : List (List Byte)
  queued : List (List Byte)
  deriving DecidableEq, Repr

/-- A job (03 R86 to R88); `verdicts` are reports for steps that this member has not yet begun (03 R114); `scaleAt` is its scale state as of the last commit or skip, which a checkpoint holds (08 R232). -/
structure Job where
  id : Word
  seed : Dword
  firstStep : Nat
  stagingBase : Nat
  stagingLength : Nat
  pool : List Nat
  memberCount : Nat
  skein : Bool
  linkIndex : Nat
  closing : Option CmdTag
  patterns : List Pattern
  nextPattern : Nat
  tensors : List Tensor
  structures : List Structure
  nextStructure : Nat
  markers : List MarkerEm
  markReports : List (Word × MarkReport)
  verdicts : List (BitVec 16 × Nat × Verdict × Nat)
  opened : Option Step
  committing : Option Step
  nextStep : Nat
  lastView : Option Nat
  lastCommitted : Option Nat
  views : List HeldView
  changes : Nat
  working : Option Overlay
  scale : Scale
  scaleAt : Scale
  ring : Option TraceRing
  reduceFormat : Nat
  tauLog2 : Int
  refineMax : Nat
  traceMib : Nat
  traceSpill : Nat
  standbys : Nat
  dropUntil : Option Nat
  beginWait : Option CmdTag
  freshFrom : Nat
  counters : List Nat
  deriving DecidableEq, Repr

/-- Another member's values of a JOB_OPEN, and the stitch at which they came (03 R87). -/
structure Answer where
  x : OpenExchange
  since : Nat
  deriving DecidableEq, Repr

/-- A JOB_OPEN whose exchange with the other members runs (03 R87). -/
structure Opening where
  job : Job
  tag : CmdTag
  accepted : Nat
  answers : List Answer
  deriving DecidableEq, Repr

/-! ### Courses -/

/-- What a queued piece of work is: a course, or a SOLVE (09 R262, R283). -/
inductive WorkKind where
  | course
  | solve
  deriving DecidableEq, Repr

/-- Where a course stands: in its queues, running, waiting for a staging page, withdrawn at a cut (13 R388), retired in a step
whose outcome is open, abandoned after its third abort (05 R177), or out of its queues until a frog's restart (03 R115). -/
inductive CourseStatus where
  | queued
  | launched
  | waitPages
  | withdrawn
  | ended
  | abandoned
  | frogged
  deriving DecidableEq, Repr

/-- A numeric flag record's content for one flagged tile (06 R204), with the logical needle of the tile. -/
structure FlagRec where
  needle : Nat
  tensor : Word
  op : Nat
  bits : BitVec 8
  operand : Nat
  row : Nat
  col : Nat
  batch : Nat
  first : Nat
  count : Nat
  coord : List Nat
  deriving DecidableEq, Repr

/-- An element of an output tile: its place 64r + c, its address in bits, its width, its bits, and for a short-format product its wide
value as an FP64 code (08 R249). -/
structure TileEl where
  pos : Nat
  addr : Nat
  width : Nat
  bits : Nat
  wide : Option Nat
  deriving DecidableEq, Repr

/-- An output tile that a swatch may compare (13 R367): its operation, its logical needle, its tensor, its first row and column and its
batch, its elements, its flag record, and whether it is eligible. -/
structure TileRec where
  op : Nat
  needle : Nat
  tensor : Word
  row : Nat
  col : Nat
  batch : Nat
  elems : List TileEl
  flag : Option FlagRec
  eligible : Bool
  deriving DecidableEq, Repr

/-- An element that a course has written: its bit address, width, tensor and format, and the FP32 magnitude of the exact value rounded into
it, none when that is not finite (03 R99, 08 R235). -/
structure WroteEl where
  addr : Nat
  width : Nat
  tensor : Word
  format : Nat
  mag : Option Nat
  deriving DecidableEq, Repr

/-- One ACCUMULATE on an element since the last marker that ordered it: the element's bit address, the needle, the scope of a later MARK
(0 none, 1 NEEDLE, 2 PANEL), the element's bits before it, and the addend by format, code and scale, with the `first` flag, whether the write is
a seed write, its salt and its random bits (08 R239 to R241). -/
structure AddEl where
  addr : Nat
  needle : Nat
  level : Nat
  old : Nat
  fmt : Nat
  code : Nat
  scale : Nat
  fresh : Bool
  seed : Bool
  salt : Nat
  rbits : Nat
  deriving DecidableEq, Repr

/-- An operation of the cable engines while it runs (09 R279 to R285): its record's index, its start, its bound deadline, a gauge point
not yet bound, whether the cut-off abandoned its factorisation, and the deadline tests that passed before the deadline came. -/
structure SolveRun where
  index : Nat
  start : Nat
  deadline : Option Nat
  gauge : Option Nat
  factorCut : Bool
  deadlineCut : Option Nat
  deriving DecidableEq, Repr

/-- The in-progress copy of a structure's version that a course builds (09 R260), the value generation it began from, and the factors it has
computed. -/
structure Progress where
  handle : Nat
  version : SVersion
  start : Nat
  made : Nat
  deriving DecidableEq, Repr

/-- The elements that a COLLECTIVE record takes, as they stood when its course launched (11 R321, R330): the record, the code that
scales them, and their bits in flat order. -/
structure SrcData where
  record : Nat
  scale : Nat
  bits : List Nat
  deriving DecidableEq, Repr

/-- A wait of a course on a unit (15 R427): its key (cause and object_kind), its first and last stitch, and how many of its stitches are booked to
the cause. -/
structure WaitSpan where
  unit : Nat
  key : Nat
  first : Nat
  last : Nat
  n : Nat
  deriving DecidableEq, Repr

/-- A course or SOLVE from its acceptance to its end (03 R100, R105, 05 R174 to R177, 11 R332, R333). -/
structure Course where
  id : Nat
  kind : WorkKind
  tag : CmdTag
  job : Word
  pattern : Nat
  patternTag : Dword
  target : Nat
  inStep : Bool
  step : Nat
  implicitStep : Bool
  launchKind : Nat
  after : List (Word × Nat)
  emit : Option (Word × Nat)
  fill : Bool
  batchWait : Nat
  launchPoint : Dword
  launchStitch : Option Nat
  viewNo : Option Nat
  needles : List Nat
  engines : List Nat
  links : List Nat
  panels : List Nat
  bindings : List (Nat × Word)
  request : List Byte
  status : CourseStatus
  stalled : List LUnit
  ready : List (LUnit × Nat)
  launchedUnits : List LUnit
  launchedAt : Option Nat
  startedAt : List (Nat × Nat)
  gatherSince : Option Nat
  since : Nat
  batchWith : List Nat
  aborts : Nat
  abortCauses : List Nat
  excluded : List Nat
  firstLaunch : Option Nat
  attempt : Nat
  staging : Overlay
  finished : Bool
  nonFinite : Bool
  flags : List FlagRec
  maxima : List (Word × Word)
  els : List WroteEl
  adds : List AddEl
  tiles : List TileRec
  counted : List (Nat × Nat)
  wrote : List (Nat × Nat × Nat)
  run : Option SolveRun
  slot0 : Option Nat
  rx : List (Word × Word × List Byte)
  sent : List (BitVec 16 × Word × Word)
  acked : List (BitVec 16 × Word × Word)
  missedSlots : Nat
  awaiting : Nat
  shadow : List (Nat × Nat × Nat)
  shadowPorts : List (Nat × Nat)
  waitAcc : List WaitSpan
  subs : List Nat
  swatchFailed : Bool
  restartAt : Option Nat
  confined : Bool
  accumOnly : Bool
  canSend : Bool
  structs : List Nat
  progress : List Progress
  places : List (Nat × Nat)
  srcs : List SrcData
  deriving DecidableEq, Repr

/-- A running SNAPSHOT_READ (03 R119). -/
structure SnapRun where
  tag : CmdTag
  view : Option Nat
  entries : List (Word × Nat × Nat × Nat)
  free : Overlay
  deriving DecidableEq, Repr

/-! ### Needles, engines, swatches, tests -/

/-- The state codes of a needle (13 R376). -/
inductive NState where
  | enabled
  | spare
  | suspect
  | retired
  | pending
  deriving DecidableEq, Repr

/-- A test item in progress on a unit: pack (0 for the built-in set), item, and whether it runs in an idle interval. -/
structure TestItem where
  pack : Word
  item : Word
  idle : Bool
  start : Nat
  deriving DecidableEq, Repr

/-- What a needle holds for itself: the draw that gives the bytes of its 2 MiB pocket (`State.pocketByte`), the 32 vector registers of
2,048 bits and the 8 mask registers of its vector unit (01 R18; 07 R207). -/
structure LocalStore where
  pocket : Nat
  vectors : List (BitVec 2048)
  masks : List (BitVec 2048)
  deriving DecidableEq, Repr

/-- One physical needle (01 R18; 05 R151, R152; 13 R368 to R376). -/
structure Needle where
  state : NState
  suspectToo : Bool
  rowsOut : List Nat
  failedRow : Option Nat
  sample : Nat
  source : Nat
  replica : Nat
  mismatches : Nat
  attributable : List Nat
  clean : Nat
  passed : Nat
  failed : Nat
  abandoned : Nat
  idleSince : Nat
  item : Option TestItem
  nextItem : Nat
  retireReason : Nat
  store : LocalStore
  swatchLeft : Nat
  deriving DecidableEq, Repr

/-- One cable engine (09 R289, 13 R381). -/
structure Engine where
  up : Bool
  item : Option TestItem
  deriving DecidableEq, Repr

/-- Where a swatch stands (13 R369 to R371). -/
inductive SwPhase where
  | chosen
  | replicated
  | tiebreak
  deriving DecidableEq, Repr

/-- A swatch (13 R367 to R372): its tile, the results compared, and whether it feeds the telemetry of 08 R249; its operation's input
tensors as base and length with the view they are read from, and the replaced pages it holds, each with the change that replaced it (R370). -/
structure Swatch where
  id : Nat
  course : Nat
  job : Word
  inStep : Bool
  view : Option Nat
  reads : List (Nat × Nat)
  held : List (Nat × Nat)
  attempt : Nat
  source : Nat
  replica : Option Nat
  op : Nat
  tile : Nat
  sourceBits : List Byte
  correct : List Byte
  replicaBits : List Byte
  phase : SwPhase
  lastTried : Option Nat
  doneAt : Nat
  compareWide : Bool
  deriving DecidableEq, Repr

/-- A loaded darning pack (13 R382). -/
structure Pack where
  id : Word
  sequence : Nat
  bytes : List Byte
  deriving DecidableEq, Repr

/-- One target of a running SELF_TEST (13 R380, R381): `failedIn` is the last repeat in which an item failed. -/
structure StTarget where
  unit : Nat
  taken : Option Nat
  released : Option Nat
  outcome : Nat
  run : Nat
  failed : Nat
  failedIn : Option Nat
  firstPack : Word
  firstItem : Word
  deriving DecidableEq, Repr

/-- A running SELF_TEST (13 R380, R381) with the packs it was accepted with; `maxMs` 0 stands for a revision-1 command's missing
limit. -/
structure SelfTestRun where
  tag : CmdTag
  accepted : Nat
  testSet : Nat
  stopFirst : Bool
  repeats : Nat
  packs : List Pack
  maxMs : Nat
  targets : List StTarget
  deriving DecidableEq, Repr

/-! ### Stacked memory and the Stash -/

/-- One memory stack (12 R341, R347, R349). -/
structure Stack where
  state : Nat
  step : Nat
  temp : Nat
  corrected : Nat
  uncorrectable : Nat
  parityRetries : Nat
  retrains : Nat
  recentRetrains : List Nat
  repairs : Nat
  spareRowsLeft : Nat
  retired : Nat
  stepEntries : Nat
  holdStitches : Nat
  deriving DecidableEq, Repr

/-- A memory event (12 R350). -/
structure MemEvent where
  stitch : Nat
  device : Nat
  hole : Nat
  job : Word
  kind : Nat
  stack : Nat
  detail : Nat
  deriving DecidableEq, Repr

/-- Pages that a retired course replaced in free tensors and the host still reads as they were (03 R109): the course, its job and
step, the units it ran on, and the bytes of those pages that it wrote itself. -/
structure Unseen where
  course : Nat
  job : Word
  inStep : Bool
  step : Nat
  needles : List Nat
  engines : List Nat
  links : List Nat
  old : Overlay
  wrote : List Host.Cell
  deriving DecidableEq, Repr

/-- Stacked memory (12 R337 to R350): the latest committed and free contents by device address, the poisoned granules,
the holes, and the repairs.  `hostOld` holds, for each retired course whose writes to free tensors the host does not see yet
(03 R109), the replaced pages as the host still reads them, oldest first; `leftOut` lists the stacks that the last cast-on
left out of every placement list (12 R341); pages from `limit` on are the holes of the last cast-on (12 R346).  `pageMap` gives the physical
page of each device page that is not its own; `repairs` and `corrected` are by physical page, `physRetired` lists the physical pages that have
retired, each with its stack, and `uncorr` those with an uncorrectable error (12 R337, R344 to R346). -/
structure Mem where
  cells : List Host.Cell
  poison : List Nat
  holes : List Nat
  repairs : List (Nat × Nat)
  corrected : List (Nat × Nat)
  bankSpares : List (Nat × Nat)
  deferred : List Nat
  events : List MemEvent
  stackTab : List Stack
  hostOld : List Unseen
  leftOut : List Nat
  limit : Nat
  pageMap : List (Nat × Nat)
  physRetired : List (Nat × Nat)
  uncorr : List Nat
  deriving DecidableEq, Repr

/-- A BAR2 access that waits for its stack, or for memory to leave self-refresh: since when, its device address and length, and what it
stores (12 R341, R348; 14 R395). -/
structure Bar2Wait where
  since : Nat
  addr : Nat
  len : Nat
  data : Option (List Byte)
  deriving DecidableEq, Repr

/-- A section of a checkpoint image (12 R360). -/
structure Section where
  kind : Nat
  id : Nat
  data : List Byte
  deriving DecidableEq, Repr

/-- A valid checkpoint slot (12 R358 to R361). -/
structure Ckpt where
  set : Nat
  slot : Nat
  latest : Bool
  job : Word
  sequence : Nat
  viewStep : Option Nat
  taken : Nat
  device : BitVec 16
  member : Bool
  memberCount : Nat
  seed : Dword
  flags : Nat
  sections : List Section
  deriving DecidableEq, Repr

/-- A CHECKPOINT or RESTORE that runs or waits its turn (12 R358): for a CHECKPOINT the content taken at acceptance and whether it
held a poisoned granule, in the held content and in the free tensors, and which granules of structure regions were poisoned then; for a RESTORE its selector and whether the header and the
directory of the image verify, and the image once it runs. -/
structure CkptRun where
  tag : CmdTag
  restore : Bool
  set : Nat
  slot : Nat
  job : Word
  started : Bool
  image : Option Ckpt
  imageOk : Bool
  poisonHeld : Bool
  poisonFree : Bool
  poisonTables : List Nat
  deriving DecidableEq, Repr

/-- The Stash (12 R351 to R363; 13 R384); `scrubbed` gives for a block the stitch at which it was last written, before 0 when that was before the
counter's release. -/
structure Stash where
  channels : BitVec 16
  bytesWritten : Nat
  sparePermille : Nat
  grownBad : Nat
  readOnly : Bool
  ckpts : List Ckpt
  ckptSeq : Nat
  runs : List CkptRun
  hibernate : Option (List Host.Cell)
  cperNext : Nat
  cper : List (List Byte)
  erases : List (Nat × Nat)
  scrubbed : List (Nat × Int)
  packs : List Pack
  deriving DecidableEq, Repr

/-! ### Time and gauge -/

/-- The TIME block and the timing port (04 R120 to R130, 16 R449); `realign`: a member told of an expired holdover in the election that
runs; `missedFresh` of the missed launches fell in the Hook cycle of stitch
`missedAt` (00 R12). -/
structure Time where
  role : Nat
  masterValid : Bool
  master : BitVec 16
  standbys : List (BitVec 16)
  offset : Int
  holdoverStart : Option Nat
  expired : Bool
  unaligned : Bool
  refValid : Bool
  lastMaster : Nat
  lastPps : Option Nat
  ppsGood : Nat
  refInLost : Option Nat
  firstLock : Bool
  stitchHi : Word
  gaugeAt : Nat
  missed : Nat
  missedFresh : Nat
  missedAt : Nat
  outputControl : BitVec 2
  ptmStitch : Nat
  ptmMaster : Dword
  joining : Bool
  electSeq : Nat
  lastPulse : Nat
  slew : Int
  tookOver : Bool
  greatest : Option Nat
  realign : Bool
  ptpLocked : Bool
  lastSent : Option Nat
  deriving DecidableEq, Repr

/-- The gauge of this module (04 R125, R136 to R141); `bounce` is the sense of the edge that ends an interval too short to count
(16 R448). -/
structure Gauge where
  control : Word
  delay : Word
  state : Nat
  lastEdge : Option Int
  intervals : List Nat
  agree : Nat
  periodQ : Nat
  cycle : Nat
  records : List GaugeRec
  readout : Nat
  quadCount : Int
  quadHigh : Int
  quadStamps : List Nat
  mismatch : Bool
  conflict : Bool
  active : Bool
  missing : Nat
  coasted : Nat
  sequence : Nat
  cycDet : Bool
  bounce : Option Bool
  lastPulse : Option Nat
  deriving DecidableEq, Repr

/-! ### Links, skein -/

/-- A frame kept for replay (10 R295), with the virtual channel and the port whose credit it holds (10 R311; channel 3 for none), and the
slot and the entry of its plan (10 R308). -/
structure Replay where
  frame : Frame
  sentAt : Nat
  tries : Nat
  course : Option Nat
  channel : Nat
  port : Nat
  slot : Nat
  entry : Nat
  deriving DecidableEq, Repr

/-- A frame of a plan entry in a link's transmit buffer (10 R307): its course, its receiver, stream and offset, and its payload. -/
structure Prefetched where
  course : Nat
  key : BitVec 16 × Word × Word
  payload : List Byte
  deriving DecidableEq, Repr

/-- A control or time frame that found no frame time: since when it waits, and the job whose report it carries (10 R297; 15 R428). -/
structure HeldFrame where
  frame : Frame
  since : Nat
  job : Option Word
  deriving DecidableEq, Repr

/-- One seam link (10 R291 to R298, R307, R310, R313).  `slotAt` is the slot whose frame times the three counts of taken ones and the list of
taken reserved ones name; `held` lists the numbers received beyond `expectSeq` (10 R295), `waiting` the control and time frames that found no
frame time; `cable` is what training read of the cable (16 R453). -/
structure Link where
  state : Nat
  rate : Nat
  attempts : Nat
  upSince : Nat
  planFrom : Nat
  port : Option Nat
  width : Nat
  direction : Byte
  peerSerial : Dword
  peerLink : Nat
  peerDie : Nat
  peerGen : Nat
  peerDevice : BitVec 16
  nextSeq : Nat
  expectSeq : Nat
  replay : List Replay
  resend : List Replay
  retrains : Nat
  uncorrectable : Nat
  uncIntervalStart : Nat
  uncInterval : Nat
  retransmitted : Nat
  displaced : Nat
  delayQ : Nat
  stamp1 : Nat
  stamp2 : Nat
  cutSent : Bool
  cutNeed : Option (BitVec 16)
  cutHeard : Nat
  cutMoved : Bool
  sentInSlot : Nat
  slotAt : Nat
  reserveInSlot : Nat
  controlInSlot : Nat
  reservedTaken : List Nat
  held : List (BitVec 16)
  ackDue : Bool
  waiting : List HeldFrame
  txbuf : List Prefetched
  triedAt : Nat
  slotSends : List Nat
  cable : Option Cable
  deriving DecidableEq, Repr

/-- The skein as this member sees it (10 R298 to R304, R313), with the elections and the gauge records it has had, by source and sequence
number. -/
structure Skein where
  topology : Nat
  dims : Nat
  extents : List Nat
  coords : List Nat
  members : Nat
  member : Bool
  device : BitVec 16
  serials : List (Dword × BitVec 16)
  parent : Option Nat
  formed : Nat
  lowest : Dword
  seen : List (BitVec 16 × Word)
  gaugeSeen : List (BitVec 16 × Word)
  infos : List MemberInfo
  reports : List (List Byte)
  deriving DecidableEq, Repr

/-- A frame that waits to be sent (10 R297, R308, R311): its direction, the link it was planned on or came by, its course, and whether
it was not prefetched in time (10 R307).  A course's own frame is filled when it is sent, unless it was `filled` from a transmit buffer; one
to be sent again carries its payload.  `crossed`: the frame has crossed the wrap of the dimension it travels (10 R311).  `since`: the stitch
from which it waits; `slot`, `entry`: its place in its plan (10 R308); `planned`: the data frame time that the plan gives it in its slot, which
has not come (10 R307). -/
structure TxFrame where
  dir : Nat
  link : Nat
  frame : Frame
  course : Option Nat
  channel : Nat
  cold : Bool
  filled : Bool
  crossed : Bool
  since : Nat
  slot : Nat
  entry : Nat
  planned : Option Nat
  deriving DecidableEq, Repr

/-! ### Power, firmware -/

/-- What a power controller sampled, and when (14 R403, R404): W, 10 mV, 10 mA. -/
structure PowerReading where
  stitch : Nat
  draw : Nat
  voltage : Nat
  current : Nat
  deriving DecidableEq, Repr

/-- Power states, limits and throttling (14 R394 to R404); `samples` are those of the last millisecond, `peaks` the 1 ms averages of the last second
that no later one exceeds; `throttleAt` is the last stitch that `throttle` counts (00 R12); `cyclesW` and `cyclesE` count the core cycles of each die since cast-on, in
thousandths (05 R174). -/
structure Pw where
  panels : List Nat
  engines : List Nat
  panelIdle : List Nat
  engineIdle : List Nat
  module : Nat
  moduleSince : Nat
  transition : Nat
  exits : List (PwTarget × Nat)
  tolerance : Nat
  allowHib : Bool
  tolWait : Option CmdTag
  histories : List (List Nat)
  hostCap : Nat
  ramp : Nat
  rampAt : Option Nat
  vin : Nat
  current : Nat
  draw : Nat
  samples : List PowerReading
  peaks : List (Nat × Nat)
  clockW : Nat
  clockE : Nat
  cyclesW : Nat
  cyclesE : Nat
  tempW : Nat
  tempE : Nat
  hotW : Bool
  hotE : Bool
  throttle : Nat
  throttleAt : Nat
  launchHold : Bool
  thermalHold : Bool
  deriving DecidableEq, Repr

/-- A firmware bank, and whether its image verified when it was last checked (14 R406, R409). -/
structure Bank where
  valid : Bool
  signed : Bool
  version : Word
  security : Nat
  image : List Byte
  deriving DecidableEq, Repr

/-- The image being staged (14 R410). -/
structure Staging where
  tag : Dword
  length : Nat
  blocks : List (Nat × List Byte)
  deriving DecidableEq, Repr

/-- Firmware and its activation (14 R406 to R412); the units in `reload` still run the microcode of the version `before` (R413), and
the completions in `late` wait for the end of a handover (R412 step 4). -/
structure Fw where
  bankA : Bank
  bankB : Bank
  activeB : Bool
  runningB : Bool
  running : Word
  runningSec : Nat
  trial : Bool
  trialSince : Nat
  floor : Nat
  staging : Option Staging
  otherOverwritten : Bool
  activation : Option (CmdTag × Nat)
  reload : List Nat
  before : Word
  late : List Completion
  deriving DecidableEq, Repr

/-- The power stage and its latch (16 R442 to R446, 13 R392). -/
structure PowerStage where
  good : Bool
  overvolt : Bool
  lost : Bool
  latch : Nat
  deriving DecidableEq, Repr

/-! ### Counters, trace, observation, cut, management -/

/-- The COUNTERS window (15 R419 to R423); `carry` is the part of a stitch, in 1/1300, that each unit has yet to book to THROTTLE (R416). -/
structure Cnt where
  units : List (List Nat)
  carry : List Nat
  events : List Nat
  ports : List Nat
  snapUnits : List (List Nat)
  snapEvents : List Nat
  snapPorts : List Nat
  snapJob : List Nat
  snapStitch : Nat
  jobSelect : Word
  jobStatus : Bool
  deriving DecidableEq, Repr

/-- The token in force (15 R435, R436). -/
structure Token where
  permissions : BitVec 4
  sequence : Nat
  notAfter : Nat
  digest : List Byte
  deriving DecidableEq, Repr

/-- Debug and observation (15 R435 to R439, 16 R454). -/
structure Dbg where
  token : Option Token
  lastSeq : Nat
  obsControl : BitVec 4
  obsSelect : BitVec 12
  samples : Nat
  lastSync : Nat
  jtag : Option JtagInstr
  console : List Byte
  deriving DecidableEq, Repr

/-- Where a bind-off cut stands (13 R387 to R390); after its RESUME it still waits for cut reports when BIND_OFF has not completed. -/
inductive CutPhase where
  | pending
  | stopping
  | held
  | released
  deriving DecidableEq, Repr

/-- A bind-off cut (13 R387, R388). -/
structure Cut where
  phase : CutPhase
  tag : Option CmdTag
  job : Word
  skein : Bool
  stitch : Nat
  taken : Nat
  drained : Nat
  withdrawn : List Nat
  aborted : List Nat
  discarded : Nat
  reports : List (BitVec 16 × Nat × Nat)
  resume : Option (CmdTag × Nat)
  deriving DecidableEq, Repr

/-- What the pins said at power-good (the strap of the management connector, and whether REFCLK is present, so that the host link runs in
common-clock mode), and the management connector (16 R450 to R452; 14 R415). -/
structure Mgmt where
  strap : BitVec 2
  commonClock : Bool
  ipv4 : Option Word
  linkLocal : Bool
  dhcpSince : Nat
  spdmVersion : Nat
  spdmNegotiated : Bool
  deriving DecidableEq, Repr

/-- What the module drives outward (log 3). -/
inductive Emission where
  | hostWrite (addr : Nat) (data : List Byte)
  | msix (vector : Nat) (addr : Dword) (data : Word)
  | reply (data : List Byte)
  | poisonedReply (data : List Byte)
  | abortReply
  | retryStatus
  | frame (link leaves : Nat) (f : Frame) (even odd : List Byte)
  | ppsOut (stitch : Nat)
  | cycOut (stitch : Nat)
  | obs (data : BitVec 16) (sync : Bool)
  | spdm (data : List Byte)
  deriving DecidableEq, Repr

/-- A trace record stamped during a firmware handover, to be written after it (15 R440). -/
structure HeldRecord where
  job : Option Word
  type : Nat
  unit : Nat
  stitch : Nat
  core : Bool
  payload : List Byte
  deriving DecidableEq, Repr

/-- Trace bookkeeping that belongs to no ring (15 R424, R426, R440). -/
structure TraceSt where
  moduleRing : Option TraceRing
  hostAcc : List (Nat × Word × Nat)
  issue : List (Nat × Nat)
  held : List HeldRecord
  deriving DecidableEq, Repr

/-- The whole block.  `headAt` gives for each panel since when its launch queue has its present head (03 R101), `bar2Wait` the BAR2 accesses
that wait for a stack or for the wake (12 R341, R348; 14 R395). -/
structure State where
  pending : List Instr
  out : List Emission
  freeCtr : Nat
  stitch : Nat
  counting : Bool
  stage : PowerStage
  dev : Dev
  pcie : Pcie
  intr : Intr
  admin : Admin
  rings : List Ring
  cfg : Cfg
  jobs : List Job
  openings : List Opening
  early : List (Word × Answer)
  courses : List Course
  panelQ : List (List Nat)
  headAt : List Nat
  engineQ : List (List Nat)
  linkQ : List (List Nat)
  hold : List (LUnit × Nat)
  nextId : Nat
  snaps : List SnapRun
  mem : Mem
  bar2Wait : List Bar2Wait
  stash : Stash
  needles : List Needle
  panelStores : List Nat
  spareMap : List (Option Nat)
  engines : List Engine
  swatches : List Swatch
  nextSwatch : Nat
  shortSwatches : Nat
  selfTests : List SelfTestRun
  time : Time
  gauge : Gauge
  links : List Link
  skein : Skein
  txq : List TxFrame
  credits : List (List Nat)
  pw : Pw
  fw : Fw
  cnt : Cnt
  trace : TraceSt
  dbg : Dbg
  cut : Option Cut
  mgmt : Mgmt
  deriving DecidableEq, Repr

/-! ### Reset values -/

/-- The defaults of the configuration fields (02 R78); no owner key is installed. -/
def ConfigFields.default : ConfigFields :=
  { ownerKeyDigest := List.replicate 64 0, powerLimit := 1650, powerLimitStartup := 1200, bar2SizeLog2 := 36,
    pcieMaxSpeed := 6, rev1Allowed := 1, timeSource := 2, standbyCount := 2, reduceSumFormat := 0, swatchRateLog2 := 12,
    pivotTauLog2 := -40, refineStepsMax := 3, traceRingMib := 256, traceSpill := 0, scrubDays := 30, debugConsole := 0 }

/-- The default cause-to-vector map (02 R50). -/
def defaultVectorMap : List (BitVec 7) :=
  [0, 33, 34] ++ (List.range 32).map (fun r => BitVec.ofNat 7 (1 + r)) ++ (List.range 32).map (fun r => BitVec.ofNat 7 (1 + r))

/-- INTR registers, MSI-X table and pending bits at reset (02 R43, R51). -/
def Intr.reset : Intr :=
  { admin := false, ringCpl := 0, ringAttn := 0, maskMain := 0, maskRingCpl := 0, maskRingAttn := 0, fault := 0, timing := 0,
    vectorMap := defaultVectorMap, msix := List.replicate 66 { addr := 0, data := 0, masked := true },
    pba := List.replicate 66 false, fnMask := false, fresh := {}, freshAt := 0 }

/-- The admin mailbox at reset (02 R43, R53): not busy, not done, the next completion of phase 1. -/
def Admin.reset : Admin :=
  { command := List.replicate 64 0, busy := false, done := false, overrun := false, completion := List.replicate 32 0,
    latched := none, phase := true }

/-- A ring block at reset (02 R55). -/
def Ring.reset : Ring :=
  { sqBase := 0, cqBase := 0, sizeLog2 := 4, intEnable := false, enable := false, revision := 2, enabled := false,
    halted := false, attn := 0, sqHead := 0, sqTail := 0, cqHead := 0, cqTail := 0, phase := true, priority := 0, held := [],
    fetched := [], waiting := none, outstanding := 0 }

/-- The spare needles before the first cast-on (log 6): the last needle of panels 0 to 3 and 6 to 9. -/
def defaultSpares : List Nat := [11, 23, 35, 47, 83, 95, 107, 119]

/-- A needle at reset; its counters start empty (log 6). -/
def Needle.reset (n : Nat) : Needle :=
  { state := if defaultSpares.contains n then .spare else .enabled, suspectToo := false, rowsOut := [], failedRow := none,
    sample := 1, source := 0, replica := 0, mismatches := 0, attributable := [], clean := 0, passed := 0, failed := 0,
    abandoned := 0, idleSince := 0, item := none, nextItem := 0, retireReason := 0,
    store := { pocket := 0, vectors := List.replicate 32 0, masks := List.replicate 8 0 }, swatchLeft := 0 }

/-- The spare map before the first cast-on: logical needles in ascending physical order, spares left out (01 R27). -/
def defaultSpareMap : List (Option Nat) :=
  ((List.range 144).filter (fun n => !defaultSpares.contains n)).map some

/-- A stack at reset; counts start at 0 and all spare rows are unused: 16 × 2 × 64 banks of 4 (12 R337, log 6). -/
def Stack.reset : Stack :=
  { state := 0, step := 0, temp := 0, corrected := 0, uncorrectable := 0, parityRetries := 0, retrains := 0,
    recentRetrains := [], repairs := 0, spareRowsLeft := 8192, retired := 0, stepEntries := 0, holdStitches := 0 }

/-- A link at reset: down (10 R292). -/
def Link.reset : Link :=
  { state := 0, rate := 0, attempts := 0, upSince := 0, planFrom := 0, port := none, width := 0, direction := 0,
    peerSerial := 0, peerLink := 0, peerDie := 0, peerGen := 0, peerDevice := 0xFFFF, nextSeq := 0, expectSeq := 0,
    replay := [], resend := [], retrains := 0, uncorrectable := 0, uncIntervalStart := 0, uncInterval := 0, retransmitted := 0,
    displaced := 0, delayQ := 0, stamp1 := 0, stamp2 := 0, cutSent := false, cutNeed := none, cutHeard := 0, cutMoved := false, sentInSlot := 0,
    slotAt := 0, reserveInSlot := 0, controlInSlot := 0, reservedTaken := [], held := [], ackDue := false, waiting := [], txbuf := [], triedAt := 0,
    slotSends := [], cable := none }

/-- The gauge at reset: off, nothing measured (04 R124). -/
def Gauge.reset : Gauge :=
  { control := 0, delay := 0, state := 0, lastEdge := none, intervals := [], agree := 0, periodQ := 0, cycle := 0,
    records := [], readout := 0, quadCount := 0, quadHigh := 0, quadStamps := [], mismatch := false, conflict := false,
    active := false, missing := 0, coasted := 0, sequence := 0, cycDet := false, bounce := none, lastPulse := none }

/-- The TIME block at reset (04 R124): not in a skein, no standbys. -/
def Time.reset : Time :=
  { role := 3, masterValid := false, master := 0, standbys := List.replicate 4 0xFFFF, offset := 0, holdoverStart := none,
    expired := false, unaligned := false, refValid := false, lastMaster := 0, lastPps := none, ppsGood := 0, refInLost := none,
    firstLock := false, stitchHi := 0, gaugeAt := 0, missed := 0, missedFresh := 0, missedAt := 0, outputControl := 0, ptmStitch := 0, ptmMaster := 0,
    joining := false, electSeq := 0, lastPulse := 0, slew := 0, tookOver := false, greatest := Option.none, realign := false,
    ptpLocked := false, lastSent := Option.none }

/-- The power block at reset (14 R396, R404). -/
def Pw.reset : Pw :=
  { panels := List.replicate 12 0, engines := List.replicate 8 0, panelIdle := List.replicate 12 0,
    engineIdle := List.replicate 8 0, module := 0, moduleSince := 0, transition := 0, exits := [], tolerance := 150,
    allowHib := false, tolWait := none, histories := List.replicate 4 [], hostCap := 1650, ramp := 600, rampAt := none, vin := 0,
    current := 0, draw := 0, samples := [], peaks := [], clockW := 1300, clockE := 1300, cyclesW := 0, cyclesE := 0, tempW := 0, tempE := 0,
    hotW := false, hotE := false, throttle := 0, throttleAt := 0, launchHold := false, thermalHold := false }

/-- A skein not formed (02 R46, 10 R313). -/
def Skein.none : Skein :=
  { topology := 0, dims := 0, extents := [1, 1, 1, 1], coords := [0, 0, 0, 0], members := 1, member := false, device := 0,
    serials := [], parent := Option.none, formed := 0, lowest := 0, seen := [], gaugeSeen := [], infos := [], reports := [] }

/-- The Stash of a new module (log 6): sixteen channels, nothing written. -/
def Stash.reset : Stash :=
  { channels := 0xFFFF, bytesWritten := 0, sparePermille := 1000, grownBad := 0, readOnly := false,
    ckpts := [], ckptSeq := 0, runs := [], hibernate := Option.none, cperNext := 1, cper := [], erases := [], scrubbed := [],
    packs := [] }

/-- The firmware of a new module (log 6): bank A holds version 1.0.0 and is active. -/
def Fw.reset : Fw :=
  { bankA := { valid := true, signed := true, version := 0x01000000, security := 0, image := [] },
    bankB := { valid := false, signed := false, version := 0, security := 0, image := [] }, activeB := false, runningB := false, running := 0x01000000,
    runningSec := 0, trial := false, trialSince := 0, floor := 0, staging := Option.none, otherOverwritten := false,
    activation := Option.none, reload := [], before := 0x01000000, late := [] }

/-- The counters after power-on (15 R419). -/
def Cnt.reset : Cnt :=
  { units := List.replicate 200 (List.replicate 16 0), carry := List.replicate 200 0, events := List.replicate 64 0, ports := List.replicate 32 0,
    snapUnits := List.replicate 200 (List.replicate 16 0), snapEvents := List.replicate 64 0,
    snapPorts := List.replicate 32 0, snapJob := List.replicate 32 0, snapStitch := 0, jobSelect := 0, jobStatus := false }

/-- Device memory with nothing listed, no poison and no hole; every stack as new. -/
def Mem.reset : Mem :=
  { cells := [], poison := [], holes := [], repairs := [], corrected := [], bankSpares := [], deferred := [], events := [],
    stackTab := List.replicate 12 Stack.reset, hostOld := [], leftOut := [], limit := 301989888,
    pageMap := [], physRetired := [], uncorr := [] }

/-- The machine right after power-on reset, before power-good has begun cast-on (14 R405 phase 0x00): every register at the
reset value its table states, the rest at the values log 6 names. -/
def State.reset : State :=
  { pending := [], out := [], freeCtr := 0, stitch := 0, counting := false,
    stage := { good := false, overvolt := false, lost := false, latch := 0 },
    dev := { serial := 0, stepping := 0, scratch := 0, castOnPhase := 0, castOnComplete := false, hostReady := false,
             fwActivating := false, configFactory := false, castOnStitch := 0, bar2Base := 0, bar2SizeLog2 := 36,
             usablePages := 301989888, retiredPages := 0, issuingStopped := false, failedGroups := [], rrRing := 0, epoch := 0, stackLost := false, findings := Option.none },
    pcie := { speed := 0, width := 0, exposed := false, widthFault := false },
    intr := Intr.reset, admin := Admin.reset, rings := List.replicate 32 Ring.reset,
    cfg := { slotA := Option.none, slotB := Option.none, inForceB := false, sequence := 0, fields := ConfigFields.default,
             castTimeSource := 2, castConsole := 0, castStartup := 1200, standbysNow := 2, resetSpeed := 6, resetBar2 := 36, report := [] },
    jobs := [], openings := [], early := [], courses := [], panelQ := List.replicate 12 [], headAt := List.replicate 12 0, engineQ := List.replicate 8 [],
    linkQ := List.replicate 32 [], hold := [], nextId := 1, snaps := [], mem := Mem.reset, bar2Wait := [], stash := Stash.reset,
    needles := (List.range 144).map Needle.reset, panelStores := List.replicate 12 0, spareMap := defaultSpareMap,
    engines := List.replicate 8 { up := true, item := Option.none }, swatches := [], nextSwatch := 1, shortSwatches := 0,
    selfTests := [], time := Time.reset, gauge := Gauge.reset, links := List.replicate 32 Link.reset, skein := Skein.none,
    txq := [], credits := List.replicate 32 [128, 128, 128], pw := Pw.reset, fw := Fw.reset, cnt := Cnt.reset,
    trace := { moduleRing := Option.none, hostAcc := [], issue := [], held := [] },
    dbg := { token := Option.none, lastSeq := 0, obsControl := 0, obsSelect := 0, samples := 0, lastSync := 0,
             jtag := Option.none, console := [] },
    cut := Option.none,
    mgmt := { strap := 0, commonClock := false, ipv4 := Option.none, linkLocal := false, dhcpSince := 0, spdmVersion := 0, spdmNegotiated := false } }

end Sys2Proof.Machine
end

