-- ==== Sys2Proof/Machine/Flags.lean ====
section
/-! DEFINITION. Status codes, their precedence and the secondary-condition mask (00 R8, R9; 02 R65), and the numeric flag bits
(06 R203). -/

namespace Sys2Proof.Machine

/-! ### Status codes (00 R8) -/

abbrev stDone : Nat := 0x0000
abbrev stClamped : Nat := 0x0001
abbrev stFlagged : Nat := 0x0002
abbrev stBadOpcode : Nat := 0x0100
abbrev stBadField : Nat := 0x0101
abbrev stNoResource : Nat := 0x0102
abbrev stWrongRevision : Nat := 0x0103
abbrev stStepSkipped : Nat := 0x0200
abbrev stStepRepeated : Nat := 0x0201
abbrev stStepAbandoned : Nat := 0x0202
abbrev stSolveDeadline : Nat := 0x0300
abbrev stPivotPerturbed : Nat := 0x0301
abbrev stRangeSaturated : Nat := 0x0302
abbrev stFactorFailed : Nat := 0x0303
abbrev stCutTaken : Nat := 0x0400
abbrev stSignatureFail : Nat := 0x0500
abbrev stBlockCheckFail : Nat := 0x0501
abbrev stDeviceFault : Nat := 0x0600

/-- The codes from the highest precedence to the lowest (00 R9). -/
def precedence : List Nat :=
  [stDeviceFault, stSignatureFail, stBlockCheckFail, stCutTaken, stSolveDeadline, stFactorFailed, stRangeSaturated,
   stPivotPerturbed, stStepAbandoned, stStepRepeated, stStepSkipped, stBadOpcode, stWrongRevision, stBadField, stNoResource,
   stFlagged, stClamped, stDone]

/-- The primary status among the codes of the conditions that apply (00 R9); DONE when none does. -/
def primaryStatus (codes : List Nat) : Nat := (precedence.find? codes.contains).getD stDone

/-- A code of the Rejected class (00 R8). -/
def isRejected (code : Nat) : Bool := code / 256 == 1

/-- The bit of a code in the secondary-condition mask (02 R65). -/
def secondaryBit (code : Nat) : Option Nat :=
  [(stClamped, 0), (stFlagged, 1), (stStepSkipped, 4), (stStepRepeated, 5), (stStepAbandoned, 6), (stSolveDeadline, 8),
   (stPivotPerturbed, 9), (stRangeSaturated, 10), (stFactorFailed, 11), (stCutTaken, 12), (stSignatureFail, 16),
   (stBlockCheckFail, 17), (stDeviceFault, 20)].lookup code

/-- The secondary-condition mask beside a primary status: a bit for every other condition that has one, nothing beside a
Rejected status (02 R65). -/
def secondaryMask (codes : List Nat) : Nat :=
  let p := primaryStatus codes
  if isRejected p then 0
  else ((precedence.filter (fun c => codes.contains c && c != p)).filterMap secondaryBit).foldl (fun m b => m + 2 ^ b) 0

/-- A command that lists its checks without order ends with the condition of highest precedence, if one holds (00 R459). -/
def firstFailure (checks : List (Bool × Nat)) : Option Nat :=
  let codes := (checks.filter (·.1)).map (·.2)
  if codes.isEmpty then none else some (primaryStatus codes)

/-- A command that lists its checks in order ends at the first that fails (00 R459). -/
def inOrder (checks : List (Bool × Nat)) : Option Nat := (checks.find? (·.1)).map (·.2)

end Sys2Proof.Machine
end

