-- ==== Sys2Proof/Machine/Memory.lean ====
section
/-! DEFINITION. Device memory (01 R23, 03 R81 to R85): a canonical list of bytes in which an unlisted address reads as zero,
which is what cast-on leaves (14 R405 phase 0x04), and views of it by pages of 2 KiB. -/

namespace Sys2Proof.Machine

/-- What an address that no entry lists reads as (14 R405 phase 0x04). -/
def unlisted : Byte := 0

/-- Bytes of a page (03 R81). -/
def pageBytes : Nat := 2048

/-- Bytes of the device address space: 576 GiB (01 R23). -/
def deviceBytes : Nat := 0x9000000000

/-- Device page number of an address (03 R81). -/
def pageOf (a : Nat) : Nat := a / pageBytes

/-- Read one byte. -/
def Memory.read : List Host.Cell → Nat → Byte
  | [], _ => unlisted
  | c :: m, a => if c.1 = a then c.2 else if a < c.1 then unlisted else Memory.read m a

/-- Write one byte, keeping the canonical form: the byte an unlisted address reads as removes the entry. -/
def Memory.write : List Host.Cell → Nat → Byte → List Host.Cell
  | [], a, b => if b = unlisted then [] else [(a, b)]
  | c :: m, a, b =>
    if c.1 = a then (if b = unlisted then m else (a, b) :: m)
    else if a < c.1 then (if b = unlisted then c :: m else (a, b) :: c :: m)
    else c :: Memory.write m a b

/-- The canonical form: addresses strictly rise and no entry holds the unlisted byte. -/
def Memory.wf : List Host.Cell → Bool
  | [] => true
  | [c] => c.2 != unlisted
  | c :: d :: m => c.2 != unlisted && decide (c.1 < d.1) && Memory.wf (d :: m)

/-- Write a run of bytes from an address. -/
def Memory.writeBytes (m : List Host.Cell) (a : Nat) : List Byte → List Host.Cell
  | [] => m
  | b :: bs => Memory.writeBytes (Memory.write m a b) (a + 1) bs

/-- Read a run of bytes from an address. -/
def Memory.readBytes (m : List Host.Cell) (a n : Nat) : List Byte := (List.range n).map (fun i => Memory.read m (a + i))

/-- Merge the entries of one list into another, one write at a time. -/
def Memory.put (m : List Host.Cell) (cs : List Host.Cell) : List Host.Cell := cs.foldl (fun acc c => Memory.write acc c.1 c.2) m

/-- The entries outside the pages of a predicate. -/
def Memory.outside (m : List Host.Cell) (p : Nat → Bool) : List Host.Cell := m.filter (fun c => !p (pageOf c.1))

/-- The entries inside the pages of a predicate. -/
def Memory.inside (m : List Host.Cell) (p : Nat → Bool) : List Host.Cell := m.filter (fun c => p (pageOf c.1))

/-- No page replaced. -/
def Overlay.empty : Overlay := { pages := [], cells := [] }

/-- A view: overlays, the outermost first, over the latest committed and free contents. -/
structure View where
  ovs : List Overlay
  base : List Host.Cell
  deriving DecidableEq, Repr

/-- Read one byte of a view: from the first overlay that holds its page, else from the base (03 R82 to R84). -/
def View.readIn : List Overlay → List Host.Cell → Nat → Byte
  | [], base, a => Memory.read base a
  | o :: os, base, a => if o.pages.contains (pageOf a) then Memory.read o.cells a else View.readIn os base a

def View.read (v : View) (a : Nat) : Byte := View.readIn v.ovs v.base a

/-- Read a run of bytes of a view. -/
def View.readBytes (v : View) (a n : Nat) : List Byte := (List.range n).map (fun i => v.read (a + i))

/-- The entries of one page of a view. -/
def View.pageCells : List Overlay → List Host.Cell → Nat → List Host.Cell
  | [], base, p => Memory.inside base (· == p)
  | o :: os, base, p => if o.pages.contains p then Memory.inside o.cells (· == p) else View.pageCells os base p

/-- Write one byte into the outermost overlay; the first write to a page copies the page as the view reads it
(03 R82). -/
def View.write (v : View) (a : Nat) (b : Byte) : View :=
  match v.ovs with
  | [] => { v with base := Memory.write v.base a b }
  | o :: os =>
    let p := pageOf a
    let o' := if o.pages.contains p then o
              else { pages := p :: o.pages, cells := Memory.put o.cells (View.pageCells os v.base p) }
    { v with ovs := { o' with cells := Memory.write o'.cells a b } :: os }

/-- Write a run of bytes into the outermost overlay. -/
def View.writeBytes (v : View) (a : Nat) : List Byte → View
  | [] => v
  | b :: bs => View.writeBytes (v.write a b) (a + 1) bs

/-- The pages of an overlay replace those of the base (03 R82). -/
def Memory.publish (base : List Host.Cell) (o : Overlay) : List Host.Cell :=
  Memory.put (Memory.outside base o.pages.contains) o.cells

/-- The pages of one overlay replace those of another (03 R83). -/
def Overlay.publish (under o : Overlay) : Overlay :=
  { pages := under.pages.filter (fun p => !o.pages.contains p) ++ o.pages,
    cells := Memory.put (Memory.outside under.cells o.pages.contains) o.cells }

/-- The part of an overlay whose pages meet a predicate. -/
def Overlay.part (o : Overlay) (p : Nat → Bool) : Overlay :=
  { pages := o.pages.filter p, cells := Memory.inside o.cells p }

/-- Keep in an older view the pages that a commit is about to replace (03 R118). -/
def Overlay.keep (older : Overlay) (base : List Host.Cell) (pages : List Nat) : Overlay :=
  let add := pages.filter (fun p => !older.pages.contains p)
  { pages := older.pages ++ add, cells := Memory.put older.cells (Memory.inside base add.contains) }

/-- The stacks a page may lie on: those of the mask in service, all twelve where none is named (03 R81, 12 R341). -/
def stackList (mask : BitVec 12) (out : List Nat) : List Nat :=
  let named := (List.range 12).filter (fun s => (mask.getLsbD s || mask == 0) && !out.contains s)
  named

/-- The stack of a device page among the allowed ones (03 R81). -/
def stackOfPage (allowed : List Nat) (page : Nat) : Nat := allowed.getD (page % (max allowed.length 1)) 0

end Sys2Proof.Machine
end

