-- ==== Sys2Proof/Machine/Ops.lean ====
section
/-! DEFINITION. The operations every family shares: what the module drives outward, lookups and updates by identity, event
counters, interrupts (02 R50 to R52), error records (13 R384 to R386), trace records (15 R424 to R431) and completions
(02 R59, R60, R64). -/

namespace Sys2Proof.Machine

/-! ### Lookups and updates -/

/-- The module has power and is not lost (13 R392, 16 R443). -/
def State.up (s : State) : Bool := s.stage.good && !s.stage.lost

/-- Cast-on runs: power is good, and neither the last phase nor recovery has been reached (14 R405, R407). -/
def State.castingOn (s : State) : Bool := s.up && s.dev.findings.isSome && decide (s.dev.castOnPhase.toNat < 7)

/-- Drive something outward (log 3). -/
def State.emit (s : State) (e : Emission) : State := { s with out := s.out ++ [e] }

/-- The open job of an identifier. -/
def State.job? (s : State) (id : Word) : Option Job := s.jobs.find? (·.id == id)

/-- The open job of an identifier that takes commands: an accepted JOB_CLOSE ends that (03 R88). -/
def State.openJob? (s : State) (id : Word) : Option Job := (s.job? id).filter (·.closing.isNone)

/-- Change the open job of an identifier. -/
def State.updJob (s : State) (id : Word) (f : Job → Job) : State :=
  { s with jobs := s.jobs.map (fun j => if j.id == id then f j else j) }

/-- The course of a number. -/
def State.course? (s : State) (id : Nat) : Option Course := s.courses.find? (·.id == id)

/-- Change the course of a number. -/
def State.updCourse (s : State) (id : Nat) (f : Course → Course) : State :=
  { s with courses := s.courses.map (fun c => if c.id == id then f c else c) }

/-- Change a ring. -/
def State.updRing (s : State) (r : Nat) (f : Ring → Ring) : State := { s with rings := s.rings.modify r f }

/-- A ring. -/
def State.ring (s : State) (r : Nat) : Ring := s.rings.getD r Ring.reset

/-- Change a link. -/
def State.updLink (s : State) (k : Nat) (f : Link → Link) : State := { s with links := s.links.modify k f }

/-- A link is up: to a Palrix or to a forerunner (10 R292). -/
def Link.up (l : Link) : Bool := l.state == 2 || l.state == 3

/-- A link. -/
def State.link (s : State) (k : Nat) : Link := s.links.getD k Link.reset

/-- Change a needle. -/
def State.updNeedle (s : State) (n : Nat) (f : Needle → Needle) : State := { s with needles := s.needles.modify n f }

/-- A needle. -/
def State.needle (s : State) (n : Nat) : Needle := s.needles.getD n (Needle.reset n)

/-- Draw a free value (log 4). -/
def State.free (s : State) : Dword × State := (Config.freeBits s.freeCtr, { s with freeCtr := s.freeCtr + 1 })

/-! ### Power measurements (14 R404) -/

/-- A measured value averaged over the samples of the last 1 ms; the last sample where there is none. -/
def Pw.average (p : Pw) (now : Nat) (f : PowerReading → Nat) (last : Nat) : Nat :=
  let rs := p.samples.filter (fun r => decide (now < r.stitch + 1000000))
  if rs.isEmpty then last else (rs.map f).sum / rs.length

/-- The input power over the last 1 ms. -/
def Pw.drawNow (p : Pw) (now : Nat) : Nat := p.average now (·.draw) p.draw

/-- The highest such value in the last 1 s. -/
def Pw.peakNow (p : Pw) (now : Nat) : Nat :=
  ((p.peaks.filter (fun e => decide (now < e.1 + 1000000000))).map (·.2)).foldl max (p.drawNow now)

/-- A sample joins those of the last 1 ms, and the average it makes those of the last 1 s that none later exceeds. -/
def Pw.addSample (p : Pw) (now draw voltage current : Nat) : Pw :=
  let q := { p with draw := draw, vin := voltage, current := current
                    samples := PowerReading.mk now draw voltage current :: p.samples.filter (fun r => decide (now < r.stitch + 1000000)) }
  let d := q.drawNow now
  { q with peaks := (now, d) :: p.peaks.filter (fun e => decide (now < e.1 + 1000000000) && decide (d < e.2)) }

/-! ### Counters (15 R419 to R423) -/

/-- The greatest value of a 64-bit counter, at which it saturates (15 R419). -/
def counterMax : Nat := 0xFFFFFFFFFFFFFFFF

/-- A saturating count. -/
def satAdd (bits a n : Nat) : Nat := min (a + n) (2 ^ bits - 1)

/-- Add to one module event counter (15 R422). -/
def State.count (s : State) (i n : Nat) : State :=
  { s with cnt := { s.cnt with events := s.cnt.events.modify i (fun v => satAdd 64 v n) } }

/-- Add to one counter of a job's block (15 R423). -/
def State.countJob (s : State) (id : Word) (i n : Nat) : State :=
  s.updJob id (fun j => { j with counters := j.counters.modify i (fun v => satAdd 64 v n) })

/-- Add to one counter of a unit's block (15 R421). -/
def State.countUnit (s : State) (u i n : Nat) : State :=
  { s with cnt := { s.cnt with units := s.cnt.units.modify u (fun row => row.modify i (fun v => satAdd 64 v n)) } }

/-! ### Interrupts (02 R50 to R52) -/

/-- Whether a cause is set: 0 admin, 1 timing summary, 2 fault summary, 3 + r completion, 35 + r attention (02 R50). -/
def Intr.cause (i : Intr) (c : Nat) : Bool :=
  if c = 0 then i.admin else if c = 1 then i.timing != 0 else if c = 2 then i.fault != 0
  else if c < 35 then i.ringCpl.getLsbD (c - 3) else i.ringAttn.getLsbD (c - 35)

/-- Whether a cause is masked (02 R51). -/
def Intr.maskedCause (i : Intr) (c : Nat) : Bool :=
  if c < 3 then i.maskMain.getLsbD c else if c < 35 then i.maskRingCpl.getLsbD (c - 3) else i.maskRingAttn.getLsbD (c - 35)

/-- The vector a cause is mapped to (02 R50). -/
def Intr.vectorOf (i : Intr) (c : Nat) : Nat := (i.vectorMap.getD c 0).toNat

/-- The causes that are set and not masked. -/
def Intr.live (i : Intr) : List Nat := (List.range 67).filter (fun c => i.cause c && !i.maskedCause c)

/-- The vectors whose OR of unmasked causes is 1 (02 R52). -/
def Intr.high (i : Intr) : List Nat := i.live.map i.vectorOf

/-- Send the message of a vector, or record it in the pending-bit array while the function or the entry is masked
(02 R52). -/
def State.sendVector (s : State) (v : Nat) : State :=
  let e := s.intr.msix.getD v { addr := 0, data := 0, masked := true }
  if s.intr.fnMask || e.masked then { s with intr := { s.intr with pba := s.intr.pba.set v true } }
  else s.emit (.msix v e.addr e.data)

/-- A pending message whose causes have all been serviced or masked is dropped, as PCI Express says of a masked vector (02 R52; log 90). -/
def Intr.serviced (i : Intr) : Intr :=
  let high := i.high
  { i with pba := i.pba.zipIdx.map (fun p => p.1 && high.contains p.2) }

/-- Replace the interrupt block and send a message on every vector whose OR of unmasked causes goes from 0 to 1
(02 R52). -/
def State.setIntr (s : State) (i : Intr) : State :=
  let before := s.intr.high
  let after := i.high
  ((List.range 66).filter (fun v => after.contains v && !before.contains v)).foldl State.sendVector { s with intr := i.serviced }

/-- W1C bits of two sets. -/
def Causes.or (a b : Causes) : Causes :=
  { admin := a.admin || b.admin, ringCpl := a.ringCpl ||| b.ringCpl, ringAttn := a.ringAttn ||| b.ringAttn, fault := a.fault ||| b.fault,
    timing := a.timing ||| b.timing, overrun := a.overrun || b.overrun }

/-- The W1C bits that the module has set in this Hook cycle, which is the stitch (00 R12; log 93). -/
def State.freshCauses (s : State) : Causes := if s.intr.freshAt = s.stitch then s.intr.fresh else {}

/-- The module sets W1C bits: the causes rise, messages leave, and the bits are held against a host clear of the same cycle (00 R12,
02 R52). -/
def State.raise (s : State) (c : Causes) : State :=
  s.setIntr { s.intr with admin := s.intr.admin || c.admin, ringCpl := s.intr.ringCpl ||| c.ringCpl,
                          ringAttn := s.intr.ringAttn ||| c.ringAttn, fault := s.intr.fault ||| c.fault, timing := s.intr.timing ||| c.timing,
                          fresh := s.freshCauses.or c, freshAt := s.stitch }

/-- Set a bit of INTR_FAULT_SUMMARY (02 R51): 0 course_fault, 1 needle_retired, 2 page_retired, 3 link_lost,
4 bridge_group, 5 stash, 6 thermal, 7 power. -/
def State.raiseFault (s : State) (bit : Nat) : State :=
  s.raise { fault := BitVec.ofNat 8 (2 ^ bit) }

/-- Set a bit of INTR_TIMING_SUMMARY (02 R51): 0 master_changed, 1 holdover_entered, 2 holdover_expired, 3 gauge_lost,
4 missed_launch. -/
def State.raiseTiming (s : State) (bit : Nat) : State :=
  s.raise { timing := BitVec.ofNat 5 (2 ^ bit) }

/-! ### Error records (13 R384 to R386; the UEFI layout is PRESUMED: log 13) -/

/-- The Keadan creator GUID (13 R384). -/
def creatorGuid : List Byte :=
  [0x28, 0x1B, 0x6D, 0x3F, 0x4E, 0x9C, 0x77, 0x4A, 0xB2, 0xD5, 0x6E, 0x0A, 0x8F, 0x13, 0xC9, 0x42]

/-- The Section Type GUID of the vendor section (13 R384). -/
def vendorGuid : List Byte :=
  [0x71, 0x2C, 0x4A, 0x8E, 0x3B, 0x5D, 0x60, 0x4B, 0xA1, 0xF9, 0x27, 0xC6, 0xE0, 0x4D, 0x9B, 0x35]

/-- The Section Type GUID of a Platform Memory Error section (UEFI, PRESUMED). -/
def memoryGuid : List Byte :=
  [0x14, 0x11, 0xBC, 0xA5, 0x64, 0x6F, 0xDE, 0x4E, 0xB8, 0x63, 0x3E, 0x83, 0xED, 0x7C, 0x83, 0xB1]

/-- Two decimal digits as one byte. -/
def bcd (n : Nat) : Byte := BitVec.ofNat 8 (n / 10 % 10 * 16 + n % 10)

/-- The civil date of a day number counted from 1970-01-01: year, month, day. -/
def civil (days : Nat) : Nat × Nat × Nat :=
  let z := days + 719468
  let era := z / 146097
  let doe := z % 146097
  let yoe := (doe - doe / 1460 + doe / 36524 - doe / 146096) / 365
  let doy := doe - (365 * yoe + yoe / 4 - yoe / 100)
  let mp := (5 * doy + 2) / 153
  let d := doy - (153 * mp + 2) / 5 + 1
  let m := if mp < 10 then mp + 3 else mp - 9
  (yoe + era * 400 + (if m ≤ 2 then 1 else 0), m, d)

/-- The eight-byte timestamp of a CPER header: wall time from the stitch counter, precise only under PPS or IEEE 1588
(13 R384, 04 R123). -/
def cperTime (stitch : Nat) (precise : Bool) : List Byte :=
  let secs := stitch / 1000000000
  let c := civil (secs / 86400)
  [bcd (secs % 60), bcd (secs / 60 % 60), bcd (secs / 3600 % 24), (if precise then 1 else 0), bcd c.2.2, bcd c.2.1,
   bcd (c.1 % 100), bcd (c.1 / 100)]

/-- CPER severities: 0 Recoverable, 1 Fatal, 2 Corrected, 3 Informational (UEFI, PRESUMED). -/
abbrev sevRecoverable : Nat := 0
abbrev sevFatal : Nat := 1
abbrev sevCorrected : Nat := 2
abbrev sevInformational : Nat := 3

/-- What an error record says of its event (13 R385). -/
structure ErrEvent where
  cls : Nat
  sev : Nat
  status : Nat := 0
  unit : Nat := 0xFFFF
  job : Nat := 0
  step : Nat := counterMax
  tensor : Nat := 0
  attempt : Nat := 0
  detail : List Byte := []
  page : Option Nat := none

/-- The 80-byte vendor section (13 R385). -/
def State.vendorSection (s : State) (e : ErrEvent) : List Byte :=
  overlayBytes (record 80 [(0, 2, 1), (2, 2, e.cls), (4, 2, e.status), (6, 2, e.unit), (8, 8, s.stitch), (16, 8, s.stash.cperNext),
    (24, 2, if s.skein.member then s.skein.device.toNat else 0), (26, 2, if s.skein.member then 1 else 0), (28, 4, e.job),
    (32, 8, e.step), (40, 4, e.tensor), (44, 1, e.attempt)]) 48 (slice e.detail 0 32)

/-- A 72-byte section descriptor (UEFI, PRESUMED). -/
def sectionDescriptor (offset length sev : Nat) (guid : List Byte) : List Byte :=
  overlayBytes (record 72 [(0, 4, offset), (4, 4, length), (8, 2, 0x0101), (48, 4, sev)]) 16 guid

/-- A whole error record (13 R384). -/
def State.cperBytes (s : State) (e : ErrEvent) : List Byte :=
  let n := if e.page.isSome then 2 else 1
  let first := 128 + 72 * n
  let total := first + 80 * n
  let head := overlayBytes (overlayBytes (overlayBytes (overlayBytes
    (record 128 [(0, 4, 0x52455043), (4, 2, 0x0101), (6, 4, 0xFFFFFFFF), (10, 2, n), (12, 4, e.sev), (16, 4, 2), (20, 4, total),
      (96, 8, s.stash.cperNext)])
    24 (cperTime s.stitch (s.cfg.castTimeSource < 2))) 32 (slice Config.platformId 0 16)) 64 creatorGuid)
    80 (slice Config.notificationType 0 16)
  head ++ sectionDescriptor first 80 e.sev vendorGuid ++
    (if e.page.isSome then sectionDescriptor (first + 80) 80 e.sev memoryGuid else []) ++
    s.vendorSection e ++
    (match e.page with
     | some a => record 80 [(0, 8, 2), (16, 8, a)]
     | none => [])

/-- The bytes of the CPER log ring (12 R352). -/
def cperRingBytes : Nat := 0x40000000

/-- The records that still fit the log ring: the oldest are overwritten first (13 R384). -/
def trimCper : List (List Byte) → List (List Byte)
  | [] => []
  | r :: rs => if cperRingBytes < ((r :: rs).map List.length).sum then trimCper rs else r :: rs

/-- The Stash serves data: at least 15 channels are in service (12 R351). -/
def State.stashOk (s : State) : Bool := decide (15 ≤ ((List.range 16).filter s.stash.channels.getLsbD).length)

/-- Write an error record; with the Stash out of service it is lost (13 R392 'Stash lost'). -/
def State.cper (s : State) (e : ErrEvent) : State :=
  if s.stashOk then
    { s with stash := { s.stash with
      cper := trimCper (s.stash.cper ++ [s.cperBytes e]), cperNext := s.stash.cperNext + 1
      bytesWritten := s.stash.bytesWritten + (s.cperBytes e).length } }
  else s

/-! ### The flash (12 R353, R354, R356) -/

/-- The error record of a block of the Stash: its channel, its number and its byte offset in its area, which no rule of the flash's layout gives,
are free values (13 R386; log 128). -/
def State.blockRecord (s : State) (sev status draw : Nat) : List Byte :=
  s.cperBytes { cls := 6, sev := sev, status := status, unit := 186
                detail := [BitVec.ofNat 8 ((Config.freeBits draw).toNat % 16), 0, 0, 0] ++ le 4 (Config.freeBits (draw + 1)).toNat ++
                  le 8 (Config.freeBits (draw + 2)).toNat }

/-- Some error records join the log. -/
def Stash.log (x : Stash) (recs : List (List Byte)) : Stash :=
  { x with cper := trimCper (x.cper ++ recs), cperNext := x.cperNext + recs.length, bytesWritten := x.bytesWritten + (recs.map List.length).sum }

/-- Data of the Stash cannot be rebuilt: an error record of class 6 tells it (12 R353, 13 R386). -/
def State.lostPage (s : State) : State :=
  let x := { s with freeCtr := s.freeCtr + 3 }
  if s.stashOk then { x with stash := s.stash.log [s.blockRecord sevRecoverable stBlockCheckFail s.freeCtr] } else x

/-- The flash writes: blocks, which no row names, carry the stitch as the date of their last writing, and blocks whose program or erase fails, or
whose data needed rebuilding, join the bad-block table, each with an error record of class 6.  How many and which they are is free
(12 R354, R356; log 128). -/
def State.wear (s : State) : State :=
  let n := (Config.freeBits s.freeCtr).toNat % 65536
  let m := (Config.freeBits (s.freeCtr + 1)).toNat % 65536
  let from_ := s.freeCtr + 2
  let recs := if s.stashOk then (List.range n).map (fun i =>
      { s with stash := { s.stash with cperNext := s.stash.cperNext + i } }.blockRecord sevCorrected 0 (from_ + 3 * i)) else []
  let dated := (List.range m).map (fun i => (Config.freeBits (from_ + 3 * n + i)).toNat % 2 ^ 32)
  { s with
    freeCtr := from_ + 3 * n + m
    stash := { s.stash.log recs with
      grownBad := satAdd 32 s.stash.grownBad n
      scrubbed := dated.map (fun b => (b, (s.stitch : Int))) ++ s.stash.scrubbed.filter (fun e => !dated.contains e.1) } }

/-! ### Pages and their stacks (03 R81; 12 R337) -/

/-- A page overlaps an address range. -/
def pageIn (base length page : Nat) : Bool := decide (base < (page + 1) * pageBytes) && decide (page * pageBytes < base + length)

/-- The stack a page lies on: among the stacks of its tensor, those that cast-on placed pages on (03 R81, 12 R341). -/
def State.pageStack (s : State) (page : Nat) : Nat :=
  let t := (s.jobs.flatMap (·.tensors)).find? (fun t => pageIn t.base t.length page)
  stackOfPage (stackList ((t.map (·.stackMask)).getD 0) s.mem.leftOut) page

/-- The physical page that backs a device page, named by the device page that it backed at manufacture (03 R81; 12 R337, R346). -/
def State.physOf (s : State) (page : Nat) : Nat := (s.mem.pageMap.lookup page).getD page

/-- The stack that holds a page's data: that of its physical page (12 R337, R346). -/
def State.homeStack (s : State) (page : Nat) : Nat := s.pageStack (s.physOf page)

/-- A stack serves no unit: it is at thermal step 4 or 5, or its interface retrains (12 R341, R348). -/
def Stack.stopped (k : Stack) : Bool := decide (4 ≤ k.step) || k.state == 1

/-- A page of a range lies on a stack that serves no unit. -/
def State.hotRange (s : State) (a n : Nat) : Bool :=
  (List.range (n / pageBytes + 1)).any (fun i => (s.mem.stackTab.getD (s.homeStack (pageOf a + i)) Stack.reset).stopped)

/-! ### Trace (15 R424 to R431) -/

/-- The source of an event: (device number << 8) | unit (00 R7). -/
def State.source (s : State) (unit : Nat) : Nat := s.skein.device.toNat * 256 + unit

/-- Write the counts of a ring's header into memory (15 R425). -/
def TraceRing.header (m : List Host.Cell) (job : Nat) (r : TraceRing) : List Host.Cell :=
  Memory.writeBytes m r.base (record 64 [(0, 4, 0x58545850), (4, 2, 1),
    (6, 2, (if r.running then 1 else 0) + (if r.spillOn then 2 else 0)), (8, 4, job), (12, 4, r.classMask.toNat),
    (16, 8, r.slots), (24, 8, r.writeCount), (32, 8, r.readCount), (40, 8, r.dropped)])

/-- Put a record into its slot and advance write_count (15 R425). -/
def TraceRing.put (m : List Host.Cell) (job : Nat) (r : TraceRing) (bytes : List Byte) : List Host.Cell × TraceRing :=
  let m1 := Memory.writeBytes m (r.base + 64 + 64 * (r.writeCount % max r.slots 1)) bytes
  let r1 := { r with writeCount := r.writeCount + 1 }
  (TraceRing.header m1 job r1, r1)

/-- The ring has no slot for an ordinary record: one slot is kept for a dropped-stitch record (15 R430). -/
def TraceRing.full (r : TraceRing) : Bool := decide (r.slots ≤ r.writeCount - r.readCount + 1)

/-- Records the trace spill area holds: 512 GiB of 64-byte records (12 R352). -/
def spillMax : Nat := 0x200000000

/-- The record of R426. -/
def State.traceBytes (s : State) (type unit seq stitch : Nat) (core : Bool) (payload : List Byte) : List Byte :=
  record 16 [(0, 8, stitch), (8, 3, s.source unit), (11, 1, type), (12, 2, seq % 65536), (14, 1, if core then 1 else 0),
    (15, 1, payload.length)] ++ slice payload 0 48

/-- The ring a record goes to: its job's, or the module's (15 R424). -/
def State.traceRing (s : State) (job : Option Word) : Option TraceRing :=
  match job with
  | some id => (s.job? id).bind (·.ring)
  | none => s.trace.moduleRing

/-- Put a ring back. -/
def State.setTraceRing (s : State) (job : Option Word) (r : Option TraceRing) : State :=
  match job with
  | some id => s.updJob id (fun j => { j with ring := r })
  | none => { s with trace := { s.trace with moduleRing := r } }

/-- The next issue number of a source (15 R426). -/
def State.nextIssue (s : State) (unit : Nat) : Nat := (s.trace.issue.lookup unit).getD 0

/-- Count one more record issued by a source. -/
def State.bumpIssue (s : State) (unit : Nat) : State :=
  { s with trace := { s.trace with issue := (unit, s.nextIssue unit + 1) :: s.trace.issue.filter (·.1 != unit) } }

/-- Bytes of a ring (15 R425). -/
def TraceRing.bytes (r : TraceRing) : Nat := 64 + 64 * r.slots

/-- Spill writes pause: a stack of the ring is hot or retrains, or a user of the Stash that ranks higher runs (12 R348, R357). -/
def State.spillPaused (s : State) (r : TraceRing) : Bool :=
  s.hotRange r.base r.bytes || s.stash.runs.any (·.started) || (s.pw.module == 3 && s.pw.transition == 1)

/-- The queued records of a ring are written to the spill area once nothing holds the writes. -/
def TraceRing.drained (s : State) (r : TraceRing) : TraceRing := if s.spillPaused r then r else { r with spill := r.spill ++ r.queued, queued := [] }

/-- The queued spill writes of every job that nothing holds any more are done (15 R431). -/
def State.drainSpill (s : State) : State :=
  s.jobs.foldl (fun (x : State) (j : Job) => match j.ring with
    | some r =>
      if r.queued.isEmpty || s.spillPaused r then x
      else State.setTraceRing { x with stash := { x.stash with bytesWritten := x.stash.bytesWritten + 64 * r.queued.length } } (some j.id) (some (r.drained s))
    | none => x) s

/-- The most records that the spill write queue holds (15 R431). -/
def spillQueueMax : Nat := 65536

/-- A record waits in the spill write queue, or is written behind what waits there. -/
def State.spillRecord (s : State) (job : Option Word) (r : TraceRing) (bytes : List Byte) : State :=
  State.drainSpill (s.setTraceRing job (some { r with queued := r.queued ++ [bytes] }))

/-- A record that finds its ring full is dropped and counted (15 R430), or spilled, while the spill area has room and the write queue holds less
than 65,536 records (15 R431). -/
def State.traceFull (s : State) (job : Option Word) (r : TraceRing) (type stitch : Nat) (bytes : List Byte) : State :=
  let rings := s.jobs.filterMap (·.ring)
  let spilled := (rings.map (fun x => x.spill.length + x.queued.length)).sum
  if r.spillOn && s.stashOk && decide (spilled < spillMax) && decide ((rings.map (fun x => (x.drained s).queued.length)).sum < spillQueueMax) then
    s.spillRecord job r bytes
  else
    let r1 := { r with dropped := r.dropped + 1, lost := r.lost + 1, lostFirst := if r.lost = 0 then stitch else r.lostFirst,
                       lostLast := stitch, lostTypes := r.lostTypes ||| BitVec.ofNat 32 (2 ^ type) }
    let s1 := { s with mem := { s.mem with cells := TraceRing.header s.mem.cells ((job.map BitVec.toNat).getD 0) r1 } }
    let s2 := (s1.setTraceRing job (some r1)).count 19 1
    match job with
    | some id => s2.countJob id 23 1
    | none => s2

/-- Write a trace record (15 R424): its ring must stand, run and hold its type; nothing else is written of it. -/
def State.traceNow (s : State) (job : Option Word) (type unit stitch : Nat) (core : Bool) (payload : List Byte) : State :=
  let seq := s.nextIssue unit
  let s1 := s.bumpIssue unit
  match s1.traceRing job with
  | none => s1
  | some r =>
    if r.running && r.classMask.getLsbD type then
      let bytes := s1.traceBytes type unit seq stitch core payload
      if r.full || !r.spill.isEmpty || !r.queued.isEmpty then s1.traceFull job r type stitch bytes
      else
        let p := TraceRing.put s1.mem.cells ((job.map BitVec.toNat).getD 0) r bytes
        ({ s1 with mem := { s1.mem with cells := p.1 } }).setTraceRing job (some p.2)
    else s1

/-- Issue a trace record; one stamped during a firmware handover is written after it (15 R440). -/
def State.traceRec (s : State) (job : Option Word) (type unit stitch : Nat) (core : Bool) (payload : List Byte) : State :=
  if s.dev.fwActivating then
    { s with trace := { s.trace with held := s.trace.held ++
        [{ job := job, type := type, unit := unit, stitch := stitch, core := core, payload := payload }] } }
  else s.traceNow job type unit stitch core payload

/-- Spilled records return to their ring, oldest first, as slots free, those whose write still waits last (15 R431). -/
def TraceRing.unspill : Nat → List Host.Cell → Nat → TraceRing → List Host.Cell × TraceRing
  | 0, m, _, r => (m, r)
  | n + 1, m, job, r =>
    if r.full then (m, r)
    else match r.spill, r.queued with
      | b :: bs, _ => let p := TraceRing.put m job { r with spill := bs } b
                      TraceRing.unspill n p.1 job p.2
      | [], b :: bs => let p := TraceRing.put m job { r with queued := bs } b
                       TraceRing.unspill n p.1 job p.2
      | [], [] => (m, r)

/-- The host has freed slots: a DROPPED record comes first when records were lost, then the spilled ones (15 R430,
R431); during a firmware handover they come after it (R440). -/
def State.traceFreed (s : State) (job : Option Word) : State :=
  match (if s.dev.fwActivating then none else s.traceRing job) with
  | none => s
  | some r =>
    let jobNo := (job.map BitVec.toNat).getD 0
    let seq := s.nextIssue 184
    let dropNow := r.lost != 0 && decide (r.writeCount - r.readCount < r.slots)
    let bytes := s.traceBytes 0x0F 184 seq s.stitch true
      (record 28 [(0, 8, r.lost), (8, 8, r.lostFirst), (16, 8, r.lostLast), (24, 4, r.lostTypes.toNat)])
    let s1 := if dropNow then (s.bumpIssue 184).count 20 1 else s
    let p := if dropNow then
        TraceRing.put s1.mem.cells jobNo { r with lost := 0, lostFirst := 0, lostLast := 0, lostTypes := 0 } bytes
      else (s1.mem.cells, r)
    let q := TraceRing.unspill (p.2.spill.length + p.2.queued.length) p.1 jobNo p.2
    ({ s1 with mem := { s1.mem with cells := q.1 } }).setTraceRing job (some q.2)

/-- After a firmware handover what it held back is written: first into the slots that the host has freed, then the records stamped during it, in
issue order (15 R440). -/
def State.writeHeld (s : State) : State :=
  let s1 := (none :: s.jobs.map (fun j => some j.id)).foldl State.traceFreed s
  s1.trace.held.foldl (fun x h => x.traceNow h.job h.type h.unit h.stitch h.core h.payload) { s1 with trace := { s1.trace with held := [] } }

/-- The payload shared by LAUNCH, RETIRE, MARKER, STEP and TIME records (15 R429). -/
def tracePayload (job marker step tag point value event : Nat) : List Byte :=
  record 41 [(0, 4, job), (4, 4, marker), (8, 8, step), (16, 8, tag), (24, 8, point), (32, 8, value), (40, 1, event)]

/-- The payload of a WAIT record (15 R427). -/
def waitPayload (cause kind port job last source id offset tag step : Nat) : List Byte :=
  record 48 [(0, 1, cause), (1, 1, kind), (2, 1, port), (4, 4, job), (8, 8, last), (16, 4, source), (20, 4, id), (24, 4, offset), (32, 8, tag), (40, 8, step)]

/-- A TIME record: value before and after the event (15 R429): 1 counter step, 2 master changed, 3 holdover entered,
4 holdover expired, 5 re-aligned, 6 gauge state changed. -/
def State.traceTime (s : State) (before after event : Nat) : State :=
  s.traceRec none 0x08 187 s.stitch false (tracePayload 0 0 counterMax 0 before after event)

/-! ### Completions (02 R59, R60, R64, R66) -/

/-- Raise an attention on a ring (02 R56, R60): it sets attention_cause, and causes 1, 2, 3 and 5 halt the ring.  DESIGN CHOICE (log 94):
R60 orders only a halting cause after cause 4; a halting cause after another halting cause replaces it too. -/
def State.attention (s : State) (r cause : Nat) : State :=
  (s.updRing r (fun g => { g with attn := cause, halted := g.halted || cause != 4 })).raise { ringAttn := BitVec.ofNat 32 (2 ^ r) }

/-- Entries of either ring (02 R57, R59). -/
def Ring.size (g : Ring) : Nat := 2 ^ g.sizeLog2

/-- The completion ring has no room (02 R59). -/
def Ring.cqFull (g : Ring) : Bool := (g.cqTail + 1) % g.size == g.cqHead

/-- The bytes of a completion as it is written (02 R64, R66). -/
def State.completionBytes (s : State) (phase : Bool) (c : Completion) : List Byte :=
  let p := if phase then 1 else 0
  let src := match c.tag.src with
    | .admin => 0xFFFF
    | .ring r => r
  if c.tag.rev = 2 then
    record 32 [(0, 2, c.status.toNat), (2, 2, p + (if c.reportAttached then 2 else 0) + (if c.truncated then 4 else 0)),
      (4, 4, c.tag.commandId.toNat), (8, 4, c.secondary.toNat), (12, 2, c.tag.sqHead), (14, 2, src), (16, 8, s.stitch),
      (24, 8, c.result.toNat)]
  else
    record 16 [(0, 2, c.status.toNat), (2, 2, c.tag.commandId.toNat), (4, 2, c.tag.sqHead), (6, 2, p), (8, 8, c.result.toNat)]

/-- Bytes of a completion entry of a revision (02 R59). -/
def cplBytes (rev : Nat) : Nat := if rev = 2 then 32 else 16

/-- Write a completion into its ring, which has room: the entry, the tail with its phase, the interrupt cause; or, when the
write faults, drop it, count it and raise CQ_WRITE_FAULT (02 R59, R60, R50). -/
def State.writeRingCpl (s : State) (r : Nat) (fault : Bool) (c : Completion) : State :=
  let g := s.ring r
  let s0 := s.updRing r (fun g => { g with outstanding := g.outstanding - 1 })
  if fault then (s0.count 10 1).attention r 3
  else
    let s1 := s0.emit (.hostWrite (g.cqBase.toNat + g.cqTail * cplBytes g.revision) (s.completionBytes g.phase c))
    let tail := (g.cqTail + 1) % g.size
    let s2 := s1.updRing r (fun g => { g with cqTail := tail, phase := if tail = 0 then !g.phase else g.phase })
    if c.tag.intr && g.intEnable then
      s2.raise { ringCpl := BitVec.ofNat 32 (2 ^ r) }
    else s2

/-- Write the admin completion: busy falls, done rises, the phase turns, cause 0 under flags[0] (02 R53, R54, R50). -/
def State.writeAdminCpl (s : State) (c : Completion) : State :=
  let s1 := { s with admin := { s.admin with busy := false, done := true, phase := !s.admin.phase,
                                             completion := s.completionBytes s.admin.phase c } }
  if c.tag.intr then s1.raise { admin := true } else s1

/-- A command ends: its completion is written, is held behind others while the ring is full (02 R59), waits for the end of a firmware handover
(14 R412 step 4), or is dropped when the host interface was reset since the command was taken (02 R43). -/
def State.complete (s : State) (c : Completion) : State :=
  if c.tag.epoch != s.dev.epoch then s
  else if s.dev.fwActivating then { s with fw := { s.fw with late := s.fw.late ++ [c] } }
  else match c.tag.src with
    | .admin => s.writeAdminCpl c
    | .ring r =>
      let g := s.ring r
      if g.cqFull || !g.held.isEmpty then s.updRing r (fun g => { g with held := g.held ++ [c] })
      else s.writeRingCpl r c.tag.cplFault c

/-- A completion from the codes of the conditions that apply and a result (00 R9, 02 R65). -/
def CmdTag.completion (t : CmdTag) (codes : List Nat) (result : Nat) : Completion :=
  { tag := t, status := BitVec.ofNat 16 (primaryStatus codes), secondary := BitVec.ofNat 32 (secondaryMask codes),
    reportAttached := false, truncated := false, result := BitVec.ofNat 64 result }

/-- A signature or block-check failure writes an error record of class 11 (13 R386). -/
def State.noteSecurity (s : State) (t : CmdTag) (codes : List Nat) : State :=
  let p := primaryStatus codes
  if p = stSignatureFail ∨ p = stBlockCheckFail then
    s.cper { cls := 11, sev := sevInformational, status := p, unit := 184, job := t.jobId.toNat,
             detail := [BitVec.ofNat 8 t.opcode] }
  else s

/-- End a command with codes and a result. -/
def State.finish (s : State) (t : CmdTag) (codes : List Nat) (result : Nat) : State :=
  (s.noteSecurity t codes).complete (t.completion codes result)

/-- End a command with a result record: the first result_len bytes go to result_addr, the result field gives the full
length, result_truncated says that it did not fit (02 R64); a revision-1 buffer is sized by the command (02 R66).  DESIGN CHOICE (log 95):
with result_addr 0, which R63 gives the meaning 'none', nothing is written, and a result of some length did not fit. -/
def State.finishData (s : State) (t : CmdTag) (codes : List Nat) (data : List Byte) (more : Bool := false) (result : Option Nat := none) :
    State :=
  let room := if t.rev = 2 then t.resultLen else data.length
  let part := data.take (if t.resultAddr = 0 then 0 else room)
  let s1 := if part.isEmpty then s else s.emit (.hostWrite t.resultAddr.toNat part)
  (s1.noteSecurity t codes).complete
    { t.completion codes (result.getD data.length) with truncated := more || (decide (part.length < data.length)) }

end Sys2Proof.Machine
end

