-- ==== Sys2Proof/Machine/Queues.lean ====
section
/-! DEFINITION. Units and their launch queues (00 R4, 01 R19), markers as launch conditions (03 R105 to R107), and the pages
of views and staging pools (03 R81 to R85, R118). -/

namespace Sys2Proof.Machine

/-! ### Units -/

/-- The launch queue of a unit. -/
def State.queue (s : State) : LUnit → List Nat
  | .panel p => s.panelQ.getD p []
  | .engine e => s.engineQ.getD e []
  | .link k => s.linkQ.getD k []

/-- Replace the launch queue of a unit. -/
def State.setQueue (s : State) (u : LUnit) (q : List Nat) : State :=
  match u with
  | .panel p => { s with panelQ := s.panelQ.set p q
                         headAt := if q.head? = (s.panelQ.getD p []).head? then s.headAt else s.headAt.set p s.stitch }
  | .engine e => { s with engineQ := s.engineQ.set e q }
  | .link k => { s with linkQ := s.linkQ.set k q }

/-- Entries of a launch queue (01 R19). -/
def queueMax : Nat := 64

/-- The courses that the Hook holds for a queue, in order (01 R19). -/
def State.heldFor (s : State) (u : LUnit) : List Nat := (s.hold.filter (·.1 == u)).map (·.2)

/-- Put a number before the first greater one. -/
def insertById (id : Nat) : List Nat → List Nat
  | [] => [id]
  | x :: xs => if id < x then id :: x :: xs else x :: insertById id xs

/-- Enter a course into a unit's queue in acceptance order: a queue that is full passes its last entry to the hold, and while the
hold has entries for the queue a later course joins them (01 R19, 03 R115). -/
def State.insertCourse (s : State) (u : LUnit) (id : Nat) : State :=
  let q := s.queue u
  let held := s.heldFor u
  let rest := s.hold.filter (·.1 != u)
  if held.isEmpty && decide (q.length < queueMax) || q.any (fun x => decide (id < x)) then
    let all := insertById id q
    { (s.setQueue u (all.take queueMax)) with hold := rest ++ ((all.drop queueMax ++ held).map (fun x => (u, x))) }
  else { s with hold := rest ++ (insertById id held).map (fun x => (u, x)) }

/-- A course leaves a unit's queue. -/
def State.leaveQueue (s : State) (u : LUnit) (id : Nat) : State := s.setQueue u ((s.queue u).filter (· != id))

/-- Every launch queue of the module. -/
def allUnits : List LUnit := (List.range 12).map .panel ++ (List.range 8).map .engine ++ (List.range 32).map .link

/-- A course leaves every queue and the hold. -/
def State.leaveAll (s : State) (id : Nat) : State :=
  let s1 := allUnits.foldl (fun x u => x.leaveQueue u id) s
  { s1 with hold := s1.hold.filter (·.2 != id) }

/-- The course at the head of a unit's queue. -/
def State.headCourse (s : State) (u : LUnit) : Option Course := (s.queue u).head?.bind s.course?

/-- The launch queues a course stands in: panels, engines or links. -/
def Course.units (c : Course) : List LUnit := c.panels.map .panel ++ c.engines.map .engine ++ c.links.map .link

/-- The physical needle of a logical one (00 R6). -/
def State.physical (s : State) (l : Nat) : Option Nat := (s.spareMap.getD l none)

/-- The logical number a physical needle serves. -/
def State.logicalOf (s : State) (n : Nat) : Option Nat := (List.range 136).find? (fun l => s.physical l == some n)

/-- The panel in which a course runs the shard of one of its logical needles (01 R28, 05 R175, R176). -/
def Course.place (c : Course) (l : Nat) : Nat := (c.places.lookup l).getD 0

/-- The physical needle that runs a logical needle's shard itself: mapped in that panel and not excluded. -/
def State.ownNeedle (s : State) (c : Course) (l : Nat) : Option Nat :=
  (s.physical l).filter (fun n => n / 12 == c.place l && !c.excluded.contains n)

/-- The physical needles a course occupies: its own, and those outside its set that run substituted shards (05 R175). -/
def State.occupied (s : State) (c : Course) : List Nat := c.needles.filterMap (s.ownNeedle c) ++ c.subs

/-- A course runs: it has launched and has neither retired nor aborted. -/
def Course.running (c : Course) : Bool := c.status == .launched || c.status == .waitPages

/-- A course is queued or runs: it has neither retired nor been abandoned (03 R118, 05 R177). -/
def Course.live (c : Course) : Bool := !c.finished && c.status != .abandoned

/-- A course runs on a unit. -/
def Course.runsOn (c : Course) (u : LUnit) : Bool := c.running && c.launchedUnits.contains u

/-- The course that runs on a physical needle. -/
def State.onNeedle (s : State) (n : Nat) : Option Course :=
  s.courses.find? (fun c => c.runsOn (.panel (n / 12)) && (s.occupied c).contains n)

/-- The course that runs on an engine or a link. -/
def State.onUnit (s : State) (u : LUnit) : Option Course := s.courses.find? (fun c => c.runsOn u)

/-- Unit numbers a course occupies in one launch queue (00 R4). -/
def State.unitNumbers (s : State) (c : Course) : LUnit → List Nat
  | .panel p => (s.occupied c).filter (fun n => n / 12 == p)
  | .engine e => [144 + e]
  | .link k => [152 + k]

/-- The least of some unit numbers, or another unit where there is none: no reserved number is carried (00 R4). -/
def leastUnit (other : Nat) : List Nat → Nat
  | [] => other
  | u :: us => us.foldl min u

/-- The lowest unit a course occupies on this module (15 R426); for a course whose needles are all excluded from its rerun, the lowest that
its logical needles map to, and the Hook for one whose needles are all unmapped. -/
def State.lowestUnit (s : State) (c : Course) : Nat :=
  leastUnit (leastUnit 184 (c.needles.filterMap s.physical)) (c.units.map (s.unitNumbers c)).flatten

/-! ### Markers -/

/-- The emission an AFTER entry names now: the one it named, or, when that is void, the next emission of the identifier
(03 R107). -/
def Job.named (j : Job) (m : Word) (ord : Nat) : Option MarkerEm :=
  j.markers.find? (fun e => e.marker == m && decide (ord ≤ e.ord) && e.status != .void)

/-- An emission has completed for a unit at a stitch: a PANEL marker panel by panel, a SKEIN marker once its completion
stitch is reached (03 R105, R106). -/
def MarkerEm.done (e : MarkerEm) (u : LUnit) (now : Nat) : Bool :=
  match e.status with
  | .complete t => decide (t ≤ now)
  | .pending => (match u with
      | .panel p => e.scope == 1 && e.panels.any (fun q => q.1 == p && decide (q.2 ≤ now))
      | _ => false)
  | _ => false

/-- Every marker a course waits for has completed for a unit. -/
def State.markersDone (s : State) (c : Course) (u : LUnit) : Bool :=
  match s.job? c.job with
  | none => c.after.isEmpty
  | some j => c.after.all (fun a => match j.named a.1 a.2 with
      | some e => e.done u s.stitch
      | none => false)

/-- The markers a course still waits for at a unit. -/
def State.openMarkers (s : State) (c : Course) (u : LUnit) : List (Option MarkerEm) :=
  match s.job? c.job with
  | none => []
  | some j => (c.after.map (fun a => j.named a.1 a.2)).filter (fun o => match o with
      | some e => !e.done u s.stitch
      | none => true)

/-- The kind of unit a marker's course runs on: 1 needles, 2 engines, 4 links. -/
def State.emitterKind (s : State) (e : MarkerEm) : Nat :=
  match s.course? e.course with
  | some c => c.target
  | none => if e.lastUnit < 144 then 1 else if e.lastUnit < 152 then 2 else 4

/-- The cause a wait on one marker is booked to (15 R416). -/
def State.markerCause (s : State) (o : Option MarkerEm) : Nat :=
  match o with
  | none => 4
  | some e => if e.scope = 3 then 2 else if s.emitterKind e = 2 then 7 else 4

/-! ### Views and pages -/

/-- Granules of a page (12 R338). -/
def pageGranules : Nat := 32

/-- The number of the latest committed view; before the first commit the all-ones number stands for the view the job began
with. -/
def Job.latest (j : Job) : Nat := j.lastView.getD counterMax

/-- A page belongs to a step-written tensor of the job. -/
def Job.stepPage (j : Job) (page : Nat) : Bool := j.tensors.any (fun t => t.stepWritten && pageIn t.base t.length page)

/-- A page is a hole: from the limit of the last cast-on, or made since (12 R346). -/
def State.isHole (s : State) (page : Nat) : Bool := decide (s.mem.limit ≤ page) || s.mem.holes.contains page

/-- The held view of a number. -/
def Job.held? (j : Job) (n : Nat) : Option HeldView := j.views.find? (·.number == n)

/-- The committed view of a number as overlays over the latest contents. -/
def Job.viewOverlays (j : Job) (n : Nat) : List Overlay :=
  if n = j.latest then [] else match j.held? n with
    | some v => [v.ov]
    | none => []

/-- The poisoned granules of the committed view of a number: those of the pages it keeps as they were when they were replaced, of its other
pages those of the latest contents (12 R342). -/
def Job.viewPoison (j : Job) (n : Nat) (latest : List Nat) : List Nat :=
  if n = j.latest then latest else match j.held? n with
    | some v => v.poison ++ latest.filter (fun g => !v.ov.pages.contains (g / pageGranules))
    | none => latest

/-- A page that a running course has written may be seen by another: one of a step-written tensor within the same step alone (03 R84). -/
def Job.showsTo (j : Job) (d c : Course) (page : Nat) : Bool :=
  !((d.inStep || d.implicitStep) && j.stepPage page) || (d.inStep && c.inStep && d.step == c.step)

/-- What a course reads: its own staging over its step's working view, or over the committed view it names (03 R84, R118).  A PANEL
marker shows the writes of its course to the panel before that course is published on every unit (03 R105). -/
def State.courseView (s : State) (c : Course) : View :=
  match s.job? c.job with
  | none => { ovs := [c.staging], base := s.mem.cells }
  | some j =>
    let shown := ((s.courses.filter (fun d => d.job == c.job && decide (d.id < c.id) && d.running && j.markers.any (fun e =>
      e.course == d.id && e.scope == 1 && !e.panels.isEmpty))).reverse).map (fun d => d.staging.part (j.showsTo d c))
    let under := shown ++ (if c.inStep then (match j.working with
        | some w => [w]
        | none => [])
      else j.viewOverlays (c.viewNo.getD j.latest))
    { ovs := c.staging :: under, base := s.mem.cells }

/-- What the host reads of one page through BAR2: the contents before the oldest retired write it may not see yet
(03 R109). -/
def State.hostOverlays (s : State) : List Overlay := s.mem.hostOld.map (·.old)

/-- The view BAR2 reads. -/
def State.hostView (s : State) : View := { ovs := s.hostOverlays, base := s.mem.cells }

/-- A swatch's replica may still read a page (13 R370). -/
def Swatch.readsPage (w : Swatch) (page : Nat) : Bool := w.phase == .chosen && w.reads.any (fun r => pageIn r.1 r.2 page)

/-- The swatches of a job hold the pages that are about to be replaced, where they read that version of them (13 R370). -/
def State.holdPages (s : State) (job : Word) (change : Nat) (reads : Swatch → Nat → Bool) (pages : List Nat) : State :=
  { s with swatches := s.swatches.map (fun w =>
      if w.job = job then
        { w with held := w.held ++ (pages.filter (fun p => w.readsPage p && reads w p && !w.held.any (·.1 == p))).map (fun p => (p, change)) }
      else w) }

/-- An older view is named by a queued or running course, a running SNAPSHOT_READ or a running CHECKPOINT (03 R118, 12 R359). -/
def State.viewInUse (s : State) (job : Word) (n : Nat) : Bool :=
  s.courses.any (fun c => c.job == job && c.live && c.viewNo == some n) ||
  s.snaps.any (fun x => x.tag.jobId == job && x.view == some n) ||
  s.stash.runs.any (fun r => r.job == job && !r.restore && (match r.image with
    | some i => i.viewStep.getD counterMax == n
    | none => false))

/-- The page versions that older views and swatches hold, each once: a view that only swatches name counts the pages they read (03 R118,
13 R370). -/
def State.heldPages (s : State) (j : Job) : List (Nat × Nat) :=
  let mine := s.swatches.filter (fun w => w.job == j.id && w.phase == .chosen)
  (j.views.flatMap (fun v => if s.viewInUse j.id v.number then v.kept
    else v.kept.filter (fun p => mine.any (fun w => w.view == some v.number && w.readsPage p.1))) ++ mine.flatMap (·.held)).dedup

/-- The pages of a job's staging pool in use: staging of its courses, the working view, the distinct page versions held by
older views and by swatches (03 R82, R83, R118; 13 R370). -/
def State.poolPages (s : State) (j : Job) : List Nat :=
  ((s.courses.filter (fun c => c.job == j.id && (c.running || c.implicitStep))).map (·.staging.pages)).flatten ++
  (match j.working with
   | some w => w.pages
   | none => []) ++
  (s.heldPages j).map (·.1)

/-- Free pages of a job's pool on one stack (03 R82, R85). -/
def State.poolFree (s : State) (j : Job) (k : Nat) : Nat :=
  j.pool.getD k 0 - ((s.poolPages j).filter (fun p => s.pageStack p == k)).length

/-- The pages, of some that a course wants, that the pool can give now, in their order (03 R85). -/
def State.poolGives (s : State) (j : Job) : List Nat → List Nat → List Nat
  | got, [] => got
  | got, p :: ps =>
    let k := s.pageStack p
    State.poolGives s j (if (got.filter (fun q => s.pageStack q == k)).length < s.poolFree j k then got ++ [p] else got) ps

/-- The pool can supply the pages of an overlay, each on its own stack (03 R82). -/
def State.poolServes (s : State) (j : Job) (o : Overlay) : Bool :=
  (List.range 12).all (fun k => decide ((o.pages.filter (fun p => s.pageStack p == k)).length ≤ s.poolFree j k))

/-- A view is in use, or a swatch still reads from it (03 R118, 13 R370). -/
def State.viewNamed (s : State) (job : Word) (n : Nat) : Bool :=
  s.viewInUse job n || s.swatches.any (fun w => w.job == job && w.phase == .chosen && w.view == some n)

/-- Release the older views nothing names any more (03 R118). -/
def State.sweepViews (s : State) (job : Word) : State :=
  s.updJob job (fun j => { j with views := j.views.filter (fun v => s.viewNamed job v.number) })

/-- Every older view keeps the pages that a change of the latest view is about to replace (03 R118). -/
def HeldView.keepPages (v : HeldView) (base : List Host.Cell) (poison pages : List Nat) (change : Nat) : HeldView :=
  let mine := pages.filter (fun p => !v.ov.pages.contains p)
  { v with ov := v.ov.keep base pages, kept := v.kept ++ mine.map (fun p => (p, change))
           poison := v.poison ++ poison.filter (fun g => mine.contains (g / pageGranules)) }

/-- Put an overlay's pages into the latest contents, older views and swatches keeping what it replaces (03 R83, R118; 13 R370). -/
def State.changeLatest (s : State) (job : Word) (o : Overlay) : State :=
  let j := s.job? job
  let s0 := s.holdPages job ((j.map (·.changes)).getD 0) (fun w _ => !w.inStep && j.all (fun j => w.view.getD j.latest == j.latest)) o.pages
  let s1 := s0.updJob job (fun j =>
    { j with changes := j.changes + 1, views := j.views.map (fun v => v.keepPages s.mem.cells s.mem.poison o.pages j.changes) })
  { s1 with mem := { s1.mem with cells := Memory.publish s.mem.cells o } }

/-- The latest view takes a new number; the one before it stays held while something names it (03 R118). -/
def State.newView (s : State) (job : Word) (n : Nat) : State :=
  s.updJob job (fun j =>
    let old := if s.viewNamed job j.latest then [HeldView.mk j.latest Overlay.empty [] []] else []
    { j with views := j.views ++ old, lastView := some n })

end Sys2Proof.Machine
end

