-- ==== Sys2Proof/Machine/Clock.lean ====
section
/-! DEFINITION. The passing of stitches (04 R120): every command first brings the counter to its own stitch, and each stitch of
each unit is booked to one cause (15 R416 to R418).  Log 1 says how time and commands meet. -/

namespace Sys2Proof.Machine

/-- One booking: a unit, a cause (255 while several markers are open, 15 R417), stitches, the course they belong to, the job a HOST_WAIT
is charged to, for a wait that a trace record may tell its object_kind (15 R427), and how far into the interval it begins. -/
structure Booking where
  unit : Nat
  cause : Nat
  n : Nat
  course : Option Nat
  job : Option Word
  wait : Option Nat
  start : Nat := 0

/-- The key that the waits of a course are kept by: cause and object_kind. -/
def waitKey (cause kind : Nat) : Nat := cause + 256 * kind

/-- The cause of a key. -/
def waitCause (key : Nat) : Nat := key % 256

/-- The object_kind of a key. -/
def waitKind (key : Nat) : Nat := key / 256

/-- The core clock of a unit's die in MHz (00 R4, 14 R404). -/
def State.clockOf (s : State) (u : Nat) : Nat :=
  if u < 72 || (decide (144 ≤ u) && decide (u < 148)) then s.pw.clockW
  else if u < 144 || (decide (148 ≤ u) && decide (u < 152)) then s.pw.clockE else 1300

/-- A cut has stopped the units: its stitch has come (13 R388, R389). -/
def State.cutStops (s : State) : Bool :=
  match s.cut with
  | some c => c.phase == .stopping || c.phase == .held || (c.phase == .pending && decide (c.stitch ≤ s.stitch))
  | none => false

/-- A launch is held whatever its own condition (15 R416 code 4): a bind-off cut, or a module that has stopped issuing courses; a
firmware handover holds no course that a sequencer has (01 R31, 14 R412). -/
def State.launchesStopped (s : State) : Bool := s.cutStops || s.dev.issuingStopped

/-- The launch point of a timed course has been reached (03 R101, 04 R142). -/
def State.pointReached (s : State) (c : Course) : Bool :=
  if c.launchKind < 2 then true else match c.launchStitch with
    | some t => decide (t ≤ s.stitch)
    | none => false

/-- A course binds step-written state: a step-written tensor, a managed tensor with its scale tensor, or a step-written structure
(03 R112, 08 R233, 09 R261). -/
def Course.bindsStep (c : Course) (j : Job) : Bool :=
  c.bindings.any (fun b => j.tensors.any (fun t => t.id == b.2 &&
    (t.stepWritten || t.kind == 3 && t.format == 0x02 || t.kind == 4 && t.format == 0x03))) ||
  j.structures.any (fun x => x.stepWritten && c.structs.contains x.handle)

/-- A course of a later step that binds step-written state waits for the commit before it (03 R112; log 116). -/
def State.commitHold (s : State) (c : Course) : Bool :=
  match s.job? c.job with
  | none => false
  | some j => c.inStep && (match j.committing with
      | some p => decide (p.number < c.step) && c.bindsStep j
      | none => false)

/-- A timed course on several panels, engines or links launches at one stitch (04 R143). -/
def Course.joint (c : Course) : Bool := decide (2 ≤ c.launchKind) && decide (1 < c.units.length)

/-- The units whose readiness has not been reported. -/
def Course.unready (c : Course) : List LUnit := c.units.filter (fun u => !c.ready.any (·.1 == u))

/-- The shared launch stitch, once every unit is ready and the point is bound (04 R143). -/
def Course.sharedStitch (c : Course) : Option Nat :=
  c.launchStitch.bind (fun l =>
    let last := (c.ready.map (·.2)).foldl max 0
    if !c.unready.isEmpty then none else if last < l then some l else some ((last + 128 + 63) / 64 * 64))

/-- What made the last unit of a joint launch late (04 R143). -/
def State.lateCause (s : State) (c : Course) : Nat :=
  match c.unready.flatMap (s.openMarkers c) with
  | m :: _ => s.markerCause m
  | [] => 4

/-- The clock of a unit runs (04 R135; 14 R394). -/
def State.awake (s : State) : LUnit → Bool
  | .panel p => s.pw.module == 0 && s.pw.panels.getD p 0 == 0
  | .engine e => s.pw.module == 0 && s.pw.engines.getD e 0 == 0
  | .link _ => s.pw.module == 0

/-- An earlier course still runs on a needle or an engine that a course needs. -/
def State.unitsBusy (s : State) (c : Course) (u : LUnit) : Bool :=
  match u with
  | .panel p => ((s.occupied c).filter (fun n => n / 12 == p)).any (fun n => (s.onNeedle n).isSome)
  | .engine _ => c.units.any (fun v => (s.onUnit v).isSome)
  | .link _ => false

/-- No cause of R416 but IDLE holds for a head whose markers are complete and whose point has come: an expired holdover holds it (04 R130), its
unit has yet to wake, or an earlier course runs on a unit it needs. -/
def State.headIdles (s : State) (u : LUnit) (c : Course) : Bool :=
  (decide (2 ≤ c.launchKind) && s.time.expired) || !s.awake u || s.unitsBusy c u

/-- The object_kind of the wait of a queue's head (15 R427, R440). -/
def State.headKind (s : State) (u : LUnit) (c : Course) : Nat :=
  if !(s.openMarkers c u).isEmpty then 0
  else if s.launchesStopped then 5
  else if s.commitHold c then 3
  else if c.gatherSince.isSome then 4
  else if c.joint && c.unready.any (fun v => !(s.openMarkers c v).isEmpty) then 0 else 5

/-- The cause that the wait of a queue's head is booked to (15 R416, R417); a wait that began on several markers stays one. -/
def State.headCause (s : State) (u : LUnit) (c : Course) : Nat :=
  if s.pw.launchHold || s.pw.thermalHold then 6
  else match s.openMarkers c u with
    | [m] => if c.waitAcc.any (fun e => waitCause e.key == 255 && (s.unitNumbers c u).contains e.unit) then 255 else s.markerCause m
    | _ :: _ => 255
    | [] => if s.launchesStopped || s.commitHold c || c.gatherSince.isSome then 4
            else if !s.pointReached c then 1
            else if c.joint then s.lateCause c else if s.headIdles u c then 1 else 4

/-- The step a HOST_WAIT of an empty queue is charged to: open, its STEP_COMMIT not accepted, and a course of it has run on
the unit itself (15 R416 code 5). -/
def State.hostWaits (s : State) (u : Nat) (q : LUnit) : Option Word :=
  (s.jobs.find? (fun j => match j.opened with
    | some st => st.commit.isNone && s.courses.any (fun c => c.job == j.id && c.inStep && c.step == st.number && c.launchedUnits.contains q &&
        (s.unitNumbers c q).contains u)
    | none => false)).map (·.id)

/-- The stitches of `n` that a unit waits for streamed operands: a needle as memory lets it, an engine where the working set of its
structures exceeds the caches (05 R165, 09 R288; 15 R416 code 3).  How many is a free value; the time of an ACCUMULATE is all ACTIVE
(07 R226). -/
def State.streamWait (s : State) (u n : Nat) (c : Course) : Nat :=
  let fits := match s.job? c.job with
    | some j => j.structures.all (fun x => x.fits || !c.structs.contains x.handle)
    | none => true
  if (u < 144 && !c.accumOnly) || (decide (144 ≤ u) && decide (u < 152) && !fits) then min n (Config.memoryStall u s.stitch n) else 0

/-- A running course of needles or engines needs a hot or retraining stack, where a tensor that it binds or a structure that it works on lies (12 R341, R348 item 2).  When
its last access is done is not told, so it is taken to need the stack until it retires (log 122). -/
def State.waitsForStack (s : State) (c : Course) : Bool :=
  s.mem.stackTab.any Stack.stopped && (match s.job? c.job with
    | some j => j.tensors.any (fun t => c.bindings.any (·.2 == t.id) && s.hotRange t.base t.length) ||
        j.structures.any (fun x => c.structs.contains x.handle && s.hotRange x.regionBase x.regionLength)
    | none => false)

/-- The stitches that go to THROTTLE of `n` running stitches of a unit, the first `before` of an interval left out: at clock f, the share
1 − f ÷ 1.3 GHz of each, parts of a stitch carried on (15 R416 code 6). -/
def State.throttleShare (s : State) (u before n : Nat) : Nat :=
  let d := 1300 - s.clockOf u
  let carry := s.cnt.carry.getD u 0
  (carry + (before + n) * d) / 1300 - (carry + before * d) / 1300

/-- The bookings of a unit that runs a course from `before` stitches into an interval on: the share of a stretched clock to THROTTLE, the rest to
MEM_WAIT (no staging page, a hot stack or one that retrains, 12 R341, R348, a frame not prefetched, 11 R335, or streamed operands), PEER_WAIT while
a link course awaits a frame and has none that it can send (11 R335), or ACTIVE (15 R416). -/
def State.runBookings (s : State) (u before n : Nat) (c : Course) : List Booking :=
  if n = 0 then []
  else
    let share := s.throttleShare u before n
    let cold := s.txq.any (fun f => f.cold && f.course == some c.id && f.link + 152 == u)
    let cause := if c.status = .waitPages || cold || (decide (u < 152) && s.waitsForStack c) then 3
      else if 152 ≤ u && 0 < c.awaiting && !c.canSend then 2 else 0
    let wait := if cause = 0 then s.streamWait u (n - share) c else 0
    [{ unit := u, cause := 6, n := share, course := some c.id, job := some c.job, wait := none },
     { unit := u, cause := 3, n := wait, course := some c.id, job := some c.job, wait := none },
     { unit := u, cause := cause, n := n - share - wait, course := some c.id, job := some c.job, start := before
       wait := if cause = 2 then some 1 else if c.status = .waitPages then some 2 else none }]

/-- The bookings of a unit that runs a swatch, a tiebreak or a test item. -/
def State.itemBookings (s : State) (u before n : Nat) : List Booking :=
  let share := s.throttleShare u before n
  [{ unit := u, cause := 6, n := share, course := none, job := none, wait := none },
   { unit := u, cause := 0, n := n - share, course := none, job := none, wait := none }]

/-- A course that the Hook holds for an empty queue waits for the Hook during a firmware handover (14 R412 step 5). -/
def State.handoverWait (s : State) (u : Nat) (q : LUnit) : Option Course :=
  if s.dev.fwActivating && (s.queue q).isEmpty then ((s.heldFor q).filterMap s.course?).find? (fun c => (s.unitNumbers c q).contains u) else none

/-- The bookings of a unit whose queue's head waits, or whose queue is empty. -/
def State.idleBookings (s : State) (u before n : Nat) (q : LUnit) (mine : Option Course) : List Booking :=
  if n = 0 then []
  else
    let idle : Booking := { unit := u, cause := 1, n := n, course := none, job := none, wait := none, start := before }
    match mine, s.headCourse q with
    | some c, some h =>
      let k := s.headCause q h
      [{ idle with cause := k, course := some c.id, job := some c.job, wait := if k = 1 ∨ k = 6 then none else some (s.headKind q h) }]
    | _, _ => match s.handoverWait u q, s.hostWaits u q with
      | some c, _ => [{ idle with cause := 4, course := some c.id, job := some c.job, wait := some 5 }]
      | none, some id => if (s.queue q).isEmpty then [{ idle with cause := 5, job := some id }] else [idle]
      | none, none => [idle]

/-- The stitches of an interval of `n` in which a needle still works on swatches; they come first and lengthen the course that runs there (13 R369). -/
def State.swatchPart (s : State) (u n : Nat) : Nat := if u < 144 then min n (s.needle u).swatchLeft else 0

/-- A test item runs on a unit that no course occupies. -/
def State.testing (s : State) (u : Nat) : Bool :=
  if u < 144 then (s.onNeedle u).isNone && (s.needle u).item.isSome
  else decide (u < 152) && (s.onUnit (.engine (u - 144))).isNone && ((s.engines.getD (u - 144) { up := true, item := none }).item).isSome

/-- The queue of a unit. -/
def queueOf (u : Nat) : LUnit := if u < 144 then .panel (u / 12) else if u < 152 then .engine (u - 144) else .link (u - 152)

/-- The course that runs on a unit. -/
def State.runsAt (s : State) (u : Nat) : Option Course := if u < 144 then s.onNeedle u else if u < 184 then s.onUnit (queueOf u) else none

/-- The stitches of an interval of `n` in which a unit runs a course, a swatch or a test item. -/
def State.runPart (s : State) (u n : Nat) : Nat := if (s.runsAt u).isSome || s.testing u then n else s.swatchPart u n

/-- The bookings of one unit over `n` stitches. -/
def State.unitBookings (s : State) (n u : Nat) : List Booking :=
  let w := s.swatchPart u n
  if u < 184 then
    (if w = 0 then [] else s.itemBookings u 0 w) ++
    match s.runsAt u with
    | some c => s.runBookings u w (n - w) c
    | none =>
      if s.testing u then (if n = w then [] else s.itemBookings u w (n - w))
      else s.idleBookings u w (n - w) (queueOf u)
        (if u < 144 then ((s.queue (queueOf u)).filterMap s.course?).find? (fun c => (s.occupied c).contains u) else s.headCourse (queueOf u))
  else [{ unit := u, cause := 1, n := n, course := none, job := none, wait := none }]

/-- Every unit's bookings over `n` stitches. -/
def State.bookings (s : State) (n : Nat) : List Booking :=
  ((List.range 200).flatMap (s.unitBookings n)).filter (fun b => b.n != 0 || b.wait.isSome)

/-- A course belongs to a step, explicit or implicit, so that its stitches wait in a shadow (15 R418). -/
def Course.shadowed (c : Course) : Bool := c.inStep || c.implicitStep

/-- A booking goes straight to the counters: it belongs to no course of a step and its cause is known. -/
def State.direct (s : State) (b : Booking) : Bool :=
  b.cause != 255 && (match b.course.bind s.course? with
    | some c => !c.shadowed
    | none => true)

/-- Add an amount to a list of amounts keyed by a pair. -/
def addKeyed (l : List (Nat × Nat × Nat)) (u k n : Nat) : List (Nat × Nat × Nat) :=
  if l.any (fun e => e.1 == u && e.2.1 == k) then l.map (fun e => if e.1 == u && e.2.1 == k then (u, k, e.2.2 + n) else e)
  else l ++ [(u, k, n)]

/-- The counter of a job's block that a cause is shown in (15 R423): codes 0 and 2 to 8 at 14 to 21. -/
def jobCauseIndex (k : Nat) : Nat := if k = 0 then 14 else 13 + k

/-- Add bookings to one unit's counters. -/
def bookRow (row : List Nat) (bs : List Booking) : List Nat :=
  bs.foldl (fun r b => r.modify b.cause (fun v => satAdd 64 v b.n)) row

/-- A unit rests in power state 1 or deeper (15 R421 counter 14). -/
def State.resting (s : State) (u : Nat) : Bool :=
  decide (3 ≤ s.pw.module) ||
  (if u < 144 then s.pw.panels.getD (u / 12) 0 != 0
   else if u < 152 then s.pw.engines.getD (u - 144) 0 != 0 else false)

/-- The unit counters after `n` stitches (15 R421): those of 12 and 13 are the stitches of swatches and test items that ACTIVE includes. -/
def State.bookUnits (s : State) (n : Nat) (bs : List Booking) : List (List Nat) :=
  s.cnt.units.zipIdx.map (fun p =>
    let row := bookRow p.1 (bs.filter (fun b => b.unit == p.2 && s.direct b))
    let w := s.swatchPart p.2 n
    let row2 := if w = 0 then row else row.modify 12 (fun v => satAdd 64 v (w - s.throttleShare p.2 0 w))
    let row3 := if s.testing p.2 then row2.modify 13 (fun v => satAdd 64 v (n - w - s.throttleShare p.2 w (n - w))) else row2
    if s.resting p.2 then row3.modify 14 (fun v => satAdd 64 v n) else row3)

/-- What each unit carries on of a stitch for THROTTLE after `n` stitches (15 R416). -/
def State.carryOn (s : State) (n : Nat) : List Nat :=
  s.cnt.carry.zipIdx.map (fun p => (p.1 + s.runPart p.2 n * (1300 - s.clockOf p.2)) % 1300)

/-- A wait of a unit goes on, or one begins, over the interval from `now` to `until0` (15 R427). -/
def addSpan (now until0 : Nat) (l : List WaitSpan) (b : Booking) (key : Nat) : List WaitSpan :=
  let mine := fun (e : WaitSpan) => e.unit == b.unit && e.key == key && e.last + 1 == now + b.start
  if l.any mine then l.map (fun e => if mine e then { e with last := until0 - 1, n := e.n + b.n } else e)
  else l ++ [{ unit := b.unit, key := key, first := now + b.start, last := until0 - 1, n := b.n }]

/-- The shadow and the waits of a course after the bookings of an interval (15 R417, R418). -/
def bookCourse (now until0 : Nat) (bs : List Booking) (c : Course) : Course :=
  let mine := bs.filter (fun b => b.course == some c.id)
  let shadow := if c.shadowed then
      (mine.filter (fun b => b.cause != 255)).foldl (fun l b => addKeyed l b.unit b.cause b.n) c.shadow
    else c.shadow
  { c with shadow := shadow,
           waitAcc := mine.foldl (fun l b => match b.wait with
             | some k => addSpan now until0 l b (waitKey b.cause k)
             | none => l) c.waitAcc }

/-- The counters of a job after the bookings (15 R423). -/
def State.bookJob (s : State) (bs : List Booking) (j : Job) : Job :=
  let mine := bs.filter (fun b => b.job == some j.id && s.direct b)
  { j with counters := mine.foldl (fun cs b =>
      if b.course.isNone then cs.modify 22 (fun v => satAdd 64 v b.n)
      else if b.cause = 1 then cs else cs.modify (jobCauseIndex b.cause) (fun v => satAdd 64 v b.n)) j.counters }

/-- The HOST_WAITs that go on, by unit and job (15 R427). -/
def bookHost (acc : List (Nat × Word × Nat)) (bs : List Booking) : List (Nat × Word × Nat) :=
  (bs.filter (fun b => b.cause == 5)).foldl (fun l b => match b.job with
    | some id => (b.unit, id, ((l.find? (fun e => e.1 == b.unit && e.2.1 == id)).map (·.2.2)).getD 0 + b.n) ::
        l.filter (fun e => !(e.1 == b.unit && e.2.1 == id))
    | none => l) acc

/-! ### Bookings (15 R417, R418, R423) -/

/-- Book stitches of a unit to a cause, and to the job's counter of that cause. -/
def State.bookTo (s : State) (unit cause n : Nat) (job : Word) : State :=
  let s1 := s.countUnit unit cause n
  if cause = 1 then s1 else s1.countJob job (jobCauseIndex cause) n

/-! ### Waits (15 R417, R418, R427) -/

/-- The step a record of a course names: all ones outside a step. -/
def Course.stepField (c : Course) : Nat := if c.inStep then c.step else counterMax

/-- The source whose event completed an emission at a stitch: the greatest among the units that completed then, this module's last one and
those that the reports of other members name (00 R7, 15 R427). -/
def State.markSource (s : State) (e : MarkerEm) (t : Nat) : Nat :=
  ((e.reports.filter (·.stitch == t)).map (fun r => r.member.toNat * 256 + r.unit)).foldl max
    (if e.deviceAt.getD t = t then s.source e.lastUnit else 0)

/-- When an emission completed for a unit: a PANEL marker panel by panel (03 R105). -/
def MarkerEm.doneAt (e : MarkerEm) (u : LUnit) : Nat :=
  match e.status, u with
  | _, .panel p => (e.panels.lookup p).getD (match e.status with
    | .complete t => t
    | _ => 0)
  | .complete t, _ => t
  | _, _ => 0

/-- The emission among those a course names that completed last for a unit, by stitch and then by source (00 R7). -/
def State.lastMark (s : State) (c : Course) (u : LUnit) : Option MarkerEm :=
  let es := match s.job? c.job with
    | some j => c.after.filterMap (fun (a : Word × Nat) => j.named a.1 a.2)
    | none => []
  es.foldl (fun m e => match m with
    | some b => if b.doneAt u < e.doneAt u ∨ (b.doneAt u = e.doneAt u ∧ s.markSource b (b.doneAt u) < s.markSource e (e.doneAt u)) then some e else m
    | none => some e) none

/-- The object of a wait on markers that has ended: source and identifier of the one that completed last. -/
def State.markObject (s : State) (c : Course) (u : LUnit) : Nat × Nat :=
  match s.lastMark c u with
  | some e => (s.markSource e (e.doneAt u), e.marker.toNat)
  | none => (0xFFFFFFFF, 0)

/-- The port that a wait on other members is charged to: the one through which the last awaited report arrived, none where no report came
(15 R417). -/
def State.waitPort (s : State) (e : MarkerEm) : Option Nat := (e.reports.getLast?).bind (fun r => (s.link r.link).port)

/-- Count PEER_WAIT stitches at a port (15 R420). -/
def State.countPort (s : State) (p n : Nat) : State :=
  { s with cnt := { s.cnt with ports := s.cnt.ports.modify p (fun v => satAdd 64 v n) } }

/-- Charge a PEER_WAIT of a course to a port, if there is one; that of a course of a step accrues in its shadow (15 R417, R418). -/
def State.chargePort (s : State) (c : Course) (port : Option Nat) (n : Nat) : State :=
  match port with
  | none => s
  | some p =>
    if c.shadowed then s.updCourse c.id (fun c => { c with shadowPorts := c.shadowPorts ++ [(p, n)] })
    else s.countPort p n

/-- A wait of a course on a unit is over: one of 1,000 stitches or more, or for a staging page, is traced (15 R427). -/
def State.traceWait (s : State) (c : Course) (unit first last cause kind port : Nat) (object : Nat × Nat) : State :=
  if last + 1 - first < 1000 ∧ cause ≠ 3 then s
  else s.traceRec (some c.job) 0x01 unit first true
    (waitPayload cause kind port c.job.toNat last object.1 object.2 0 c.patternTag.toNat c.stepField)

/-- One wait of a unit that is over: a wait on several markers is booked now, a PEER_WAIT is charged, a long one traced. -/
def State.endWait (s : State) (c : Course) (e : WaitSpan) : State :=
  let mark := if waitKind e.key = 0 then s.lastMark c (queueOf e.unit) else none
  let several := waitCause e.key == 255
  let cause := if several then (mark.map (fun m => s.markerCause (some m))).getD 4 else waitCause e.key
  let s1 := if !several then s
    else if c.shadowed then s.updCourse c.id (fun c => { c with shadow := addKeyed c.shadow e.unit cause e.n })
    else s.bookTo e.unit cause e.n c.job
  let port := if cause = 2 then mark.bind s.waitPort else none
  let o := if waitKind e.key = 0 then s.markObject c (queueOf e.unit) else (0xFFFFFFFF, 0)
  (s1.chargePort c port e.n).traceWait c e.unit e.first e.last cause (waitKind e.key) (port.getD 0xFF) o

/-- A wait that goes on in the interval to come. -/
def WaitSpan.goesOn (e : WaitSpan) (id now : Nat) (bs : List Booking) : Bool :=
  e.last + 1 == now && bs.any (fun b => b.course == some id && b.unit == e.unit && b.start == 0 && b.wait.map (waitKey b.cause) == some e.key)

/-- The waits that ended just now, but those on several markers, which the launch ends, and those for a frame, which its arrival does. -/
def State.endSpans (s : State) (bs : List Booking) : State :=
  s.courses.foldl (fun (x : State) c =>
    let done := c.waitAcc.filter (fun e => waitCause e.key != 255 && e.key != waitKey 2 1 && !e.goesOn c.id s.stitch bs)
    if done.isEmpty then x
    else (done.foldl (fun y e => y.endWait c e) x).updCourse c.id (fun d => { d with waitAcc := d.waitAcc.filter (fun e => !done.contains e) })) s

/-! ### The passing of stitches -/

/-- A HOST_WAIT of 1,000 stitches or more that has ended just now is traced; no object and no waiting course belong to it, so those
fields are free values. -/
def State.hostWait (s : State) (e : Nat × Word × Nat) : State :=
  let a := s.free
  let b := a.2.free
  let step := ((s.job? e.2.1).bind (fun j => (j.opened.or j.committing).map (·.number))).getD counterMax
  b.2.traceRec (some e.2.1) 0x01 e.1 (s.stitch - e.2.2) true
    (waitPayload 5 (a.1.toNat % 6) 0xFF e.2.1.toNat (s.stitch - 1) 0xFFFFFFFF 0 0 b.1.toNat step)

/-- The HOST_WAITs of a predicate on unit and job are over (15 R427). -/
def State.endHostWaits (s : State) (ended : Nat → Word → Bool) : State :=
  let done := s.trace.hostAcc.filter (fun e => ended e.1 e.2.1 && decide (1000 ≤ e.2.2))
  done.foldl State.hostWait { s with trace := { s.trace with hostAcc := s.trace.hostAcc.filter (fun e => !ended e.1 e.2.1) } }

/-- Book `n` stitches to the causes in force (15 R416 to R418, R423). -/
def State.book (s : State) (n : Nat) (bs : List Booking) : State :=
  { s with
    cnt := { s.cnt with units := s.bookUnits n bs, carry := s.carryOn n }
    courses := s.courses.map (bookCourse s.stitch (s.stitch + n) bs)
    jobs := s.jobs.map (s.bookJob bs)
    trace := { s.trace with hostAcc := bookHost s.trace.hostAcc bs } }

/-- `n` stitches pass. -/
def State.elapse (s0 : State) (n : Nat) : State :=
  let bs := s0.bookings n
  let s := (s0.endSpans bs).endHostWaits (fun u id => !bs.any (fun b => b.cause == 5 && b.unit == u && b.job == some id))
  { s.book n bs with
    stitch := s.stitch + n
    needles := s.needles.map (fun x => if x.swatchLeft = 0 then x else { x with swatchLeft := x.swatchLeft - n })
    pw :=
      let p := { s.pw with cyclesW := s.pw.cyclesW + n * s.pw.clockW, cyclesE := s.pw.cyclesE + n * s.pw.clockE }
      if s.pw.clockW < 1300 || s.pw.clockE < 1300 then { p with throttle := satAdd 64 s.pw.throttle n, throttleAt := s.stitch + n } else p
    mem := { s.mem with stackTab := s.mem.stackTab.map (fun k => if 4 ≤ k.step then { k with holdStitches := k.holdStitches + n } else k) } }

/-- The counter stands until the time `t`: it counts while it is released and the module has power (04 R120, 14 R405). -/
def State.advance (s : State) (t : Stitch) : State :=
  if s.counting && s.up && decide (s.stitch < t) then s.elapse (t - s.stitch) else s

/-- A command's common frame: time passes to its stitch, and a module without power or lost does nothing (13 R392). -/
def State.act (s : State) (t : Stitch) (f : State → State) : Host.Outcome State Fault Refusal :=
  let s' := s.advance t
  .next (if s'.up then f s' else s')

/-- A host read of BAR0 or BAR2 of `n` bytes: a lost module answers with all ones (13 R392). -/
def State.actRead (s : State) (t : Stitch) (n : Nat) (f : State → State) : Host.Outcome State Fault Refusal :=
  let s' := s.advance t
  .next (if s'.up then f s' else if s'.stage.lost then s'.emit (.reply (List.replicate n 0xFF)) else s')

end Sys2Proof.Machine
end

