-- ==== Sys2Proof/Machine/Operands.lean ====
section
/-! DEFINITION. The operand forms of host commands: the submission entries of both mailbox revisions (02 R63, R66), where each
command is accepted (02 R68), the common checks, and the frame in which the Hook takes a command (02 R58; log 2). -/

namespace Sys2Proof.Machine

/-- A host command taken by the Hook: its completion tag, its entry, its payload as host memory answered. -/
structure Cmd where
  tag : CmdTag
  entry : List Byte
  payloadAddr : Nat
  payloadLen : Nat
  payload : Option (List Byte)
  stashBad : Bool := false

/-- A field of the entry (02 R63). -/
def Cmd.op (c : Cmd) (off n : Nat) : Nat := field c.entry off n

/-- The operand word of a revision-1 entry (02 R66). -/
def Cmd.operand1 (c : Cmd) : Nat := field c.entry 20 4

/-- The payload bytes that payload_len covers. -/
def Cmd.data (c : Cmd) : List Byte := (c.payload.getD []).take c.payloadLen

/-- The command came on a revision-1 ring. -/
def Cmd.rev1 (c : Cmd) : Bool := c.tag.rev == 1

/-- Bytes of the entry's operands are zero: those the command reserves (00 R11). -/
def Cmd.zero (c : Cmd) (off n : Nat) : Bool := zeroBytes c.entry off n

/-- The opcode table: revision-2 opcode, revision-1 opcode, accepted on the admin mailbox, accepted on the rings
(02 R68). -/
def opcodeTable : List (Nat × Option Nat × Bool × Bool) :=
  [(0x0001, some 0x01, true, true), (0x0002, none, true, false), (0x0003, none, true, false), (0x0004, none, true, false),
   (0x0010, none, true, false), (0x0011, none, true, false), (0x0012, none, true, false), (0x0013, none, true, false),
   (0x0020, some 0x04, false, true), (0x0021, some 0x05, false, true), (0x0022, some 0x10, false, true),
   (0x0023, some 0x11, false, true), (0x0024, some 0x12, false, true), (0x0028, none, false, true),
   (0x0029, none, false, true), (0x002A, some 0x14, false, true), (0x0030, none, false, true), (0x0031, none, false, true),
   (0x0040, none, false, true), (0x0041, none, false, true), (0x0042, none, false, true), (0x0050, some 0x20, false, true),
   (0x0051, some 0x21, false, true), (0x0060, some 0x30, true, true), (0x0061, some 0x31, true, true),
   (0x0062, some 0x32, true, true)]

/-- The revision an entry is written in: always 2 on the admin mailbox (02 R53). -/
def State.srcRev (s : State) : Src → Nat
  | .admin => 2
  | .ring r => (s.ring r).revision

/-- The opcode of an entry (02 R63, R66). -/
def entryOpcode (rev : Nat) (e : List Byte) : Nat := if rev = 2 then field e 0 2 else field e 0 1

/-- The fence flag of an entry; revision 1 has none (02 R67). -/
def entryFence (rev : Nat) (e : List Byte) : Bool := rev == 2 && bitOf (field e 2 2) 1

/-- On a revision-1 ring the opcodes of STEP_BEGIN, STEP_COMMIT and the solver commands name commands that revision 1 lacks; those of the other
revision-2 commands name revision-1 commands or none (01 R37; 02 R67, R68; log 131). -/
def lacksRevision (src : Src) (rev op : Nat) : Bool := rev == 1 && src != .admin && [0x28, 0x29, 0x40, 0x41, 0x42].contains op

/-- The command table row of an opcode where it was sent, or none when it is unknown there (02 R68). -/
def opcodeRow (src : Src) (rev op : Nat) : Option Nat :=
  (opcodeTable.find? (fun r => (if rev = 2 then r.1 == op else r.2.1 == some op) && (match src with
    | .admin => r.2.2.1
    | .ring _ => r.2.2.2))).map (·.1)

/-- The entry the Hook examines next at a source: the latched admin command, or the first fetched entry of a ring whose
previous command is accepted, a fenced one only when every earlier completion of the ring is written (02 R58); no ring entry while an
admin command is pending (02 R54); none at all while a firmware handover runs (14 R412, R414). -/
def State.headEntry (s : State) (src : Src) : Option Fetched :=
  if s.dev.fwActivating then none
  else match src with
  | .admin => s.admin.latched.map (fun e => { entry := e, sqHead := Config.adminSqHead })
  | .ring r =>
    let g := s.ring r
    if s.admin.latched.isSome || g.waiting.isSome then none
    else match g.fetched with
      | [] => none
      | f :: _ => if entryFence g.revision f.entry && g.outstanding != 0 then none else some f

/-- The Hook takes the entry: it leaves the queue of fetched entries and its completion is outstanding. -/
def State.pop (s : State) (src : Src) : State :=
  match src with
  | .admin => { s with admin := { s.admin with latched := none } }
  | .ring r => s.updRing r (fun g => { g with fetched := g.fetched.tail, outstanding := g.outstanding + 1 })

/-- The command an entry stands for (02 R63, R66). -/
def State.cmd (s : State) (src : Src) (io : HostIo) (f : Fetched) : Cmd :=
  let rev := s.srcRev src
  let e := f.entry
  if rev = 2 then
    { tag := { src := src, rev := 2, opcode := field e 0 2, commandId := BitVec.ofNat 32 (field e 4 4),
               jobId := BitVec.ofNat 32 (field e 8 4), intr := bitOf (field e 2 2) 0, sqHead := f.sqHead,
               resultAddr := BitVec.ofNat 64 (field e 32 8), resultLen := field e 28 4, cplFault := io.cplFault,
               epoch := s.dev.epoch }
      entry := e, payloadAddr := field e 16 8, payloadLen := field e 24 4, payload := io.payload, stashBad := io.stashBad }
  else
    { tag := { src := src, rev := 1, opcode := field e 0 1, commandId := BitVec.ofNat 32 (field e 2 2),
               jobId := BitVec.ofNat 32 (field e 4 4), intr := bitOf (field e 1 1) 0, sqHead := f.sqHead,
               resultAddr := BitVec.ofNat 64 (field e 24 8), resultLen := 0, cplFault := io.cplFault, epoch := s.dev.epoch }
      entry := e, payloadAddr := field e 8 8, payloadLen := field e 16 4, payload := io.payload, stashBad := io.stashBad }

/-- The layout of the entry breaks R63, R66 or R11: a reserved flag or field, an address off its 64-byte boundary.  DESIGN CHOICE (log 121):
the layout of revision 1 states no alignment of result_addr; it is held to that of revision 2. -/
def Cmd.badLayout (c : Cmd) : Bool :=
  (if c.rev1 then decide (2 ≤ c.op 1 1) else decide (4 ≤ c.op 2 2) || !c.zero 12 4) ||
  c.payloadAddr % 64 != 0 || c.tag.resultAddr.toNat % 64 != 0

/-- The command needs a job and names none (02 R63). -/
def Cmd.noJob (c : Cmd) : Bool := c.tag.jobId == 0

/-- The payload is not there, could not be read, or is shorter than its layout needs (02 R63). -/
def Cmd.badPayload (c : Cmd) (need : Nat) : Bool :=
  c.payloadAddr == 0 || c.payload.isNone || decide (c.payloadLen < need)

/-- After a stack has left service, every command of an open job but JOB_CLOSE, IDENTIFY, COUNTERS_READ and TRACE_CONTROL
completes with DEVICE_FAULT (12 R341). -/
def State.jobFault (s : State) (t : CmdTag) (op : Nat) : Bool :=
  s.dev.stackLost && (s.job? t.jobId).isSome && !([0x0021, 0x0001, 0x0061, 0x0060].contains op)

/-- The frame of every host command: time passes; the command is taken only when the entry at the head of its source is
this command where it is accepted; in recovery only the commands of 14 R407 are served. -/
def State.host (s : State) (t : Stitch) (src : Src) (io : HostIo) (op : Nat) (recovery : Bool) (h : State → Cmd → State) :
    Host.Outcome State Fault Refusal :=
  s.act t (fun s => match s.headEntry src with
    | none => s
    | some f =>
      if opcodeRow src (s.srcRev src) (entryOpcode (s.srcRev src) f.entry) == some op then
        let c := s.cmd src io f
        let s1 := s.pop src
        if (s.dev.castOnPhase = 0xFE && !recovery) || s.jobFault c.tag op then s1.finish c.tag [stDeviceFault] 0 else h s1 c
      else s)

/-- UNKNOWN_OPCODE: the head entry's opcode is not in the table or is not accepted where it was sent; the command completes
with BAD_OPCODE (02 R68), in recovery with DEVICE_FAULT (14 R407). -/
def execUnknownOpcode (t : Stitch) (src : Src) (io : HostIo) (s : State) : Host.Outcome State Fault Refusal :=
  s.act t (fun s => match s.headEntry src with
    | none => s
    | some f =>
      if (opcodeRow src (s.srcRev src) (entryOpcode (s.srcRev src) f.entry)).isNone then
        (s.pop src).finish (s.cmd src io f).tag [if s.dev.castOnPhase = 0xFE then stDeviceFault
          else if lacksRevision src (s.srcRev src) (entryOpcode (s.srcRev src) f.entry) then stWrongRevision else stBadOpcode] 0
      else s)

end Sys2Proof.Machine
end

