-- ==== Sys2Proof/Machine/Bar2.lean ====
section
/-! DEFINITION. Memory events (12 R350), poison (12 R342, R343), and the BAR2 window (02 R47 to R49; 03 R85, R109, R110). -/

namespace Sys2Proof.Machine

/-! ### Events, poison, ranges -/

/-- Bytes of a granule (12 R342). -/
def granuleBytes : Nat := 64

/-- A region of a structure holds an address (09 R257). -/
def Structure.holds (x : Structure) (a : Nat) : Bool := decide (x.regionBase ≤ a) && decide (a < x.regionBase + x.regionLength)

/-- A job's staging pool holds an address (03 R85). -/
def Job.poolHolds (j : Job) (a : Nat) : Bool := decide (j.stagingBase ≤ a) && decide (a < j.stagingBase + j.stagingLength)

/-- A tensor holds an address. -/
def Tensor.holds (t : Tensor) (a : Nat) : Bool := decide (t.base ≤ a) && decide (a < t.base + t.length)

/-- The job whose tensor, pool or structure holds an address (12 R350). -/
def State.holderOf (s : State) (a : Nat) : Option Job :=
  s.jobs.find? (fun j => j.poolHolds a || j.tensors.any (·.holds a) || j.structures.any (·.holds a))

/-- Severity of a memory event's error record (13 R386). -/
def memEventSev (kind : Nat) : Nat :=
  if kind = 3 then sevRecoverable else if kind = 7 then sevFatal else if kind = 6 then sevInformational else sevCorrected

/-- The 32 bytes of a memory event (12 R350). -/
def MemEvent.bytes (e : MemEvent) : List Byte :=
  record 32 [(0, 8, e.stitch), (8, 8, e.device), (16, 8, e.hole), (24, 4, e.job.toNat), (28, 1, e.kind), (29, 1, e.stack), (30, 1, e.detail)]

/-- Write a memory event: the newest 64 are kept, and an error record of class 5 goes with it (12 R349, R350; 13 R386). -/
def State.memEvent (s : State) (kind stack device hole detail : Nat) : State :=
  let job := ((if kind = 6 ∨ kind = 7 ∨ kind = 5 then none else s.holderOf device).map (·.id)).getD 0
  let e : MemEvent := { stitch := s.stitch, device := device, hole := hole, job := job, kind := kind, stack := stack, detail := detail }
  let evs := s.mem.events ++ [e]
  ({ s with mem := { s.mem with events := evs.drop (evs.length - 64) } }).cper
    { cls := 5, sev := memEventSev kind, unit := 188 + stack, job := job.toNat, detail := e.bytes, page := some device }

/-- Granules of the latest contents become poisoned; one event names the page (12 R342, R350). -/
def State.poisonGranule (s : State) (a : Nat) : State :=
  let g := a / granuleBytes
  if s.mem.poison.contains g then s
  else ({ s with mem := { s.mem with poison := g :: s.mem.poison } }).memEvent 3 (s.homeStack (pageOf a)) (pageOf a * pageBytes) 0 1

/-- A write that covers a whole granule clears its poison, with an event (12 R343). -/
def State.clearPoison (s : State) (a n : Nat) : State :=
  let covered := s.mem.poison.filter (fun g => decide (a ≤ g * granuleBytes) && decide ((g + 1) * granuleBytes ≤ a + n))
  covered.foldl (fun s g =>
      ({ s with mem := { s.mem with poison := s.mem.poison.filter (· != g) } }).memEvent 4 (s.homeStack (pageOf (g * granuleBytes)))
        (pageOf (g * granuleBytes) * pageBytes) 0 1) s

/-- The page of an address lies on a stack that has left service, all of whose granules count as poisoned (12 R341). -/
def State.onLostStack (s : State) (a : Nat) : Bool :=
  s.dev.stackLost && (s.mem.stackTab.getD (s.homeStack (pageOf a)) Stack.reset).state == 2

/-- A granule of the latest contents is poisoned. -/
def State.poisonedAt (s : State) (a : Nat) : Bool := s.mem.poison.contains (a / granuleBytes) || s.onLostStack a

/-! ### The window -/

/-- An address BAR2 answers with all ones: at or above 576 GiB, in a hole, a staging pool or a structure region (02 R47,
03 R85, 09 R257, 12 R346). -/
def State.barred (s : State) (a : Nat) : Bool :=
  decide (deviceBytes ≤ a) || s.isHole (pageOf a) || s.jobs.any (fun j => j.poolHolds a || j.structures.any (·.holds a))

/-- An access touches a stack of which something holds. -/
def State.touches (s : State) (p : Stack → Bool) (a n : Nat) : Bool :=
  (List.range (n / pageBytes + 2)).any (fun i =>
    let q := pageOf a + i
    decide (q * pageBytes < a + n) && p (s.mem.stackTab.getD (s.homeStack q) Stack.reset))

/-- An access touches a stack in self-refresh (12 R347 step 5). -/
def State.coldStack (s : State) (a n : Nat) : Bool := s.touches (fun k => k.step == 5) a n

/-- A BAR2 access waits: for a stack at step 5 (12 R348) or one that retrains (12 R341), or for memory that leaves self-refresh (14 R395). -/
def State.bar2Holds (s : State) (a n : Nat) : Bool := s.pw.module == 3 || s.touches (fun k => k.step == 5 || k.state == 1) a n

/-- A wake event starts the module's exit from Standby or Hibernate; during the entry of Hibernate it abandons the entry, and a
partly written image is discarded (14 R395, R400). -/
def State.wakeModule (s : State) : State :=
  if s.pw.module != 0 && !s.pw.exits.any (·.1 == .module) then
    let entering := s.pw.module == 3 && s.pw.transition == 1
    { s with pw := { s.pw with exits := s.pw.exits ++ [(.module, s.stitch)], transition := if entering then 3 else 2 }
             stash := { s.stash with hibernate := if entering then none else s.stash.hibernate } }
  else s

/-- The runs of an address range by whether their granules are poisoned: each ends at a boundary between a poisoned and a
clean granule (12 R342). -/
def poisonRuns (bad : Nat → Bool) : Nat → Nat → List (Nat × Nat × Bool)
  | 0, _ => []
  | n + 1, a =>
    match poisonRuns bad n (a + 1) with
    | (b, k, p) :: rest => if bad a = p then (a, k + 1, p) :: rest else (a, 1, bad a) :: (b, k, p) :: rest
    | [] => [(a, 1, bad a)]

/-- One completion of a BAR2 read. -/
def State.bar2Reply (s : State) (run : Nat × Nat × Bool) : Emission :=
  if run.2.2 then .poisonedReply (List.replicate run.2.1 0xFF)
  else .reply ((List.range run.2.1).map (fun i => if s.barred (run.1 + i) then 0xFF else s.hostView.read (run.1 + i)))

/-- A read is served: the committed view, all ones where R47 and R85 say so, poisoned completions apart (12 R342). -/
def State.bar2Serve (s : State) (a len : Nat) : State :=
  let bad := fun x => !s.barred x && s.poisonedAt x
  let runs := poisonRuns bad len a
  let granules := ((List.range len).filter (fun i => bad (a + i) && ((a + i) % granuleBytes == 0 || i == 0))).length
  let s1 := if (List.range len).any (fun i => s.barred (a + i)) then s.count 0 1 else s
  let s2 := if granules = 0 then s1 else s1.count 9 granules
  runs.foldl (fun x r => x.emit (s.bar2Reply r)) s2

/-- An access that cannot be served yet waits, behind those that wait already. -/
def State.bar2Later (s : State) (a len : Nat) (data : Option (List Byte)) : State :=
  { s with bar2Wait := s.bar2Wait ++ [{ since := s.stitch, addr := a, len := len, data := data }] }

/-- BAR2_READ: in Hibernate all ones at once, counted, and the exit starts (14 R395); from Standby the read waits for memory, and one to a stack
in self-refresh or retraining for the stack (12 R341, R348). -/
def State.bar2Read (s : State) (off len : Nat) : State :=
  let a := s.dev.bar2Base + off
  if s.pw.module = 4 then ((s.emit (.reply (List.replicate len 0xFF))).count 21 1).wakeModule
  else if s.bar2Holds a len then s.wakeModule.bar2Later a len none
  else s.wakeModule.bar2Serve a len

def execBar2Read (t : Stitch) (off len : Nat) (s : State) : Host.Outcome State Fault Refusal := s.actRead t len (·.bar2Read off len)

/-- A BAR2 write to a byte of a step-written tensor is dropped: it is not host_writable, a step of the job is open or
committing, or a view older than the latest is held (03 R110). -/
def State.writeDropped (s : State) (a : Nat) : Bool :=
  s.jobs.any (fun j => j.tensors.any (fun t => t.stepWritten && t.holds a && (!t.hostWritable || j.opened.isSome ||
    j.committing.isSome || !j.views.isEmpty)))

/-- What a host write leaves of unseen writes: the older page holds the new byte, and no unseen byte comes to light over it. -/
def Unseen.hostWrote (e : Unseen) (a : Nat) (b : Byte) : Unseen :=
  { e with old := if e.old.pages.contains (pageOf a) then { e.old with cells := Memory.write e.old.cells a b } else e.old
           wrote := e.wrote.filter (fun x => x.1 != a) }

/-- Store one byte where the host and the courses read it: in the latest contents, and in the older page contents that the
host still reads (03 R109). -/
def State.hostStore (s : State) (a : Nat) (b : Byte) : State :=
  { s with mem := { s.mem with cells := Memory.write s.mem.cells a b, hostOld := s.mem.hostOld.map (fun e => e.hostWrote a b) } }

/-- Store the bytes of a host write that are neither barred nor dropped. -/
def State.hostStoreAll (s : State) (keep : Nat → Bool) : Nat → List Byte → State
  | _, [] => s
  | a, b :: bs => State.hostStoreAll (if keep a then s.hostStore a b else s) keep (a + 1) bs

/-- The trace rings whose read_count field a write covers, in part or whole (15 R425). -/
def State.ringsAt (s : State) (a n : Nat) : List (Option Word × TraceRing) :=
  ((s.trace.moduleRing.map (fun r => (none, r))).toList ++
    s.jobs.filterMap (fun (j : Job) => j.ring.map (fun r => (some j.id, r)))).filter
    (fun e => decide (a < e.2.base + 40) && decide (e.2.base + 32 < a + n))

/-- A byte of some rings' read_count fields. -/
def inReadCount (rings : List (Option Word × TraceRing)) (a : Nat) : Bool :=
  rings.any (fun e => decide (e.2.base + 32 ≤ a) && decide (a < e.2.base + 40))

/-- What a write makes of a read_count field: the bytes it covers, the others as they stand. -/
def TraceRing.written (r : TraceRing) (a : Nat) (data : List Byte) : Nat :=
  leVal ((List.range 8).map (fun i =>
    let x := r.base + 32 + i
    if a ≤ x then data.getD (x - a) ((le 8 r.readCount).getD i 0) else (le 8 r.readCount).getD i 0))

/-- The host consumes trace records: a read_count below the previous one or above write_count is ignored and counted; one that is higher frees
slots (15 R425, R430). -/
def State.consumeTrace (s : State) (job : Option Word) (r : TraceRing) (v : Nat) : State :=
  if v < r.readCount ∨ r.writeCount < v then s.count 1 1
  else if v = r.readCount then s
  else
    let s1 := s.setTraceRing job (some { r with readCount := v })
    ({ s1 with mem := { s1.mem with cells := Memory.writeBytes s1.mem.cells (r.base + 32) (le 8 v) } }).traceFreed job

/-- The poison of the granules that a write covers wholly with bytes that it stores is cleared (12 R343). -/
def State.clearStored (s : State) (keep : Nat → Bool) (a n : Nat) : State :=
  (s.mem.poison.filter (fun g => decide (a ≤ g * granuleBytes) && decide ((g + 1) * granuleBytes ≤ a + n) &&
    (List.range granuleBytes).all (fun i => keep (g * granuleBytes + i)))).foldl (fun x g => x.clearPoison (g * granuleBytes) granuleBytes) s

/-- A write is served: dropped and counted where R47, R85 and R110 say so; otherwise stored in the committed or free contents, whole granules
losing their poison; what it writes of a ring's read_count frees slots (15 R425). -/
def State.bar2Store (s : State) (a : Nat) (data : List Byte) : State :=
  let addrs := (List.range data.length).map (a + ·)
  let rings := s.ringsAt a data.length
  let field := inReadCount rings
  let s1 := if addrs.any (fun x => !field x && s.barred x) then s.count 0 1 else s
  let s2 := if addrs.any (fun x => !field x && !s.barred x && s.writeDropped x) then s1.count 1 1 else s1
  let keep := fun x => !field x && !s.barred x && !s.writeDropped x
  let s3 := (s2.hostStoreAll keep a data).clearStored keep a data.length
  rings.foldl (fun x e => x.consumeTrace e.1 e.2 (e.2.written a data)) s3

/-- BAR2_WRITE: in Hibernate dropped and counted, and the exit starts (14 R395); a write that finds memory in self-refresh or its stack hot or
retraining waits (12 R341, R348). -/
def State.bar2Write (s : State) (off : Nat) (data : List Byte) : State :=
  let a := s.dev.bar2Base + off
  if s.pw.module = 4 then (s.count 21 1).wakeModule
  else if s.bar2Holds a data.length then s.wakeModule.bar2Later a data.length (some data)
  else s.wakeModule.bar2Store a data

def execBar2Write (t : Stitch) (off : Nat) (data : List Byte) (s : State) : Host.Outcome State Fault Refusal :=
  s.act t (·.bar2Write off data)

/-! ### Accesses that wait (12 R341, R348; 14 R395) -/

/-- An access that has waited is served. -/
def State.serveWait (s : State) (w : Bar2Wait) : State :=
  match w.data with
  | none => s.bar2Serve w.addr w.len
  | some d => s.bar2Store w.addr d

/-- The accesses that nothing holds any more are served, in their order. -/
def State.serveBar2 (s : State) : State :=
  (s.bar2Wait.filter (fun w => !s.bar2Holds w.addr w.len)).foldl State.serveWait
    { s with bar2Wait := s.bar2Wait.filter (fun w => s.bar2Holds w.addr w.len) }

/-- Stitches of 1 ms. -/
def msStitches : Nat := 1000000

/-- An access to a stack at step 5 has not been served within 1 ms (12 R348). -/
def State.overdue (s : State) (w : Bar2Wait) : Bool := s.coldStack w.addr w.len && decide (w.since + msStitches ≤ s.stitch)

/-- An access completes with Completer Abort, is counted, and an error record of class 13 reports DEVICE_FAULT (12 R348, 15 R422). -/
def State.abortWait (s : State) (w : Bar2Wait) : State :=
  let k := s.homeStack (pageOf w.addr)
  (({ s with bar2Wait := s.bar2Wait.erase w }.emit .abortReply).count 21 1).cper
    { cls := 13, sev := sevRecoverable, status := stDeviceFault, unit := 188 + k, detail := [BitVec.ofNat 8 k, 5] }

/-- BAR2_THERMAL_ABORT: the first access at that offset that has waited 1 ms for a stack at step 5 is aborted. -/
def State.bar2ThermalAbort (s : State) (off : Nat) : State :=
  match s.bar2Wait.find? (fun w => w.addr == s.dev.bar2Base + off && s.overdue w) with
  | some w => s.abortWait w
  | none => s

def execBar2ThermalAbort (t : Stitch) (off : Nat) (s : State) : Host.Outcome State Fault Refusal := s.act t (·.bar2ThermalAbort off)

/-- What has waited 1 ms for a stack at step 5 is aborted at the latest when its temperature is read again. -/
def State.abortOverdue (s : State) : State := (s.bar2Wait.filter s.overdue).foldl State.abortWait s

end Sys2Proof.Machine
end

