-- ==== Sys2Proof/Machine/ConfigCmd.lean ====
section
/-! DEFINITION. IDENTIFY, the configuration record and its clamp report (02 R70 to R80). -/

namespace Sys2Proof.Machine

/-! ### IDENTIFY (02 R70, R71) -/

/-- DEV_ID's upper and lower fields (02 R46). -/
def deviceId : Nat := 0x4812

/-- Enabled needles of a panel: its physical needles that serve a logical number (02 R70, 01 R28). -/
def State.panelEnabled (s : State) (p : Nat) : Nat := (s.spareMap.filter (fun m => (m.map (· / 12)) == some p)).length

/-- Enabled needles of the module. -/
def State.enabledNeedles (s : State) : Nat := (s.spareMap.filter (·.isSome)).length

/-- A number whose bit i is set where the predicate holds, over n bits. -/
def bitsOf (n : Nat) (p : Nat → Bool) : Nat := (List.range n).foldl (fun m i => if p i then m + 2 ^ i else m) 0

/-- The links_up field (02 R70). -/
def State.linksUp (s : State) : Nat := bitsOf 32 (fun k => (s.link k).up)

/-- The cable_engines_up field (02 R70). -/
def State.enginesUp (s : State) : Nat := bitsOf 8 (fun e => (s.engines.getD e { up := false, item := none }).up)

/-- The stacks_ok field (02 R70). -/
def State.stacksOk (s : State) : Nat := bitsOf 12 (fun k => (s.mem.stackTab.getD k Stack.reset).state != 2)

/-- The id_flags field: skein member, factory defaults, time master, standby master (02 R70). -/
def State.idFlags (s : State) : Nat :=
  bitsOf 4 (fun i => if i = 0 then s.skein.member else if i = 1 then s.dev.configFactory
    else if i = 2 then s.time.role == 1 else s.time.role == 2)

/-- The 1,024-byte result of revision 2 (02 R70). -/
def State.identify2 (s : State) : List Byte :=
  let ids := s.jobs.map (fun j => j.id.toNat)
  let head := record 256 [(0, 2, deviceId), (2, 1, s.dev.stepping.toNat), (3, 1, 2), (4, 4, s.fw.running.toNat),
    (8, 8, s.dev.serial.toNat), (16, 8, if s.dev.configFactory then 0 else s.cfg.sequence),
    (24, 2, s.skein.device.toNat), (26, 2, s.idFlags), (28, 1, s.pcie.speed), (29, 1, s.pcie.width), (30, 2, ids.length),
    (32, 4, s.dev.usablePages), (36, 4, s.dev.retiredPages), (56, 8, s.dev.castOnStitch),
    (200, 18, bitsOf 144 (fun n => (s.needle n).state == .retired)), (218, 1, s.enginesUp), (220, 4, s.linksUp),
    (224, 2, s.stacksOk), (228, 4, ids.length)]
  let panels := (List.range 12).map (fun p => BitVec.ofNat 8 (s.panelEnabled p))
  let map := (List.range 136).map (fun l => BitVec.ofNat 8 ((s.physical l).getD 0xFF))
  overlayBytes (overlayBytes head 40 panels) 64 map ++ slice (ids.flatMap (le 4)) 0 768

/-- The 64-byte forerunner result of revision 1 (02 R71). -/
def State.identify1 (s : State) : List Byte :=
  record 64 [(0, 2, deviceId), (2, 2, s.enabledNeedles), (4, 4, s.dev.usablePages * 2 / 1024), (8, 2, 32), (10, 2, 400),
    (12, 4, s.fw.running.toNat), (16, 8, s.dev.serial.toNat)]

/-- The operand bytes are all reserved and zero (00 R11; log 15). -/
def Cmd.noOperands (c : Cmd) : Bool := if c.rev1 then c.operand1 == 0 else c.zero 40 24

/-- IDENTIFY. -/
def State.identify (s : State) (c : Cmd) : State :=
  if c.badLayout || !c.noOperands then s.finish c.tag [stBadField] 0
  else s.finishData c.tag [stDone] (if c.rev1 then s.identify1 else s.identify2)

def execIdentify (t : Stitch) (src : Src) (io : HostIo) (s : State) : Host.Outcome State Fault Refusal :=
  s.host t src io 0x0001 true State.identify

/-! ### The fields (02 R78) -/

/-- When a field takes effect (02 R78). -/
inductive Takes where
  | live
  | job
  | cast
  | reset
  deriving DecidableEq, Repr

/-- A defined scalar field: identifier, bytes, whether signed, range, default, whether out of range is clamped. -/
structure FieldDef where
  id : Nat
  width : Nat
  sgn : Bool
  lo : Int
  hi : Int
  dflt : Int
  clamp : Bool
  takes : Takes

/-- The defined scalar fields in ascending field_id order (02 R78). -/
def fieldDefs : List FieldDef :=
  [⟨0x0010, 2, false, 600, 1650, 1650, true, .live⟩, ⟨0x0011, 2, false, 600, 1650, 1200, true, .cast⟩,
   ⟨0x0020, 1, false, 36, 40, 36, true, .reset⟩, ⟨0x0021, 1, false, 3, 6, 6, true, .reset⟩,
   ⟨0x0022, 1, false, 0, 1, 1, false, .live⟩, ⟨0x0030, 1, false, 0, 2, 2, false, .cast⟩,
   ⟨0x0031, 1, false, 0, 4, 2, true, .job⟩, ⟨0x0040, 1, false, 0, 1, 0, false, .job⟩,
   ⟨0x0050, 1, false, 8, 16, 12, true, .live⟩, ⟨0x0051, 1, true, -52, -20, -40, true, .job⟩,
   ⟨0x0052, 1, false, 0, 3, 3, true, .job⟩, ⟨0x0060, 2, false, 0, 4096, 256, true, .job⟩,
   ⟨0x0061, 1, false, 0, 1, 0, false, .job⟩, ⟨0x0070, 1, false, 7, 30, 30, true, .live⟩,
   ⟨0x0080, 1, false, 0, 1, 0, false, .cast⟩]

/-- The value of a scalar field in force. -/
def ConfigFields.get (f : ConfigFields) (id : Nat) : Int :=
  if id = 0x10 then f.powerLimit else if id = 0x11 then f.powerLimitStartup else if id = 0x20 then f.bar2SizeLog2
  else if id = 0x21 then f.pcieMaxSpeed else if id = 0x22 then f.rev1Allowed else if id = 0x30 then f.timeSource
  else if id = 0x31 then f.standbyCount else if id = 0x40 then f.reduceSumFormat else if id = 0x50 then f.swatchRateLog2
  else if id = 0x51 then f.pivotTauLog2 else if id = 0x52 then f.refineStepsMax else if id = 0x60 then f.traceRingMib
  else if id = 0x61 then f.traceSpill else if id = 0x70 then f.scrubDays else if id = 0x80 then f.debugConsole else 0

/-- The fields a list of applied values makes. -/
def ConfigFields.ofApplied (digest : List Byte) (a : List (Nat × Int)) : ConfigFields :=
  let g := fun id => ((a.lookup id).getD 0).toNat
  { ownerKeyDigest := digest, powerLimit := g 0x10, powerLimitStartup := g 0x11, bar2SizeLog2 := g 0x20, pcieMaxSpeed := g 0x21,
    rev1Allowed := g 0x22, timeSource := g 0x30, standbyCount := g 0x31, reduceSumFormat := g 0x40, swatchRateLog2 := g 0x50,
    pivotTauLog2 := (a.lookup 0x51).getD 0, refineStepsMax := g 0x52, traceRingMib := g 0x60, traceSpill := g 0x61,
    scrubDays := g 0x70, debugConsole := g 0x80 }

/-! ### The record (02 R73 to R75) -/

/-- A field entry of a record. -/
structure FieldEntry where
  id : Nat
  value : List Byte

/-- Read field entries until the body is used up; `none` when an entry breaks R74. -/
def parseEntries : Nat → List Byte → Option (List FieldEntry)
  | 0, bs => if bs.isEmpty then some [] else none
  | n + 1, bs =>
    let len := field bs 2 2
    let pad := (len + 3) / 4 * 4
    if bs.length < 4 + pad ∨ len < 1 ∨ 64 < len ∨ !zeroBytes bs (4 + len) (pad - len) then none
    else (parseEntries n (bs.drop (4 + pad))).map (fun es => { id := field bs 0 2, value := (bs.drop 4).take len } :: es)

/-- Strictly ascending identifiers (02 R74). -/
def ascending : List FieldEntry → Bool
  | a :: b :: es => decide (a.id < b.id) && ascending (b :: es)
  | _ => true

/-- A configuration record read from its bytes. -/
structure CfgRecord where
  signer : Nat
  sequence : Nat
  serial : Nat
  entries : List FieldEntry
  bytes : List Byte

/-- Step 1 of R76: magic, format, lengths, entry order and reserved fields; `none` on failure. -/
def parseRecord (bs : List Byte) : Option CfgRecord :=
  let body := field bs 16 4
  let signer := field bs 6 2
  let total := 32 + body + (if signer = 1 then 516 else 0) + 512
  if bs.length < 32 ∨ field bs 0 4 ≠ 0x52435850 ∨ field bs 4 2 ≠ 1 ∨ 1 < signer ∨ !zeroBytes bs 22 2 ∨ body % 4 ≠ 0 ∨
     65536 < total ∨ bs.length < total then none
  else match parseEntries (field bs 20 2) ((bs.drop 32).take body) with
    | none => none
    | some es => if ascending es then
        some { signer := signer, sequence := field bs 8 8, serial := field bs 24 8, entries := es, bytes := bs.take total }
      else none

/-- Verify the signature at the end of signed bytes: by the Keadan key in the boot ROM, or by the owner key block before the
signature, whose digest must be the OWNER_KEY_DIGEST in force and not all zeros (02 R75). -/
def State.signedOk (s : State) (signer : Nat) (bs : List Byte) : Bool :=
  let signed := bs.take (bs.length - 512)
  let sig := bs.drop (bs.length - 512)
  let digest := sha512 signed
  if signer = 0 then Config.rsaVerifies Config.keadanModulus Config.keadanExponent digest sig
  else
    let key := signed.drop (signed.length - 516)
    let inForce := s.cfg.fields.ownerKeyDigest
    !(inForce.all (· == 0)) && sha512 key == inForce && Config.rsaVerifies (key.take 512) (key.drop 512) digest sig

/-! ### Evaluation and report (02 R77, R79) -/

/-- An entry of the clamp report. -/
structure ReportRow where
  id : Nat
  reason : Nat
  flags : Nat
  requested : Nat
  applied : Nat

/-- Value of an entry as an integer: two's complement where the field is signed (02 R74). -/
def entryInt (sgn : Bool) (v : List Byte) : Int := if sgn then signed (8 * v.length) (leVal v) else (leVal v : Nat)

/-- The requested column: zero- or sign-extended, the first 8 bytes for longer fields (02 R79). -/
def requestedOf (sgn : Bool) (v : List Byte) : Nat :=
  if 8 < v.length then leVal (v.take 8) else unsigned 64 (entryInt sgn v)

/-- Evaluate one defined scalar field: the applied value and its report row; the startup limit is bounded by the applied power
limit (02 R77, R78, R79). -/
def evalField (d : FieldDef) (power : Int) (inForce : Int) (e : Option FieldEntry) : Int × ReportRow :=
  let hi := if d.id = 0x11 then power else d.hi
  let late := if d.takes = .live then 0 else 1
  let row := fun (reason flags req : Nat) (v : Int) =>
    (v, { id := d.id, reason := reason, flags := flags, requested := req, applied := unsigned 64 v : ReportRow })
  match e with
  | none => row 4 (late + 2) 0 (if d.id = 0x11 then min d.dflt hi else d.dflt)
  | some x =>
    let v := entryInt d.sgn x.value
    let req := requestedOf d.sgn x.value
    if x.value.length ≠ d.width then row 6 late req inForce
    else if d.lo ≤ v ∧ v ≤ hi then row 0 late req v
    else if !d.clamp then row 6 late req inForce
    else if v < d.lo then row 1 late req d.lo
    else row (if d.id = 0x11 then 3 else 2) late req hi

/-- Evaluate the scalar fields in order, carrying the applied power limit. -/
def evalFields (f : ConfigFields) (es : List FieldEntry) : List FieldDef → Int → List (Nat × Int) × List ReportRow
  | [], _ => ([], [])
  | d :: ds, power =>
    let r := evalField d power (f.get d.id) (es.find? (·.id == d.id))
    let rest := evalFields f es ds (if d.id = 0x10 then r.1 else power)
    ((d.id, r.1) :: rest.1, r.2 :: rest.2)

/-- The row of OWNER_KEY_DIGEST: the digest that applies and its row (02 R77, R79). -/
def evalOwner (f : ConfigFields) (es : List FieldEntry) : List Byte × ReportRow :=
  let row := fun (reason flags req : Nat) (v : List Byte) =>
    (v, { id := 1, reason := reason, flags := flags, requested := req, applied := leVal (v.take 8) : ReportRow })
  match es.find? (·.id == 1) with
  | none => row 5 2 0 f.ownerKeyDigest
  | some x => if x.value.length = 64 then row 0 0 (leVal (x.value.take 8)) x.value
              else row 6 0 (requestedOf false x.value) f.ownerKeyDigest

/-- The rows of unknown fields (02 R74, R79). -/
def unknownRows (es : List FieldEntry) : List ReportRow :=
  (es.filter (fun e => e.id != 1 && !fieldDefs.any (·.id == e.id))).map (fun e =>
    { id := e.id, reason := if 0x8000 ≤ e.id then 8 else 7, flags := if 0x8000 ≤ e.id then 4 else 0,
      requested := requestedOf false e.value, applied := 0 })

/-- Insert a row in ascending field_id order (02 R79). -/
def insertRow (r : ReportRow) : List ReportRow → List ReportRow
  | [] => [r]
  | x :: xs => if r.id < x.id then r :: x :: xs else x :: insertRow r xs

/-- The outcome of an evaluation: whether every field applies, whether one was clamped, the fields and the rows. -/
structure Evaluation where
  ok : Bool
  clamped : Bool
  fields : ConfigFields
  rows : List ReportRow

/-- The value a row shows when its record failed: the one that remains in force (02 R79). -/
def ConfigFields.keepRow (f : ConfigFields) (r : ReportRow) : ReportRow :=
  if r.id = 1 then { r with applied := leVal (f.ownerKeyDigest.take 8) }
  else if fieldDefs.any (·.id == r.id) then { r with applied := unsigned 64 (f.get r.id) } else r

/-- Step 4 of R76. -/
def evaluate (f : ConfigFields) (es : List FieldEntry) : Evaluation :=
  let own := evalOwner f es
  let sc := evalFields f es fieldDefs 1650
  let rows := (unknownRows es).foldl (fun rs r => insertRow r rs) (own.2 :: sc.2)
  let ok := rows.all (fun r => r.reason != 6 && r.reason != 8)
  { ok := ok, clamped := rows.any (fun r => r.reason == 1 || r.reason == 2 || r.reason == 3),
    fields := if ok then ConfigFields.ofApplied own.1 sc.1 else f, rows := if ok then rows else rows.map f.keepRow }

/-- The clamp report (02 R79). -/
def clampReport (status sequence stitch : Nat) (rows : List ReportRow) : List Byte :=
  record 24 [(0, 4, 0x50435850), (4, 2, status), (6, 2, rows.length), (8, 8, sequence), (16, 8, stitch)] ++
  rows.flatMap (fun r => record 24 [(0, 2, r.id), (2, 1, r.reason), (3, 1, r.flags), (8, 8, r.requested), (16, 8, r.applied)])

/-- The rows of a cast-on evaluation: no entry is deferred (02 R80). -/
def castRows (rows : List ReportRow) : List ReportRow := rows.map (fun r => { r with flags := r.flags / 2 * 2 })

/-- Take the record with its clamps: store it in the slot not in force, change the slot, apply (02 R72, R76).  DESIGN CHOICE (log 130): under
factory defaults neither slot is in force, and slot B is written. -/
def State.applyRecord (s : State) (r : CfgRecord) (e : Evaluation) : State :=
  let stored := some { sequence := r.sequence, bytes := r.bytes : StoredRecord }
  { s with
    cfg := { s.cfg with slotA := if s.cfg.inForceB then stored else s.cfg.slotA
                        slotB := if s.cfg.inForceB then s.cfg.slotB else stored
                        inForceB := !s.cfg.inForceB, sequence := r.sequence, fields := e.fields }
    dev := { s.dev with configFactory := false }
    stash := { s.stash with bytesWritten := s.stash.bytesWritten + r.bytes.length } }

/-- End SET_CONFIG after an evaluation: the report is kept, and written where result_addr has room (02 R80).  DESIGN CHOICE (log 130): where it has
not, nothing of the report is written and result_truncated stays 0. -/
def State.endSetConfig (s : State) (c : Cmd) (status : Nat) (r : CfgRecord) (rows : List ReportRow) : State :=
  let report := clampReport status r.sequence s.stitch rows
  let s1 := { s with cfg := { s.cfg with report := report } }
  let room := c.tag.resultAddr != 0 && decide (report.length ≤ c.tag.resultLen)
  let s2 := if room then s1.emit (.hostWrite c.tag.resultAddr.toNat report) else s1
  s2.complete { c.tag.completion [status] report.length with reportAttached := room }

/-- SET_CONFIG: the checks of R76 in order. -/
def State.setConfig (s : State) (c : Cmd) : State :=
  if c.badLayout || !c.noOperands || c.badPayload 32 then s.finish c.tag [stBadField] 0
  else match parseRecord c.data with
    | none => s.finish c.tag [stBadField] 0
    | some r =>
      if !s.signedOk r.signer r.bytes then s.finish c.tag [stSignatureFail] 0
      else if (r.serial ≠ 0 ∧ r.serial ≠ s.dev.serial.toNat) ∨ r.sequence ≤ s.cfg.sequence then s.finish c.tag [stBadField] 0
      else
        let e := evaluate s.cfg.fields r.entries
        if !e.ok then s.endSetConfig c stBadField r e.rows
        else if !s.stashOk then s.endSetConfig c stDeviceFault r (e.rows.map s.cfg.fields.keepRow)
        else (s.applyRecord r e).wear.endSetConfig c (if e.clamped then stClamped else stDone) r e.rows

def execSetConfig (t : Stitch) (src : Src) (io : HostIo) (s : State) : Host.Outcome State Fault Refusal :=
  s.host t src io 0x0002 false State.setConfig

/-- GET_CONFIG_REPORT (02 R80).  DESIGN CHOICE (log 130): report_attached, which R80 names for SET_CONFIG, stays 0. -/
def State.getConfigReport (s : State) (c : Cmd) : State :=
  if c.badLayout || !c.noOperands then s.finish c.tag [stBadField] 0 else s.finishData c.tag [stDone] s.cfg.report

def execGetConfigReport (t : Stitch) (src : Src) (io : HostIo) (s : State) : Host.Outcome State Fault Refusal :=
  s.host t src io 0x0003 false State.getConfigReport

end Sys2Proof.Machine
end

