-- ==== Sys2Proof/Machine/Frames.lean ====
section
/-! DEFINITION. Sending frames (10 R293 to R298), routes and the time tree (10 R303, R304).  The layouts of time, election and
report payloads are not given: the model's own stand in what it drives outward (log 16). -/

namespace Sys2Proof.Machine

/-- A port that is up to a Palrix peer, named by its lowest link (10 R298). -/
def State.palrixPorts (s : State) : List Nat :=
  (List.range 32).filter (fun k => (s.link k).state == 2 && (s.link k).port == some k)

/-- The ports that carry time frames: a module added while a skein job is open gets control frames alone (10 R314). -/
def State.timePorts (s : State) : List Nat :=
  s.palrixPorts.filter (fun k => !s.jobs.any (·.skein) || (s.link k).peerDevice != 0xFFFF)

/-! ### The image of a frame (10 R293) -/

/-- The payload of a frame: 224 bytes (10 R293). -/
def padPayload (p : List Byte) : List Byte := slice p 0 224

/-- The 240 bytes that the check covers. -/
def Frame.covered (f : Frame) : List Byte :=
  [f.frameType, f.flags] ++ le 2 f.seq.toNat ++ le 2 f.ack.toNat ++ le 2 f.dest.toNat ++ le 4 f.stream.toNat ++ le 4 f.offset.toNat ++
  padPayload f.payload

/-- The 256 bytes of a frame: CRC-32C over bytes 0 to 239, then the parity of the Reed–Solomon codeword. -/
def Frame.image (f : Frame) : List Byte :=
  let checked := Frame.covered f ++ le 4 (crc32c (Frame.covered f))
  checked ++ slice (Config.rsParity checked) 0 12

/-- The bytes of a lane: the even bytes on lane 0, the odd ones on lane 1. -/
def laneBytes (image : List Byte) (lane : Nat) : List Byte := (List.range 128).map (fun i => image.getD (2 * i + lane) 0)

/-- What a frame puts on the two lanes of a link. -/
def frameOut (k leaves : Nat) (f : Frame) : Emission := .frame k leaves f (laneBytes (Frame.image f) 0) (laneBytes (Frame.image f) 1)

/-! ### Frame times (10 R296) -/

/-- The uses of a frame time. -/
inductive Use where
  | data
  | reserve
  | control
  deriving DecidableEq

/-- Frame times of a use in a slot. -/
def Use.times (u : Use) (rate : Nat) : Nat :=
  match u with
  | .data => if rate = 4 then 760 else 380
  | _ => if rate = 4 then 20 else 10

/-- The index of the n-th frame time of a use. -/
def Use.index (u : Use) (rate n : Nat) : Nat :=
  match u with
  | .data => n / 39 * 40 + n % 39 + 1
  | .reserve => (if rate = 4 then 780 else 390) + n
  | .control => 40 * n

/-- The frame times of a use that lie before an index. -/
def Use.before (u : Use) (rate e : Nat) : Nat :=
  match u with
  | .data => e - (e + 39) / 40
  | .reserve => e - (if rate = 4 then 780 else 390)
  | .control => (e + 39) / 40

/-- Hundredths of a stitch that a frame time lasts (10 R293). -/
def frameLength (rate : Nat) : Nat := if rate = 4 then 256 else 512

/-- The stitch at which a frame time starts. -/
def frameStitch (slot rate index : Nat) : Nat := slot + index * frameLength rate / 100

/-- The slot in which a stitch lies. -/
def slotOf (t : Nat) : Nat := t / 2048 * 2048

/-- The first frame time of its slot that starts at a stitch or after it. -/
def indexFrom (rate t : Nat) : Nat := ((t - slotOf t) * 100 + frameLength rate - 1) / frameLength rate

/-- A link whose counts of taken frame times are those of the slot that a stitch lies in. -/
def Link.inSlot (l : Link) (t : Nat) : Link :=
  if l.slotAt = slotOf t then l
  else { l with slotAt := slotOf t, sentInSlot := 0, reserveInSlot := 0, controlInSlot := 0, reservedTaken := [], slotSends := [] }

/-- Frame times of a use that are taken or passed over. -/
def Link.used (l : Link) : Use → Nat
  | .data => l.sentInSlot
  | .reserve => l.reserveInSlot
  | .control => l.controlInSlot

/-- The n-th frame time of a use is taken. -/
def Link.use (l : Link) (u : Use) (n : Nat) : Link :=
  match u with
  | .data => { l with sentInSlot := max l.sentInSlot (n + 1) }
  | .reserve => { l with reserveInSlot := max l.reserveInSlot (n + 1) }
  | .control => { l with controlInSlot := max l.controlInSlot (n + 1), reservedTaken := n :: l.reservedTaken }

/-- The next frame time of a use, by number, that a link has from a stitch on. -/
def Link.nextTime (l : Link) (u : Use) (t : Nat) : Nat := max ((l.inSlot t).used u) (u.before l.rate (indexFrom l.rate t))

/-- Frames that a replay buffer holds (10 R295). -/
def replayMax : Nat := 1024

/-- A link can send in a frame time of a use in the slot of a stitch. -/
def Link.room (l : Link) (u : Use) (t : Nat) : Bool :=
  l.up && decide (l.nextTime u t < u.times l.rate) && decide (indexFrom l.rate t ≤ u.index l.rate (l.nextTime u t)) &&
  decide (l.replay.length + l.resend.length < replayMax)

def State.room (s : State) (k : Nat) (u : Use) : Bool := (s.link k).room u s.stitch

/-! ### Sending (10 R293, R295 to R297) -/

/-- What a frame carries into its sending: its course, the virtual channel whose credit it takes (3 for none), how often it has been sent, this
time included, and the slot and the entry of its plan. -/
structure Sending where
  course : Option Nat
  channel : Nat
  tries : Nat
  slot : Nat
  entry : Nat

/-- A frame of no course: a control or time frame. -/
def Sending.plain : Sending := { course := none, channel := 3, tries := 1, slot := 0, entry := 0 }

/-- The port of a link, the link itself where it belongs to none. -/
def State.portAt (s : State) (k : Nat) : Nat := ((s.link k).port).getD k

/-- Number a frame for a link and keep it for replay until it is acknowledged (10 R293, R295); `leaves` is the stitch of its frame time. -/
def State.sendFrame (s : State) (k : Nat) (f : Frame) (x : Sending) (leaves : Nat) : State :=
  let l := s.link k
  let g : Frame := { f with seq := BitVec.ofNat 16 l.nextSeq, ack := BitVec.ofNat 16 l.expectSeq }
  (s.updLink k (fun l =>
    { l with nextSeq := (l.nextSeq + 1) % 65536, ackDue := false,
             replay := l.replay ++ [{ frame := g, sentAt := leaves, tries := x.tries, course := x.course, channel := x.channel,
                                      port := s.portAt k, slot := x.slot, entry := x.entry }] })).emit
    (frameOut k leaves g)

/-- The stitch of the n-th frame time of a use in a slot. -/
def Link.timeOf (l : Link) (slot : Nat) (u : Use) (n : Nat) : Nat := frameStitch slot l.rate (u.index l.rate n)

/-- The stitch of the frame time that a frame would take. -/
def State.leavesAt (s : State) (k : Nat) (u : Use) : Nat :=
  (s.link k).timeOf (slotOf s.stitch) u ((s.link k).nextTime u s.stitch)

/-- A frame takes the n-th frame time of a use, in the slot of a stitch. -/
def State.putAt (s : State) (k t : Nat) (u : Use) (n : Nat) (f : Frame) (x : Sending) : State :=
  let leaves := (s.link k).timeOf (slotOf t) u n
  (s.updLink k (fun l => { (l.inSlot t).use u n with slotSends := (l.inSlot t).slotSends ++ [leaves] })).sendFrame k f x leaves

/-- A frame takes the next frame time of a use on a link. -/
def State.putFrame (s : State) (k : Nat) (u : Use) (f : Frame) (x : Sending) : State :=
  s.putAt k s.stitch u ((s.link k).nextTime u s.stitch) f x

/-- Frames that are taken back before their frame times leave the counts of their slot. -/
def Link.takeBack (l : Link) (rs : List Replay) (t : Nat) : Link :=
  { l with slotSends := rs.foldl (fun ts r => if t < r.sentAt then ts.erase r.sentAt else ts) l.slotSends }

/-- A control or time frame. -/
def controlFrame (type : Nat) (dest : BitVec 16) (payload : List Byte) : Frame :=
  { frameType := BitVec.ofNat 8 type, flags := 0, seq := 0, ack := 0, dest := dest, stream := 0, offset := 0, payload := padPayload payload }

/-- A time frame (10 R294). -/
def isTime (f : Frame) : Bool := decide (0x20 ≤ f.frameType.toNat) && decide (f.frameType.toNat < 0x30)

/-- A time frame finds its reserved frame time within 40 frame times: no earlier one waits for the same one (10 R297). -/
def Link.reservedSoon (l : Link) (t : Nat) : Bool := l.nextTime .control t == Use.before .control l.rate (indexFrom l.rate t)

/-- The frame times that a control or time frame takes: a reserved one; a time frame beyond the reserved ones a free one, which no plan has
allotted; none when the slot has no more (10 R296, R297). -/
def State.reservedUse (s : State) (k : Nat) (f : Frame) : Option Use :=
  if s.room k .control && (!isTime f || (s.link k).reservedSoon s.stitch) then some .control
  else if isTime f && s.room k .data then some .data
  else if isTime f && s.room k .reserve then some .reserve
  else if s.room k .control then some .control
  else none

/-- A time message carries the master's counter as it leaves: the wait for its frame time is added to it, as the forwarding delay is
(10 R303). -/
def timedFrame (f : Frame) (wait : Nat) : Frame :=
  if f.frameType = 0x20 then { f with payload := padPayload (le 8 (field f.payload 0 8 + wait)) } else f

/-- The payload of a LINK_SEND or LINK_RECV record (15 R428). -/
def State.linkPayload (s : State) (k : Nat) (f : Frame) (seq job : Nat) : List Byte :=
  let l := s.link k
  record 24 [(0, 1, f.frameType.toNat), (1, 1, f.flags.toNat), (2, 2, seq), (4, 2, l.peerDevice.toNat), (6, 1, l.peerLink),
    (8, 4, f.stream.toNat), (12, 4, f.offset.toNat), (16, 4, l.delayQ), (20, 4, job)]

/-- The sending of a report is traced at the start of its frame time (15 R428). -/
def State.traceReport (s : State) (k : Nat) (job : Option Word) (f : Frame) (leaves : Nat) : State :=
  match job with
  | some j => s.traceRec job 0x02 (152 + k) leaves false (s.linkPayload k f (s.link k).nextSeq j.toNat)
  | none => s

/-- A control or time frame leaves, or waits for the next slot (10 R296, R297). -/
def State.sendReserved (s : State) (k : Nat) (h : HeldFrame) : State :=
  match s.reservedUse k h.frame with
  | some u =>
    let leaves := s.leavesAt k u
    (s.traceReport k h.job h.frame leaves).putFrame k u (timedFrame h.frame (leaves - h.since)) .plain
  | none => if (s.link k).up then s.updLink k (fun l => { l with waiting := l.waiting ++ [h] }) else s

/-- A control or time frame of a type goes out on a link. -/
def State.sendControl (s : State) (k type : Nat) (dest : BitVec 16) (payload : List Byte) : State :=
  s.sendReserved k { frame := controlFrame type dest payload, since := s.stitch, job := none }

/-- A frame that takes no number and is not kept: idle and training frames (10 R294; log 109). -/
def State.sendUnnumbered (s : State) (k : Nat) (f : Frame) : State :=
  let l := s.link k
  (s.updLink k (fun l => { l with ackDue := false })).emit
    (frameOut k s.stitch { f with seq := BitVec.ofNat 16 l.nextSeq, ack := BitVec.ofNat 16 l.expectSeq })

/-- Flood a time-class frame on every Palrix port except the one it arrived on (10 R304). -/
def State.flood (s : State) (type : Nat) (except : Option Nat) (payload : List Byte) : State :=
  (s.timePorts.filter (fun p => except != some p && (except.bind (fun k => (s.link k).port)) != some p)).foldl
    (fun x p => x.sendControl p type 0xFFFF payload) s

/-! ### Sequence numbers that arrive (10 R295) -/

/-- The expected number passes over the numbers that are held. -/
def Link.passHeld : Nat → Link → Link
  | 0, l => l
  | n + 1, l =>
    let e := BitVec.ofNat 16 l.expectSeq
    if l.held.contains e then Link.passHeld n { l with expectSeq := (e + 1).toNat, held := l.held.erase e } else l

/-- How far a number lies beyond the expected one. -/
def Link.ahead (l : Link) (q : BitVec 16) : Nat := (q - BitVec.ofNat 16 l.expectSeq).toNat

/-- The held number next to the expected one. -/
def Link.firstHeld (l : Link) : BitVec 16 := l.held.foldl (fun a b => if l.ahead b < l.ahead a then b else a) (l.held.headD 0)

/-- A number has arrived or was NAKed: up to 1,024 beyond the expected one are held.  Beyond 1,024 the gap is given up: its frames have
long been sent again under new numbers (log 20). -/
def Link.received (l : Link) (seq : BitVec 16) : Link :=
  if 32768 ≤ l.ahead seq ∨ l.held.contains seq then { l with ackDue := true }
  else
    let l1 := { l with held := l.held ++ [seq], ackDue := true }
    let l2 := if 1024 < l1.held.length then { l1 with expectSeq := l1.firstHeld.toNat } else l1
    Link.passHeld l2.held.length l2

/-- A frame whose row carries no number takes the one after the greatest that has arrived (log 20). -/
def Link.heardNext (l : Link) : Link :=
  l.received (match l.held with
    | [] => BitVec.ofNat 16 l.expectSeq
    | q :: qs => (qs.foldl (fun a b => if l.ahead a < l.ahead b then b else a) q) + 1)

/-- A control or time frame has arrived on a link. -/
def State.heard (s : State) (k : Nat) : State := s.updLink k Link.heardNext

/-! ### Coordinates and the time tree -/

/-- The coordinates of a device number in a torus (10 R300). -/
def coordsOf (ext : List Nat) (d : Nat) : List Nat :=
  let a0 := ext.getD 0 1
  let a1 := ext.getD 1 1
  let a2 := ext.getD 2 1
  [d % a0, d / a0 % a1, d / (a0 * a1) % a2, d / (a0 * a1 * a2)]

/-- The directions (dimension, minus) that lie on a shortest path to a coordinate, the lowest dimension first and + before −
(10 R303). -/
def shortest (ext here there : List Nat) : List (Nat × Bool) :=
  (List.range 4).flatMap (fun d =>
    let a := max (ext.getD d 1) 1
    let fwd := (there.getD d 0 + a - here.getD d 0) % a
    if fwd = 0 then [] else
      (if fwd ≤ a - fwd then [(d, false)] else []) ++ (if a - fwd ≤ fwd then [(d, true)] else []))

/-- The direction byte of a torus link (10 R313). -/
def directionByte (d : Nat) (minus : Bool) : Byte := BitVec.ofNat 8 (128 + 16 * d + (if minus then 1 else 0))

/-- A link leads in a direction; in a dimension of extent 2 the + and − ports of the one neighbour are one direction (10 R298, R299). -/
def State.leads (s : State) (d : Nat) (minus : Bool) (l : Link) : Bool :=
  l.direction == directionByte d minus || (s.skein.extents.getD d 1 == 2 && l.direction == directionByte d (!minus))

/-- The lowest link of a direction that is up to a Palrix (10 R303, R311). -/
def State.linkTowards (s : State) (d : Nat) (minus : Bool) : Option Nat :=
  (List.range 32).find? (fun k => (s.link k).state == 2 && s.leads d minus (s.link k))

/-- The lowest link up to a peer device. -/
def State.linkToDevice (s : State) (dev : BitVec 16) : Option Nat :=
  (List.range 32).find? (fun k => (s.link k).state == 2 && (s.link k).peerDevice == dev)

/-- The link on which this member takes the master's time (10 R303). -/
def State.parentLink (s : State) : Option Nat :=
  if !s.skein.member || s.skein.device == s.time.master then none
  else if s.skein.topology = 2 then s.linkToDevice s.time.master
  else (shortest s.skein.extents s.skein.coords (coordsOf s.skein.extents s.time.master.toNat)).findSome?
    (fun d => s.linkTowards d.1 d.2)

/-- Choose the parent again (10 R303, R304). -/
def State.reparent (s : State) : State := { s with skein := { s.skein with parent := s.parentLink } }

/-- A neighbour may take its time from this member: one of its own shortest ways leads here.  Which of its ports are up is not known
here, so every neighbour that may choose this member gets the message, and takes it when it has (10 R303; log 110). -/
def State.isChild (s : State) (k : Nat) : Bool :=
  let peer := (s.link k).peerDevice
  if s.skein.topology = 2 then s.skein.device == s.time.master && peer != s.time.master
  else
    let there := coordsOf s.skein.extents peer.toNat
    (shortest s.skein.extents there (coordsOf s.skein.extents s.time.master.toNat)).any (fun d =>
      let a := max (s.skein.extents.getD d.1 1) 1
      there.set d.1 ((there.getD d.1 0 + (if d.2 then a - 1 else 1)) % a) == s.skein.coords)

end Sys2Proof.Machine
end

