-- ==== Sys2Proof/Machine/Timing.lean ====
section
/-! DEFINITION. Stitch time across the skein, roles and holdover (04 R120 to R130; 10 R303, R304), the timing port (16 R447 to
R449, R451), the gauge (04 R125, R136 to R141) and the binding of gauge points (04 R144). -/

namespace Sys2Proof.Machine

/-! ### Counter, roles, holdover -/

/-- The counter steps to a value, with a TIME record; the stitches that it skips are booked to the causes in force (04 R122, 15 R440), and
long spans that run keep what has passed of them.  The multiples of 1,000,000,000 beyond the new value are still to be crossed (04 R123). -/
def State.stepCounter (s0 : State) (v event : Nat) : State :=
  let s := if s0.stitch < v then s0.book (v - s0.stitch) (s0.bookings (v - s0.stitch)) else s0
  let later := fun (n : Nat) => n + v - s.stitch
  ({ s with
     stitch := v
     stash := { s.stash with scrubbed := s.stash.scrubbed.map (fun (e : Nat × Int) => (e.1, e.2 + ((v : Int) - s.stitch))) }
     fw := { s.fw with trialSince := later s.fw.trialSince }
     pw := { s.pw with rampAt := s.pw.rampAt.map later, moduleSince := later s.pw.moduleSince }
     mgmt := { s.mgmt with dhcpSince := later s.mgmt.dhcpSince }
     time := { s.time with lastPulse := min s.time.lastPulse v } }).traceTime s.stitch v event

/-- The frequency correction that an offset asks for, within ±limit parts per 10⁹: ±200 ppm for every correction (04 R122), 1 ppm for
a master that took over (04 R129).  The loop itself is not given: the correction within the limit is a free value.  The stitches
that commands carry are those of the counter so disciplined (log 1, log 100). -/
def slewWithin (limit offset : Int) : Int := max (-limit) (min limit (Config.steering offset))

/-- The counter is disciplined towards its parent or its reference by slew alone (04 R122, R127, R129). -/
def State.discipline (s : State) (offset : Int) : State :=
  { s with time := { s.time with slew := slewWithin (if s.time.tookOver then 1000 else 200000) offset } }

/-- An error record of class 12 (13 R386): the bit of the timing summary and the master's number. -/
def State.timingError (s : State) (bit sev : Nat) : State :=
  s.cper { cls := 12, sev := sev, unit := 187, detail := [BitVec.ofNat 8 bit, 0] ++ le 2 s.time.master.toNat }

/-- Enter holdover (04 R128). -/
def State.enterHoldover (s : State) : State :=
  if s.time.holdoverStart.isSome || s.time.expired then s
  else (({ s with time := { s.time with holdoverStart := some s.stitch } }).raiseTiming 1 |>.timingError 1 sevInformational).traceTime
    s.stitch s.stitch 3

/-- Leave holdover that has not expired (04 R128). -/
def State.leaveHoldover (s : State) : State :=
  if s.time.expired then s else { s with time := { s.time with holdoverStart := none } }

/-- Members in ascending device number. -/
def insertMember (m : MemberInfo) : List MemberInfo → List MemberInfo
  | [] => [m]
  | x :: xs => if m.device.toNat ≤ x.device.toNat then m :: x :: xs else x :: insertMember m xs

/-- Candidates for master: a reference of their own, locked (04 R126). -/
def isCandidate (m : MemberInfo) : Bool := decide (m.timeSource < 2) && m.refValid

/-- The succession order: candidates ascending, then the other members ascending (04 R126). -/
def succession (ms : List MemberInfo) : List MemberInfo :=
  let sorted := ms.foldl (fun l m => insertMember m l) []
  sorted.filter isCandidate ++ sorted.filter (fun m => !isCandidate m)

/-- Four standby numbers, 0xFFFF for none (04 R124). -/
def fourStandbys (l : List (BitVec 16)) : List (BitVec 16) := (l ++ List.replicate 4 0xFFFF).take 4

/-- The role of a device number: 1 master, 2 standby, 0 member (04 R124). -/
def roleOf (own master : BitVec 16) (standbys : List (BitVec 16)) : Nat :=
  if own = master then 1 else if standbys.contains own then 2 else 0

/-- An elected master leaves a holdover that has not expired: it is disciplined by itself (04 R128). -/
def Time.mastered (t : Time) : Time := if t.role = 1 && !t.expired then { t with holdoverStart := none } else t

/-- What the messages of an election report is kept until it ends: the greatest counter, and whether a member's holdover has expired
(04 R130; log 101). -/
def Time.told (t : Time) (said : List MemberInfo) : Time :=
  { t with greatest := some ((said.map (·.counter)).foldl max (t.greatest.getD 0)), realign := t.realign || said.any (·.unaligned) }

/-- An election is over: what it reported goes (log 101). -/
def Time.elected (t : Time) : Time := { t with greatest := none, realign := false }

/-- Elect the master and its standbys from what the members have said, `said` in the message that has come (04 R126, R130). -/
def State.elect (s : State) (ms said : List MemberInfo) : State :=
  match succession ms with
  | [] => s
  | m :: rest =>
    let st := fourStandbys ((rest.map (·.device)).take m.standbyCount)
    ({ s with time := ({ (s.time.told said) with master := m.device, masterValid := true, standbys := st
                                                 role := roleOf s.skein.device m.device st, tookOver := false } : Time).mastered }).reparent

/-- The counter steps forward once, to `v` at least, and the member is aligned again (04 R122, R130). -/
def State.align (s : State) (v : Nat) : State :=
  let s1 := { s with time := { s.time.elected with expired := false, unaligned := false, holdoverStart := none } }
  if s.time.unaligned || decide (s.stitch < v) then s1.stepCounter (max s.stitch v) 5 else s1

/-- What this module says of itself in an election (04 R126, R130). -/
def State.ownInfo (s : State) : MemberInfo :=
  { serial := s.dev.serial, device := s.skein.device, timeSource := s.cfg.castTimeSource, refValid := s.time.refValid,
    standbyCount := s.cfg.standbysNow, counter := s.stitch, unaligned := s.time.unaligned }

/-- One member's entry of an election message as a payload (log 16). -/
def infoBytes (m : MemberInfo) : List Byte :=
  le 8 m.serial.toNat ++ le 2 m.device.toNat ++ le 1 m.timeSource ++ le 1 (if m.refValid then 1 else 0) ++ le 1 m.standbyCount ++
  le 8 m.counter ++ le 1 (if m.unaligned then 1 else 0)

/-- An election message goes out, or on, whole: in as many parts as it tells of members, one alone where it tells of none.  Each part names
its number and how many there are, so that a receiver takes the message once its last part is here (10 R304; log 16). -/
def State.floodElection (s : State) (except : Option Nat) (m : ElectionMsg) : State :=
  let head := fun (i : Nat) => le 2 m.source.toNat ++ le 4 m.sequence.toNat ++ le 2 i ++ le 2 (max m.members.length 1) ++
    le 1 (if m.announce.isSome then 1 else 0) ++ le 2 (m.announce.getD 0).toNat
  if m.members.isEmpty then s.flood 0x22 except (head 0)
  else m.members.zipIdx.foldl (fun x i => x.flood 0x22 except (head i.2 ++ infoBytes i.1)) s

/-- This module floods an election message of its own and drops the copies that come back (04 R126, R129; 10 R304). -/
def State.sendElection (s : State) (announce : Option (BitVec 16)) : State :=
  let m : ElectionMsg := { source := s.skein.device, sequence := BitVec.ofNat 32 (s.time.electSeq + 1), members := [s.ownInfo], announce := announce }
  ({ s with time := { s.time with electSeq := s.time.electSeq + 1 }
            skein := { s.skein with seen := (m.source, m.sequence) :: s.skein.seen } }).floodElection none m

/-- What a member says of itself replaces what was known of it. -/
def mergeInfos (old new : List MemberInfo) : List MemberInfo :=
  old.filter (fun o => !new.any (fun n => n.serial == o.serial)) ++ new

/-- A member begins an election: it says what it is, and elects from what it knows (04 R126). -/
def State.beginElection (s : State) : State :=
  if s.skein.member then
    let infos := mergeInfos s.skein.infos [s.ownInfo]
    (({ s with skein := { s.skein with infos := infos } }).elect infos [s.ownInfo]).sendElection none
  else s

/-- A new master is announced: every member re-parents, leaves holdover and notes the change; no counter steps; the standby
count is kept (04 R129). -/
def State.newMaster (s : State) (d : BitVec 16) : State :=
  let rest := (succession s.skein.infos).map (·.device)
  let n := (s.time.standbys.filter (· != 0xFFFF)).length
  let kept := s.time.standbys.filter (fun x => x != 0xFFFF && x != d)
  let more := rest.filter (fun x => x != d && x != s.time.master && !kept.contains x)
  let st := fourStandbys ((kept ++ more).take n)
  let s1 := ({ s with time := { s.time.elected with
      master := d, masterValid := true, standbys := st, role := roleOf s.skein.device d st, lastMaster := s.stitch
      tookOver := d == s.skein.device } }).reparent.leaveHoldover
  ((s1.raiseTiming 0).timingError 0 sevInformational).traceTime s.stitch s.stitch 2

/-- DELAY_MEASUREMENT: ((t4 − t1) − (t3 − t2)) ÷ 2 kept to 1/16 stitch; a new 1 ms interval of uncorrectable frames begins
with the stamp of the next measurement (04 R127, 10 R292). -/
def State.delayMeasured (s : State) (k t1 t2 t3 t4 : Nat) : State :=
  if (s.link k).state = 2 ∨ (s.link k).state = 3 then
    ((s.heard k).updLink k (fun l =>
      { l with delayQ := (8 * (((t4 : Int) - t1) - ((t3 : Int) - t2))).toNat, uncInterval := 0, uncIntervalStart := s.stitch })).sendControl
        k 0x11 (s.link k).peerDevice (le 8 s.stitch)
  else s

def execDelayMeasurement (t : Stitch) (link t1 t2 t3 t4 : Nat) (s : State) : Host.Outcome State Fault Refusal :=
  s.act t (·.delayMeasured link t1 t2 t3 t4)

/-- The master's next time message is due: 125,000 stitches after the last (10 R303). -/
def State.messageDue (s : State) : Bool :=
  match s.time.lastSent with
  | none => true
  | some b => decide (b + 125000 ≤ s.stitch)

/-- TIME_MESSAGE_SEND: the master sends its counter on every port (10 R303).  The first message after an election ends it: after one that
re-aligns the skein the master has the greatest counter reported (04 R130; the end of an election is not given: log 101). -/
def State.timeMessageSend (s : State) : State :=
  if s.time.role = 1 && s.messageDue then
    let s1 := if s.time.unaligned || s.time.realign then s.align (s.time.greatest.getD 0) else s
    let s2 := { s1 with time := { s1.time.elected with lastSent := some s1.stitch } }
    s2.timePorts.foldl (fun x p => x.sendControl p 0x20 0xFFFF (le 8 s2.stitch)) s2
  else s

def execTimeMessageSend (t : Stitch) (s : State) : Host.Outcome State Fault Refusal := s.act t (·.timeMessageSend)

/-- The counter against its parent's delay-corrected time: an unaligned member steps forward once; a member that has joined with no
job open steps to the skein's time; after an election that re-aligns the skein every member steps forward; any other slews (04 R122, R127,
R130). -/
def State.follow (s : State) (there : Nat) : State :=
  if s.time.unaligned then s.align there
  else
    let s1 := { s with time := { s.time.elected with joining := false } }
    if s.time.joining && s.jobs.isEmpty then s1.leaveHoldover.stepCounter there 1
    else if s.time.realign then s1.leaveHoldover.align there
    else s1.leaveHoldover.discipline s.time.offset

/-- A message of the master has come, on whatever link (04 R128, R129). -/
def State.masterHeard (s : State) (k : Nat) : State :=
  if (s.link k).state = 2 then { s.heard k with time := { s.time with lastMaster := s.stitch } } else s

/-- TIME_MESSAGE_RECEIVED: taken from the parent only; the offset is measured against the delay-corrected time, holdover ends, the
counter follows, and the message is forwarded to the children, with the wait for its frame time added (04 R122, R127 to R130; 10 R303). -/
def State.timeMessage (s : State) (k counter : Nat) : State :=
  if s.skein.parent != some k then s.masterHeard k
  else
    let d := (s.link k).delayQ
    let s1 := { s.heard k with time := { s.time with offset := (16 * (counter : Int) + d) - 16 * s.stitch } }
    let s2 := s1.follow (counter + d / 16)
    let s3 := { s2 with time := { s2.time with lastMaster := s2.stitch } }
    (s3.timePorts.filter (fun p => p != k && s3.isChild p)).foldl (fun x p => x.sendControl p 0x20 0xFFFF (le 8 (counter + d / 16))) s3

def execTimeMessageReceived (t : Stitch) (link counter : Nat) (s : State) : Host.Outcome State Fault Refusal :=
  s.act t (·.timeMessage link counter)

/-- HOLDOVER_ENTRY: a member that is not the master has received no time message for 3 ms (04 R128). -/
def State.holdoverEntry (s : State) : State :=
  if s.skein.member && s.time.role != 1 && decide (s.time.lastMaster + 3000000 ≤ s.stitch) then s.enterHoldover else s

def execHoldoverEntry (t : Stitch) (s : State) : Host.Outcome State Fault Refusal := s.act t (·.holdoverEntry)

/-- MASTER_TAKEOVER: 8 ms without the master, and 8 ms more for each standby before this one; the standby announces itself with
its counter; any other member enters holdover if it has not (04 R129). -/
def State.masterTakeover (s : State) : State :=
  if !s.skein.member || s.time.role = 1 || decide (s.stitch < s.time.lastMaster + 8000000) then s
  else match s.time.standbys.findIdx? (· == s.skein.device) with
    | some i =>
      if s.time.lastMaster + 8000000 * (i + 1) ≤ s.stitch then
        (s.enterHoldover.newMaster s.skein.device).sendElection (some s.skein.device)
      else s.enterHoldover
    | none => s.enterHoldover

def execMasterTakeover (t : Stitch) (s : State) : Host.Outcome State Fault Refusal := s.act t (·.masterTakeover)

/-- HOLDOVER_EXPIRY: 10 s of holdover have passed (04 R130). -/
def State.holdoverExpiry (s : State) : State :=
  match s.time.holdoverStart with
  | some h =>
    if h + 10000000000 ≤ s.stitch && !s.time.expired then
      ((({ s with time := { s.time with expired := true, unaligned := true } }).raiseTiming 2).timingError 2 sevRecoverable).traceTime
        s.stitch s.stitch 4
    else s
  | none => s

def execHoldoverExpiry (t : Stitch) (s : State) : Host.Outcome State Fault Refusal := s.act t (·.holdoverExpiry)

/-- ELECTION_MESSAGE_RECEIVED: the first copy, by source and sequence number, is kept and forwarded, a later one dropped; an
announcement makes a new master, any other message an election (04 R126, R129; 10 R304). -/
def State.electionMessage (s : State) (k : Nat) (m : ElectionMsg) : State :=
  if (s.link k).state != 2 then s
  else if s.skein.seen.contains (m.source, m.sequence) then s.heard k
  else
    let infos := mergeInfos (mergeInfos s.skein.infos m.members) (if s.skein.member then [s.ownInfo] else [])
    let s1 := { s.heard k with skein := { s.skein with seen := (m.source, m.sequence) :: s.skein.seen, infos := infos } }
    let s2 := s1.floodElection (some k) m
    match m.announce with
    | some d => s2.newMaster d
    | none => if s2.skein.member then s2.elect infos (m.members ++ [s.ownInfo]) else s2

def execElectionMessageReceived (t : Stitch) (link : Nat) (msg : ElectionMsg) (s : State) : Host.Outcome State Fault Refusal :=
  s.act t (·.electionMessage link msg)

/-! ### References and pulses (16 R447 to R451) -/

/-- This module keeps its time by its own reference: it is the master, or in no skein (04 R123). -/
def Time.ownTime (t : Time) : Bool := t.role == 1 || t.role == 3

/-- The reference is locked at an instant whose time is `v`: the first lock steps the counter where this is a master with no open job,
and no later lock does; else a master slews towards it (04 R122, R123, R129). -/
def State.locked (s : State) (v : Nat) : State :=
  let s1 := { s with time := { s.time with firstLock := true } }
  if !s.time.ownTime then s1
  else if !s.time.firstLock && s.jobs.isEmpty then s1.stepCounter v 1
  else s1.discipline (16 * ((v : Int) - s.stitch))

/-- PPS_IN_EDGE: four consecutive edges 1,000,000,000 ± 100 stitches apart, with REF_IN held within ±2 ppm for the last 1 s, set ref_valid
(16 R449).  The counter is locked to PPS where TIME_SOURCE is 0: at the first lock the edge falls on the multiple of 1,000,000,000 that its whole
seconds give, later ones on the nearest (04 R123). -/
def State.ppsInEdge (s : State) (refHeld : Nat) : State :=
  let good := match s.time.lastPps with
    | some p => if 999999900 ≤ s.stitch - p ∧ s.stitch - p ≤ 1000000100 then s.time.ppsGood + 1 else 1
    | none => 1
  let s1 := { s with time := { s.time with lastPps := some s.stitch, ppsGood := good } }
  if 4 ≤ good ∧ 1000000000 ≤ refHeld then
    let s2 := { s1 with time := { s1.time with refValid := true } }
    if s.cfg.castTimeSource = 0 then
      let s3 := s2.locked (if s.time.firstLock then (s.stitch + 500000000) / 1000000000 * 1000000000 else s.stitch / 1000000000 * 1000000000)
      { s3 with time := { s3.time with lastPps := some s3.stitch } }
    else s2
  else s1

def execPpsInEdge (edge : PpsEdge) (s : State) : Host.Outcome State Fault Refusal := s.act edge.stitch (·.ppsInEdge edge.refHeld)

/-- The lock to PPS and REF_IN is lost; ref_valid stays where the module is locked to IEEE 1588 (04 R124, 16 R449). -/
def State.unlock (s : State) : State := { s with time := { s.time with refValid := s.time.ptpLocked, ppsGood := 0 } }

/-- REF_LOSS_TIMEOUT: 3 s without a PPS_IN edge, or REF_IN absent or off frequency for 10 ms: ref_valid clears, the role stays
(16 R449). -/
def State.refLoss (s : State) (what : RefLoss) : State :=
  match what with
  | .pps => match s.time.lastPps with
    | some p => if p + 3000000000 ≤ s.stitch then s.unlock else s
    | none => s
  | .refIn => s.unlock

def execRefLossTimeout (t : Stitch) (what : RefLoss) (s : State) : Host.Outcome State Fault Refusal := s.act t (·.refLoss what)

/-- PPS_OUT_PULSE: the counter has crossed a multiple of 1,000,000,000 since the last pulse, and pps_out_enable is set
(04 R123, R124). -/
def State.ppsOutPulse (s : State) : State :=
  if s.time.outputControl.getLsbD 0 && decide (s.time.lastPulse / 1000000000 < s.stitch / 1000000000) then
    ({ s with time := { s.time with lastPulse := s.stitch } }).emit (.ppsOut (s.stitch / 1000000000 * 1000000000))
  else s

def execPpsOutPulse (t : Stitch) (s : State) : Host.Outcome State Fault Refusal := s.act t (·.ppsOutPulse)

/-- PTP_MESSAGE: under TIME_SOURCE 1 the message is stamped, disciplines the counter and locks the reference; the first lock
steps it to the PTP time (04 R122, R123; 16 R451). -/
def State.ptpMessage (s : State) (masterTime : Nat) : State :=
  if s.cfg.castTimeSource = 1 then ({ s with time := { s.time with refValid := true, ptpLocked := true } }).locked masterTime else s

def execPtpMessage (t : Stitch) (masterTime : Nat) (s : State) : Host.Outcome State Fault Refusal := s.act t (·.ptpMessage masterTime)

/-- CYC_DET_CHANGE (16 R448): the set-up of the gauge stands as it is. -/
def State.cycDetChange (s : State) (connected : Bool) : State := { s with gauge := { s.gauge with cycDet := connected } }

def execCycDetChange (t : Stitch) (connected : Bool) (s : State) : Host.Outcome State Fault Refusal := s.act t (·.cycDetChange connected)

/-! ### The gauge: set-up and read-out -/

/-- mode, source, quad_enable, edge_falling, counts_per_cycle of TIME_GAUGE_CONTROL (04 R124). -/
def gaugeMode (w : Word) : Nat := w.toNat % 4
def gaugeSource (w : Word) : Nat := w.toNat / 4 % 4
def gaugeQuad (w : Word) : Bool := w.getLsbD 4
def gaugeFalling (w : Word) : Bool := w.getLsbD 5
def gaugeCounts (w : Word) : Nat := w.toNat / 65536

/-- A write of TIME_GAUGE_CONTROL that R125 ignores. -/
def State.gaugeRefused (s : State) (w : Word) : Bool :=
  !s.jobs.isEmpty || (gaugeMode w == 0 && gaugeSource w != 0) || gaugeMode w == 3 || gaugeSource w == 3 ||
  (gaugeQuad w && (gaugeCounts w % 16 != 0 || decide (gaugeCounts w < 16) || decide (65520 < gaugeCounts w))) ||
  (gaugeSource w != 0 && !s.gauge.cycDet)

/-- Change the gauge's state, with a TIME record (15 R429). -/
def State.setGaugeState (s : State) (n : Nat) : State :=
  if s.gauge.state = n then s
  else ({ s with gauge := { s.gauge with state := n } }).traceTime s.gauge.state n 6

/-- TIME_GAUGE_CONTROL_WRITE: ignored and counted under R125; else the gauge restarts in acquiring, or stays off with mode 0,
and its measurements, records and read-out are cleared. -/
def State.gaugeControlWrite (s : State) (w : Word) : State :=
  if s.gaugeRefused w then s.count 2 1
  else ({ s with gauge := { s.gauge with
    control := w &&& 0xFFFF003F, lastEdge := none, intervals := [], agree := 0,
    periodQ := 0, cycle := 0, records := [], readout := 0, quadCount := 0, quadHigh := 0, quadStamps := [], mismatch := false,
    conflict := false, active := gaugeSource w == 1, missing := 0, coasted := 0, lastPulse := none } }).setGaugeState (if gaugeMode w = 0 then 0 else 1)

def execTimeGaugeControlWrite (t : Stitch) (value : Word) (s : State) : Host.Outcome State Fault Refusal :=
  s.act t (·.gaugeControlWrite value)

/-- TIME_GAUGE_DELAY_WRITE: ignored and counted while a job is open (04 R125). -/
def State.gaugeDelayWrite (s : State) (w : Word) : State :=
  if s.jobs.isEmpty then { s with gauge := { s.gauge with delay := w } } else s.count 2 1

def execTimeGaugeDelayWrite (t : Stitch) (value : Word) (s : State) : Host.Outcome State Fault Refusal :=
  s.act t (·.gaugeDelayWrite value)

/-- The gauge value a record gives at a stitch, by exact integer arithmetic (04 R140). -/
def gaugeAtStitch (r : GaugeRec) (t : Nat) : Int :=
  if r.periodQ = 0 then (r.value.toNat : Int)
  else (r.value.toNat : Int) + (((t : Int) - r.stitch) * 2 ^ 48) / (r.periodQ : Int)

/-- The latest kept record, newest first in the list. -/
def Gauge.latest (g : Gauge) : Option GaugeRec := g.records.head?

/-- The read-out at a stitch, which never decreases; 0 without a record (04 R139, R140).  DESIGN CHOICE (log 107): previous_readout is
the value of the last TIME_GAUGE read, not the greatest over all stitches. -/
def Gauge.readAt (g : Gauge) (t : Nat) : Nat :=
  match g.latest with
  | none => 0
  | some r => max g.readout (gaugeAtStitch r t).toNat

/-- TIME_GAUGE_READ (04 R124, R140). -/
def State.timeGaugeRead (s : State) : State :=
  let v := s.gauge.readAt s.stitch
  ({ s with gauge := { s.gauge with readout := v }, time := { s.time with gaugeAt := s.stitch } }).emit (.reply (le 8 v))

def execTimeGaugeRead (t : Stitch) (s : State) : Host.Outcome State Fault Refusal := s.actRead t 8 (·.timeGaugeRead)

/-! ### Binding (04 R144) -/

/-- A sub-record (04 R139). -/
def isSub (r : GaugeRec) : Bool := r.flags.getLsbD 0

/-- The stitch a record gives for a point: B.stitch + floor((P − B.value) × period_q ÷ 2^48) (04 R144). -/
def bindWith (b : GaugeRec) (p : Nat) : Nat :=
  ((b.stitch : Int) + ((((p : Int) - b.value.toNat) * b.periodQ) / 2 ^ 48)).toNat

/-- The greatest value that the binding record of a point may have: without QUAD the edge of the cycle before, with QUAD the last
boundary of a sub-interval at or below P − 2^29 (04 R144). -/
def bindValue (quad : Bool) (p : Nat) : Nat :=
  if quad then (p - 2 ^ 29) / 2 ^ 28 * 2 ^ 28 else (p / 2 ^ 32 - 1) * 2 ^ 32

/-- The earliest kept record beyond a value: the binding record can come no more. -/
def recordBeyond (recs : List GaugeRec) (v : Nat) : Option GaugeRec := (recs.filter (fun r => decide (v < r.value.toNat))).getLast?

/-- The binding record of a point among the kept ones, latest first: the record of the greatest value it may have; with QUAD, once a
later record shows that this one is missing, the latest record at most P − 2^29 (04 R144). -/
def bindingRecord (quad : Bool) (recs : List GaugeRec) (p : Nat) : Option GaugeRec :=
  let v := bindValue quad p
  (recs.find? (fun r => r.value.toNat == v)).or
    (if quad && (recordBeyond recs v).isSome then recs.find? (fun r => decide (r.value.toNat < v)) else none)

/-- The stitch a point is bound to, once its binding record has arrived.  Where that record has left the kept ones, or was skipped by a
resync, the point is taken from the earliest record beyond it: a point in the past launches or counts as reached at once
(04 R144, R145; the stitch of a point not yet past is not given: log 102). -/
def bindPoint (quad : Bool) (recs : List GaugeRec) (p : Nat) : Option Nat :=
  ((bindingRecord quad recs p).or (recordBeyond recs (bindValue quad p))).map (bindWith · p)

/-- A point that can have no binding record is refused (04 R144). -/
def unbindable (quad : Bool) (p : Nat) : Bool := if quad then decide (p < 2 ^ 29) else p / 2 ^ 32 == 0

/-- This module's gauge uses QUAD: its own set-up or the records it keeps say so (log 51). -/
def Gauge.quad (g : Gauge) : Bool := gaugeQuad g.control || g.records.any isSub

/-- A gauge deadline of a running operation is bound when its record arrives (09 R279). -/
def SolveRun.bind (r : SolveRun) (g : Gauge) : SolveRun :=
  if r.deadline.isNone then { r with deadline := r.gauge.bind (bindPoint g.quad g.records) } else r

/-- Bind every waiting AT_GAUGE course and step deadline that the kept records bind (04 R144). -/
def State.bindAll (s : State) : State :=
  let point := bindPoint s.gauge.quad s.gauge.records
  { s with
    courses := s.courses.map (fun (c : Course) =>
      let d := { c with run := c.run.map (fun r => r.bind s.gauge) }
      if d.launchKind = 3 ∧ d.launchStitch.isNone then { d with launchStitch := point d.launchPoint.toNat } else d)
    jobs := s.jobs.map (fun j =>
      let fix := fun (o : Option Step) => o.map (fun (p : Step) =>
        if p.deadlineKind = 1 ∧ p.deadline.isNone then { p with deadline := (point p.deadlineRaw.toNat).map (· + p.moved) } else p)
      { j with opened := fix j.opened, committing := fix j.committing }) }

/-- Keep a record: the last 64; one below the latest restarts the kept records, the read-out and its pulses (04 R124, R139). -/
def Gauge.keep (g : Gauge) (r : GaugeRec) : Gauge :=
  match g.latest with
  | some l => if r.value.toNat < l.value.toNat then { g with records := [r], readout := 0, lastPulse := none }
              else { g with records := (r :: g.records).take 64 }
  | none => { g with records := [r] }

/-- The 32 bytes of a record (04 R139). -/
def gaugeBytes (r : GaugeRec) : List Byte :=
  record 32 [(0, 8, r.value.toNat), (8, 8, r.stitch), (16, 8, r.periodQ), (24, 2, r.source.toNat), (26, 2, r.flags.toNat),
    (28, 4, r.sequence.toNat)]

/-- Issue a record from this source: kept here and flooded (04 R136, R139). -/
def State.issueRecord (s : State) (value stitch periodQ flags : Nat) : State :=
  let r : GaugeRec := { value := BitVec.ofNat 64 value, stitch := stitch, periodQ := periodQ, source := s.skein.device,
                        flags := BitVec.ofNat 16 flags, sequence := BitVec.ofNat 32 s.gauge.sequence }
  let g := s.gauge.keep r
  ({ s with gauge := { g with sequence := s.gauge.sequence + 1 }
            skein := { s.skein with gaugeSeen := (r.source, r.sequence) :: s.skein.gaugeSeen } }).bindAll.flood 0x21 none (gaugeBytes r)

/-! ### Edges (04 R137) -/

/-- The accepted period of a mode in stitches (04 R137). -/
def acceptedPeriod (mode : Nat) (i : Int) : Bool :=
  if mode = 1 then decide (14285715 ≤ i) && decide (i ≤ 25000000) else decide (1000000 ≤ i) && decide (i ≤ 2000000000)

/-- period_q of the accepted intervals held: the mean in 2^-16 stitch (04 R137). -/
def periodOf (l : List Nat) : Nat := if l.isEmpty then 0 else l.sum * 65536 / l.length

/-- Every interval agrees with their mean within 1% (04 R137). -/
def agreeing (l : List Nat) : Bool :=
  l.all (fun i => decide (100 * ((l.length * i : Int) - l.sum).natAbs ≤ l.sum))

/-- The interval is a glitch: less than half the period estimate (04 R137). -/
def Gauge.glitch (g : Gauge) (i : Int) : Bool := g.periodQ != 0 && decide (i * 131072 < g.periodQ)

/-- This source issues its records: active and without conflict (04 R141). -/
def Gauge.issues (g : Gauge) : Bool := g.active && !g.conflict

/-- The flags of a record of this source beside the given ones: bit 3 from a standby (04 R139). -/
def Gauge.flagsOf (g : Gauge) (f : Nat) : Nat := f + (if gaugeSource g.control = 2 then 8 else 0)

/-- Issue an edge record when this source issues records. -/
def State.edgeRecord (s : State) (stamp flags : Nat) : State :=
  if s.gauge.issues then s.issueRecord (s.gauge.cycle % 2 ^ 32 * 2 ^ 32) stamp s.gauge.periodQ (s.gauge.flagsOf flags) else s

/-- A new cycle begins at an edge: the QUAD count is checked and restarts (04 R138). -/
def Gauge.edgeQuad (g : Gauge) (stamp : Nat) : Gauge :=
  if gaugeQuad g.control then
    { g with mismatch := g.quadCount != (gaugeCounts g.control : Int), quadCount := 0, quadHigh := 0, quadStamps := (stamp :: g.quadStamps).take 17 }
  else g

/-- The records that the active source issues in a cycle: sixteen with QUAD (04 R138, R141). -/
def Gauge.perCycle (g : Gauge) : Nat := if g.records.any isSub then 16 else 1

/-- A standby source that misses two consecutive expected records becomes the active source, numbering from the last record
it holds, its phase included (04 R141; log 51). -/
def Gauge.takeOver (g : Gauge) (stamp : Nat) : Gauge :=
  if gaugeSource g.control = 2 && !g.active && g.periodQ != 0 then
    match g.latest with
    | some r => if 5 * g.periodQ ≤ (stamp - r.stitch) * 131072 * g.perCycle then
        { g with active := true, cycle := ((gaugeAtStitch { r with periodQ := g.periodQ } stamp).toNat + 2 ^ 31) / 2 ^ 32 - 1 }
      else g
    | none => g
  else g

/-- Edges return after coasting or loss: the cycle continues from the last record (04 R137). -/
def Gauge.resync (g : Gauge) (stamp : Nat) : Nat :=
  match g.latest with
  | some r => if g.periodQ = 0 then g.cycle + 1 else
      r.value.toNat / 2 ^ 32 + ((stamp - r.stitch) * 131072 + g.periodQ) / (2 * g.periodQ)
  | none => g.cycle + 1

/-- A taken edge in the states that number cycles: an accepted interval enters the estimate whatever the state; after edges return, the count of
accepted ones begins anew (04 R137). -/
def State.numberedEdge (s : State) (stamp : Nat) (accepted : Bool) (i : Nat) : State :=
  let g := (s.gauge.edgeQuad stamp).takeOver stamp
  let ivs := if accepted then (i :: g.intervals).take 8 else g.intervals
  let period := if accepted then periodOf ivs else g.periodQ
  if g.state = 3 ∨ g.state = 4 then
    (({ s with gauge := { g with cycle := g.resync stamp, lastEdge := some (stamp : Int), intervals := ivs, periodQ := period, agree := 0
                                 coasted := 0 } }).setGaugeState 5).edgeRecord stamp 4
  else
    let agree := if accepted then g.agree + 1 else 0
    let s1 := { s with gauge := { g with cycle := g.cycle + 1, lastEdge := some (stamp : Int), intervals := ivs, periodQ := period, agree := agree, coasted := 0 } }
    if g.state = 5 then (if 8 ≤ agree then (s1.setGaugeState 2).edgeRecord stamp 0 else s1.edgeRecord stamp 4)
    else s1.edgeRecord stamp 0

/-- A taken edge while acquiring: eight consecutive accepted intervals that agree within 1% lock the gauge at cycle 0.  DESIGN CHOICE
(log 103): while fewer than eight are held the agreement is with the mean of those held, an interval that disagrees restarts the count
at 0, and the estimate is the mean of those held. -/
def State.acquiringEdge (s : State) (stamp : Nat) (accepted : Bool) (i : Nat) : State :=
  let g := s.gauge.edgeQuad stamp
  let ivs := if accepted then i :: g.intervals else []
  let ok := agreeing ivs
  let kept := if ok then ivs else []
  let s1 := { s with gauge := { g with lastEdge := some (stamp : Int), intervals := kept, periodQ := periodOf kept, agree := kept.length } }
  if kept.length = 8 then (({ s1 with gauge := { s1.gauge with cycle := 0, coasted := 0 } }).setGaugeState 2).edgeRecord stamp 0 else s1

/-- A stamped edge: a glitch is ignored and restarts a count; a taken edge updates the estimate, the state and the cycle (04 R137). -/
def State.takeEdge (s : State) (stamp : Int) : State :=
  let g := s.gauge
  match g.lastEdge with
  | none => { s with gauge := { g.edgeQuad stamp.toNat with lastEdge := some stamp } }
  | some e =>
    let i := stamp - e
    if g.glitch i then
      (if g.state = 1 then { s with gauge := { g with intervals := [], agree := 0 } }
       else if g.state = 5 then { s with gauge := { g with agree := 0 } } else s)
    else
      let accepted := acceptedPeriod (gaugeMode g.control) i
      if g.state = 1 then s.acquiringEdge stamp.toNat accepted i.toNat else s.numberedEdge stamp.toNat accepted i.toNat

/-- Stitches from an edge at the pins to its stamp: 250 ± 20, fixed for a module and left open by the rule (16 R448; log 12). -/
def cycInDelay : Nat := 230 + Config.cycInPath % 41

/-- CYC_IN_EDGE: the loop changes its state and then keeps it for `hold` stitches.  An interval shorter than 1 µs is ignored with both its
edges; an edge of the selected sense on a connected source is stamped, less TIME_GAUGE_DELAY, and taken (04 R125, R137; 16 R448). -/
def State.cycInEdge (s : State) (falling : Bool) (hold : Nat) : State :=
  let g := s.gauge
  let s0 := { s with gauge := { g with bounce := none } }
  if g.bounce = some falling then s0
  else if hold < 1000 then { s with gauge := { g with bounce := some (!falling) } }
  else if gaugeSource g.control = 0 || gaugeMode g.control = 0 || !g.cycDet || falling != gaugeFalling g.control then s0
  else s0.takeEdge ((s.stitch + cycInDelay : Nat) - signed 32 g.delay.toNat)

def execCycInEdge (t : Stitch) (edge : LoopEdge) (s : State) : Host.Outcome State Fault Refusal :=
  s.act t (·.cycInEdge edge.falling edge.hold)

/-- The period the last sixteen sub-intervals imply (04 R138).  DESIGN CHOICE (log 104): before sixteen have been counted, the edge
estimate. -/
def Gauge.subPeriod (g : Gauge) (stamp : Nat) : Nat :=
  match g.quadStamps[15]? with
  | some old => (stamp - old) * 65536
  | none => g.periodQ

/-- The value of sub-record `j` of the cycle that the last edge began: the coasted records since then moved the cycle on. -/
def Gauge.subValue (g : Gauge) (j : Nat) : Nat := ((g.cycle - g.coasted) * 2 ^ 32 + j * 2 ^ 28) % 2 ^ 64

/-- Issue the sub-records from number `j`, `n` of them, at one stamp, while cycles are numbered; a multiple of a whole cycle has the
value of an edge or coasted record and issues none (04 R138; log 105). -/
def State.subRecords (s : State) (stamp : Nat) : Nat → Nat → State
  | 0, _ => s
  | n + 1, j =>
    let p := s.gauge.subPeriod stamp
    let s1 := { s with gauge := { s.gauge with quadStamps := (stamp :: s.gauge.quadStamps).take 17 } }
    let s2 := if s1.gauge.issues && (s1.gauge.state == 2 || s1.gauge.state == 3 || s1.gauge.state == 5) && j % 16 != 0 then
        s1.issueRecord (s1.gauge.subValue j) stamp p (s1.gauge.flagsOf 1) else s1
    State.subRecords s2 stamp n (j + 1)

/-- QUAD_COUNT: transitions are counted; each multiple of counts_per_cycle ÷ 16 first reached issues a sub-record, beyond the cycle's
last one only while the edge is missing; backward counts move nothing until forward counts make them good (04 R138; log 105). -/
def State.quadCounted (s : State) (counts : Int) : State :=
  let g := s.gauge
  if !gaugeQuad g.control || gaugeSource g.control = 0 then s
  else
    let unit : Int := (gaugeCounts g.control / 16 : Nat)
    let total := g.quadCount + counts
    let high := max g.quadHigh total
    let most := fun (n : Nat) => if g.state = 3 then n else min 15 n
    let from_ := most (g.quadHigh / unit).toNat
    let to_ := most (high / unit).toNat
    let stamp := ((s.stitch : Int) - signed 32 g.delay.toNat).toNat
    State.subRecords { s with gauge := { g with quadCount := total, quadHigh := high } } stamp (to_ - from_) (from_ + 1)

def execQuadCount (t : Stitch) (counts : Int) (s : State) : Host.Outcome State Fault Refusal := s.act t (·.quadCounted counts)

/-- GAUGE_COASTED_RECORD: no edge within 1.5 periods; the k-th coasted record carries E + floor(k × period_q ÷ 2^16); after the
64th the gauge is lost (04 R137).  DESIGN CHOICE (log 106): coasting begins after 1.5 periods, so the first record carries its own
stitch E + period and leaves only then. -/
def State.gaugeCoasted (s : State) : State :=
  let g := s.gauge
  match g.lastEdge with
  | none => s
  | some e =>
    if !(g.state == 2 || g.state == 3 || g.state == 5) || g.periodQ = 0 then s
    else
      let k := g.coasted + 1
      let due : Int := e + ((k * g.periodQ / 65536 : Nat) : Int)
      if (s.stitch : Int) < due ∨ ((s.stitch : Int) - e) * 131072 ≤ 3 * g.periodQ then s
      else
        let s1 := ({ s with gauge := { g with coasted := k, cycle := g.cycle + 1 } }).setGaugeState 3
        let s2 := s1.edgeRecord due.toNat 2
        if k = 64 then ((s2.setGaugeState 4).raiseTiming 3).timingError 3 sevInformational else s2

def execGaugeCoastedRecord (t : Stitch) (s : State) : Host.Outcome State Fault Refusal := s.act t (·.gaugeCoasted)

/-- GAUGE_RECORD_RECEIVED: the first copy is kept and forwarded, and binds what waits for it; an active source that hears a
lower-numbered active source sets gauge_conflict and issues nothing (04 R139, R141, R144; 10 R304).  DESIGN CHOICE (log 130): a standby that has
taken over goes on when the records of the former active source come again, and so does that source. -/
def State.gaugeReceived (s : State) (k : Nat) (r : GaugeRec) : State :=
  if (s.link k).state != 2 then s
  else if s.skein.gaugeSeen.contains (r.source, r.sequence) then s.heard k
  else
    let g := s.gauge.keep r
    let clash := gaugeSource g.control == 1 && !r.flags.getLsbD 3 && decide (r.source.toNat < s.skein.device.toNat)
    ({ s.heard k with gauge := { g with conflict := g.conflict || clash, active := g.active && !clash }
                      skein := { s.skein with gaugeSeen := (r.source, r.sequence) :: s.skein.gaugeSeen } }).bindAll.flood 0x21 (some k) (gaugeBytes r)

def execGaugeRecordReceived (t : Stitch) (link : Nat) (rec : GaugeRec) (s : State) : Host.Outcome State Fault Refusal :=
  s.act t (·.gaugeReceived link rec)

/-- CYC_OUT pulses now: enabled, gauge_state neither 0 off nor 4 lost, and a record within 1.5 periods (04 R124).  DEDUCED (log 108):
a receiving member with mode 0 reads 0 off and so gives no pulse; one with mode 1 or 2 reads acquiring and does. -/
def State.cycOutLive (s : State) : Bool :=
  s.time.outputControl.getLsbD 1 && s.gauge.state != 4 && s.gauge.state != 0 &&
  (match s.gauge.latest with
   | some r => decide ((s.stitch - r.stitch) * 131072 ≤ 3 * r.periodQ)
   | none => false)

/-- CYC_OUT_PULSE: a gauge cycle boundary has been crossed since the last pulse (04 R124). -/
def State.cycOutPulse (s : State) : State :=
  let cycle := s.gauge.readAt s.stitch / 2 ^ 32
  if s.cycOutLive && (match s.gauge.lastPulse with
      | some c => decide (c < cycle)
      | none => true) then
    ({ s with gauge := { s.gauge with lastPulse := some cycle } }).emit (.cycOut s.stitch)
  else s

def execCycOutPulse (t : Stitch) (s : State) : Host.Outcome State Fault Refusal := s.act t (·.cycOutPulse)

end Sys2Proof.Machine
end

