-- ==== Sys2Proof/Machine/Links.lean ====
section
/-! DEFINITION. Seam links: training, states, ports, acknowledgement and retry, control frames, and the forming of a skein
(10 R291 to R304, R308, R310). -/

namespace Sys2Proof.Machine

/-! ### Ports (10 R298) -/

/-- Two links may belong to one port: both up to one peer module at one rate. -/
def samePort (a b : Link) : Bool := a.up && a.state == b.state && a.rate == b.rate && a.peerSerial == b.peerSerial

/-- The port and the width of a link: an aligned group of four, else an aligned pair, else the link alone; down has none. -/
def portOf (ls : List Link) (k : Nat) : Option Nat × Nat :=
  let l := fun i => ls.getD i Link.reset
  let q := k / 4 * 4
  let h := k / 2 * 2
  if !(l k).up then (none, 0)
  else if samePort (l q) (l (q + 1)) && samePort (l q) (l (q + 2)) && samePort (l q) (l (q + 3)) then (some q, 4)
  else if samePort (l h) (l (h + 1)) then (some h, 2)
  else (some k, 1)

/-- The device number of a peer that belongs to the skein; 0xFFFF for a forerunner, for a stranger and when down (10 R313). -/
def Skein.deviceOf (x : Skein) (l : Link) : BitVec 16 :=
  if l.state = 2 && x.member then ((x.serials.find? (·.1 == l.peerSerial)).map (·.2)).getD 0xFFFF else 0xFFFF

/-- The direction byte of a link in a topology (10 R299, R313): of its set for a peer of the torus, valid with bit 6 in an all-to-all group;
0 for a link that leads to no member. -/
def Skein.directionOf (x : Skein) (l : Link) (k : Nat) : Byte :=
  if x.deviceOf l = 0xFFFF then 0
  else if x.topology = 2 then 0xC0
  else
    let set := k % 16 / 4
    directionByte (if x.dims ≤ set then set - 2 else set) (decide (16 ≤ k))

/-- Group the links into ports and name their peers and directions again. -/
def State.regroup (s : State) : State :=
  { s with links := s.links.zipIdx.map (fun p =>
      let g := portOf s.links p.2
      { p.1 with port := g.1, width := g.2, peerDevice := s.skein.deviceOf p.1, direction := s.skein.directionOf p.1 p.2 }) }

/-! ### Up and down (10 R291, R292) -/

/-- The direction of a link: the peer it leads to (10 R298). -/
def Link.dir (l : Link) : Nat := l.peerSerial.toNat

/-- The up links of a direction (10 R298). -/
def State.linksOf (s : State) (dir : Nat) : List Nat := (List.range 32).filter (fun k => (s.link k).state == 2 && (s.link k).dir == dir)

/-- A data frame (10 R294). -/
def isData (f : Frame) : Bool := f.frameType == 0x30 || f.frameType == 0x40

/-- A frame marked as a retransmission (10 R295). -/
def Frame.again (f : Frame) : Frame := { f with flags := f.flags ||| 1 }

/-- Give back the credit that a frame holds, to the port that it was taken from (10 R311). -/
def State.giveCredit (s : State) (r : Replay) : State :=
  { s with credits := s.credits.modify r.port (fun row => row.modify r.channel (fun c => min 128 (c + 1))) }

/-- A frame of a link that has not left at a stitch: its frame time is to come. -/
def Replay.unsent (r : Replay) (t : Nat) : Bool := decide (t < r.sentAt)

/-- What a link that is lost leaves for the other links of its direction: a frame whose frame time had not come is displaced with its
payload, any other is a retransmission (10 R308). -/
def Link.leftOver (l : Link) (k t : Nat) : List TxFrame :=
  ((l.resend ++ l.replay).filter (fun r => isData r.frame)).map (fun r =>
    { dir := l.dir, link := k, frame := if r.unsent t then r.frame else Frame.again r.frame, course := r.course, channel := r.channel,
      cold := false, filled := true, crossed := false, since := t, slot := r.slot, entry := r.entry, planned := none })

/-- The scheduled frames among them that are displaced. -/
def Link.lostPlanned (l : Link) (t : Nat) : Nat :=
  (l.replay.filter (fun r => r.unsent t && r.frame.frameType == 0x30 && !r.frame.flags.getLsbD 0)).length

/-- An emission is a frame of a link whose frame time lies beyond a stitch. -/
def Emission.beyond (e : Emission) (k t : Nat) : Bool :=
  match e with
  | .frame i leaves _ _ _ => i == k && decide (t < leaves)
  | _ => false

/-- A CUT frame (10 R294). -/
def isCut (f : Frame) : Bool := f.frameType == 0x13

/-- What a link still holds of a drain: data frames, or CUT frames that are not acknowledged (10 R310). -/
def Link.holdsCut (l : Link) : Bool :=
  (l.resend ++ l.replay).any (fun r => isData r.frame || isCut r.frame) || l.waiting.any (fun h => isCut h.frame)

/-- When a link is lost with frames of a drain on it, its own CUT frame, and those it carried for links lost before, are to be sent again, on the
next link of the direction (10 R310). -/
def State.recut (s : State) (k : Nat) : State :=
  if (s.link k).holdsCut then
    { s with links := s.links.zipIdx.map (fun p =>
        if p.2 = k ∨ (p.1.dir = (s.link k).dir ∧ p.1.state ≠ 2 ∧ p.1.cutMoved = true) then { p.1 with cutSent := false } else p.1) }
  else s

/-- A link goes down: what it has not sent is not sent; its data frames wait for the other links of its direction and give back their
credits; link_lost and an error record of class 7 report it; ports and the parent are chosen again (10 R292, R303, R308, R310, R311). -/
def State.linkDown (s : State) (k attempts : Nat) : State :=
  let l := s.link k
  let s0 := (l.resend ++ l.replay).foldl State.giveCredit (s.recut k)
  let s1 := s0.updLink k (fun l => { (l.takeBack l.replay s.stitch) with
    state := 0, rate := 0, attempts := attempts, replay := [], resend := [], waiting := [], uncInterval := 0, triedAt := s.stitch,
    displaced := satAdd 32 l.displaced (l.lostPlanned s.stitch), cutMoved := l.cutMoved || (l.state == 2 && s.cutStops) })
  let s2 := ({ s1 with txq := s1.txq ++ l.leftOver k s.stitch, out := s1.out.filter (fun e => !e.beyond k s.stitch) }).regroup.reparent.raiseFault 3
  s2.cper { cls := 7, sev := sevRecoverable, unit := 152 + k,
            detail := [BitVec.ofNat 8 k, 0, 0, 0, 0, 0, 0, 0] ++ le 8 l.peerSerial.toNat }

/-- The training and identity frame of a link: module serial, link number, die and generation 2 (10 R294; log 16). -/
def State.identityFrame (s : State) (k : Nat) : Frame :=
  controlFrame 0x12 (s.link k).peerDevice (le 8 s.dev.serial.toNat ++ le 1 k ++ le 1 (if k < 16 then 0 else 1) ++ le 1 2)

/-- A link starts to train: it sends its identity, and only training frames pass (10 R292, R294). -/
def State.linkTrain (s : State) (k : Nat) : State :=
  let s1 := s.updLink k (fun l => { l with state := 1, rate := 0, retrains := satAdd 16 l.retrains 1 })
  s1.sendUnnumbered k (s1.identityFrame k)

/-- Training reads the cable's identity and length from its two-wire bus (16 R453). -/
def State.readCable (s : State) (k : Nat) (cable : Option Cable) : State := s.updLink k (fun l => { l with cable := cable })

/-- LINK_TRAINING: a link that is down and has failed fewer than three retrains trains. -/
def State.linkTraining (s : State) (k : Nat) (cable : Option Cable) : State :=
  if (s.link k).state = 0 ∧ (s.link k).attempts < 3 then (s.linkTrain k).readCable k cable else s

def execLinkTraining (t : Stitch) (training : Training) (s : State) : Host.Outcome State Fault Refusal :=
  s.act t (·.linkTraining training.link training.cable)

/-- LINK_RETRY_TIMER: a link that failed three retrains tries again 1 s after its last failure (10 R292). -/
def State.linkRetry (s : State) (k : Nat) : State :=
  if (s.link k).state = 0 ∧ 3 ≤ (s.link k).attempts ∧ (s.link k).triedAt + 1000000000 ≤ s.stitch then s.linkTrain k else s

def execLinkRetryTimer (t : Stitch) (link : Nat) (s : State) : Host.Outcome State Fault Refusal := s.act t (·.linkRetry link)

/-- The link after a training that succeeded: sequence numbers begin anew; it takes plan frames only once it has rejoined
(10 R308). -/
def Link.trained (l : Link) (state rate now planFrom : Nat) : Link :=
  { l with state := state, rate := rate, attempts := 0, upSince := now, planFrom := planFrom, nextSeq := 0, expectSeq := 0,
           replay := [], resend := [], held := [], ackDue := false, waiting := [], uncInterval := 0, uncIntervalStart := now }

/-- LINK_UP: training ends at 400 or 200 Gbit/s, at 200 Gbit/s to a forerunner, or fails (10 R291, R292, R298). -/
def State.linkUp (s : State) (k : Nat) (r : TrainResult) : State :=
  if (s.link k).state != 1 then s
  else match r with
    | .failed => s.linkDown k (min 3 ((s.link k).attempts + 1))
    | .palrix rate =>
      (s.updLink k (fun l => l.trained 2 (if rate = 4 then 4 else 2) s.stitch counterMax)).regroup.reparent
    | .forerunner => (s.updLink k (fun l => l.trained 3 2 s.stitch counterMax)).regroup

/-- LINK_LOSS_OF_LOCK: a lane of a link that is up loses lock (10 R292). -/
def State.linkLoss (s : State) (k : Nat) : State := if (s.link k).up then s.linkDown k 0 else s

/-- LINK_PLAN_REJOIN: 1 ms after it came up the link takes plan frames again, from the next slot (10 R308). -/
def State.linkRejoin (s : State) (k : Nat) : State :=
  if (s.link k).state = 2 ∧ (s.link k).upSince + 1000000 ≤ s.stitch then s.updLink k (fun l => { l with planFrom := min l.planFrom s.stitch })
  else s

def execLinkPlanRejoin (t : Stitch) (link : Nat) (s : State) : Host.Outcome State Fault Refusal := s.act t (·.linkRejoin link)

/-! ### Acknowledgement and retry (10 R295) -/

/-- Free the kept frames of a link that a predicate names: their courses learn it, their credit returns. -/
def State.ackFrames (s : State) (k : Nat) (p : Replay → Bool) : State :=
  let gone := (s.link k).replay.filter p
  let s1 := s.updLink k (fun l => { l with replay := l.replay.filter (fun r => !p r) })
  gone.foldl (fun x r =>
    let y := x.giveCredit r
    match r.course with
    | some c => if isData r.frame then y.updCourse c (fun c => { c with acked := c.acked ++ [(r.frame.dest, r.frame.stream, r.frame.offset)] }) else y
    | none => y) s1

/-- The ack field frees every frame before the sequence number it names. -/
def State.ackUpTo (s : State) (k : Nat) (ack : BitVec 16) : State :=
  s.ackFrames k (fun r => decide ((ack - 1 - r.frame.seq).toNat < 32768))

/-- Send a kept frame again, or, when its eighth transmission has failed, take the link down (10 R292, R295). -/
def State.resendFrame (s : State) (k : Nat) (seq : BitVec 16) : State :=
  match (s.link k).replay.find? (fun r => r.frame.seq == seq) with
  | none => s
  | some r =>
    if 8 ≤ r.tries then s.linkDown k 0
    else s.updLink k (fun l => { l with replay := l.replay.filter (fun x => x.frame.seq != seq),
                                        resend := l.resend ++ [{ r with frame := Frame.again r.frame, sentAt := s.stitch }] })

/-- IDLE_FRAME_RECEIVED (10 R294). -/
def State.idleReceived (s : State) (k : Nat) (ack : BitVec 16) : State := if (s.link k).up then s.ackUpTo k ack else s

/-- ACK_FRAME_RECEIVED: the named frames are freed, the NAKed ones sent again (10 R294, R295). -/
def State.ackReceived (s : State) (k : Nat) (acks naks : List (BitVec 16)) : State :=
  if (s.link k).up then naks.foldl (fun x q => x.resendFrame k q) ((s.heard k).ackFrames k (fun r => acks.contains r.frame.seq)) else s

/-- RETRANSMIT_TIMEOUT: a frame has gone unacknowledged for 2,048 stitches (10 R295). -/
def State.resendTimeout (s : State) (k : Nat) (seq : BitVec 16) : State :=
  if (s.link k).replay.any (fun r => r.frame.seq == seq && decide (r.sentAt + 2048 ≤ s.stitch)) then s.resendFrame k seq else s

/-- The explicit acknowledgement of a link: the numbers it holds beyond a gap, and NAKs (10 R294, R295; log 16). -/
def State.sendAckList (s : State) (k : Nat) (naks : List (BitVec 16)) : State :=
  let acks := (s.link k).held.take 100
  s.sendControl k 0x10 (s.link k).peerDevice (le 2 acks.length ++ le 2 naks.length ++ (acks ++ naks).flatMap (fun q => le 2 q.toNat))

/-- UNCORRECTABLE_FRAME: counted, discarded and NAKed, so that its number is settled; more than 16 in one delay-measurement interval take the link down
(10 R292, R295, R313). -/
def State.uncorrectableFrame (s : State) (k : Nat) (seq : BitVec 16) : State :=
  if !(s.link k).up then s
  else
    let s1 := s.updLink k (fun l => { l with uncorrectable := satAdd 16 l.uncorrectable 1, uncInterval := l.uncInterval + 1 })
    if 16 < (s1.link k).uncInterval then s1.linkDown k 0
    else (s1.updLink k (·.received seq)).sendAckList k [seq]

/-! ### Control frames (10 R294) -/

/-- DELAY_FRAME_RECEIVED: the stamps t1 and t2 are kept and answered with the stitch of the reply (04 R127). -/
def State.delayFrame (s : State) (k t1 t2 : Nat) : State :=
  if (s.link k).up then
    ((s.heard k).updLink k (fun l => { l with stamp1 := t1, stamp2 := t2 })).sendControl k 0x11 (s.link k).peerDevice (le 8 t1 ++ le 8 t2 ++ le 8 s.stitch)
  else s

def execDelayFrameReceived (t : Stitch) (link t1 t2 : Nat) (s : State) : Host.Outcome State Fault Refusal :=
  s.act t (·.delayFrame link t1 t2)

/-- TRAINING_FRAME_RECEIVED: the peer's identity, on a link that trains or is up; a training link answers with its own
(10 R292, R294). -/
def State.trainingFrame (s : State) (k : Nat) (serial : Dword) (peerLink die generation : Nat) : State :=
  if (s.link k).state = 0 then s
  else
    let s1 := (s.updLink k (fun l => { l with peerSerial := serial, peerLink := peerLink, peerDie := die, peerGen := generation })).regroup
    if (s.link k).state = 1 then s1.sendUnnumbered k (s1.identityFrame k) else s1.reparent

def execTrainingFrameReceived (t : Stitch) (link : Nat) (serial : Dword) (peerLink die generation : Nat) (s : State) :
    Host.Outcome State Fault Refusal :=
  s.act t (·.trainingFrame link serial peerLink die generation)

/-- CUT_FRAME_RECEIVED: the link's part of the cut needs every frame up to the named one (10 R310). -/
def State.cutFrame (s : State) (k : Nat) (_cut : Nat) (lastSeq : BitVec 16) : State :=
  if (s.link k).state = 2 then (s.heard k).updLink k (fun l => { l with cutNeed := some lastSeq, cutHeard := l.cutHeard + 1 }) else s

def execCutFrameReceived (t : Stitch) (link cutStitch : Nat) (lastSeq : BitVec 16) (s : State) : Host.Outcome State Fault Refusal :=
  s.act t (·.cutFrame link cutStitch lastSeq)

/-- The frame types of R294. -/
def knownTypes : List Byte := [0x00, 0x10, 0x11, 0x12, 0x13, 0x20, 0x21, 0x22, 0x23, 0x30, 0x40]

/-- UNKNOWN_FRAME_DROPPED: a frame of any other type is dropped and counted (10 R294). -/
def State.unknownFrame (s : State) (k : Nat) (type : Byte) : State :=
  if (s.link k).up && !(knownTypes.contains type) then s.count 11 1 else s

def execUnknownFrameDropped (t : Stitch) (link : Nat) (frameType : Byte) (s : State) : Host.Outcome State Fault Refusal :=
  s.act t (·.unknownFrame link frameType)

/-! ### Topologies (10 R299, R300) -/

/-- The dimension of a set of four West links: of set d, and of set d + 2 cabled beside it where a torus of one or two dimensions does so. -/
def dimOfSet (dims : Nat) (parallel : Bool) (set : Nat) : Option Nat :=
  if set < dims then some set
  else if parallel && decide (dims ≤ 2) && decide (2 ≤ set) && decide (set < dims + 2) then some (set - 2) else none

/-- A cable named from its West end. -/
def Wire.west (w : Wire) : Wire :=
  if w.fromLink < 16 then w else { fromSerial := w.toSerial, fromLink := w.toLink, toSerial := w.fromSerial, toLink := w.fromLink }

/-- A wire of the torus form: West link 4d + i to East link 16 + 4d + i, to another module, of a set that the dimensions have. -/
def torusWire (dims : Nat) (par : Bool) (w : Wire) : Bool :=
  decide (w.fromLink < 16) && w.toLink == w.fromLink + 16 && w.fromSerial != w.toSerial && (dimOfSet dims par (w.fromLink / 4)).isSome

/-- The links of one set that a module uses, as they stand in it. -/
def setLinks (ws : List Wire) (m : Dword) (set : Nat) : List Nat :=
  (List.range 4).filter (fun i => ws.any (fun w => w.fromSerial == m && w.fromLink == 4 * set + i))

/-- A port narrower than four uses the first links of its set. -/
def firstLinks (used : List Nat) : Bool := used == [0] || used == [0, 1] || used == [0, 1, 2, 3]

/-- The + neighbour of a module in a dimension. -/
def plusOf (ws : List Wire) (dims : Nat) (par : Bool) (m : Dword) (d : Nat) : Option Dword :=
  (ws.find? (fun w => w.fromSerial == m && dimOfSet dims par (w.fromLink / 4) == some d)).map (·.toSerial)

/-- Walk n steps in the + direction. -/
def walk (ws : List Wire) (dims : Nat) (par : Bool) (d : Nat) : Nat → Dword → Option Dword
  | 0, m => some m
  | n + 1, m => (plusOf ws dims par m d).bind (walk ws dims par d n)

/-- The extent of a dimension: the steps from the origin back to it, at most 16; 0 when the ring does not close. -/
def extentOf (ws : List Wire) (dims : Nat) (par : Bool) (origin : Dword) (d : Nat) : Nat :=
  (((List.range 17).drop 2).find? (fun n => walk ws dims par d n origin == some origin)).getD 0

/-- The module at a device number of a torus. -/
def serialAt (ws : List Wire) (dims : Nat) (par : Bool) (ext : List Nat) (origin : Dword) (n : Nat) : Option Dword :=
  let x := coordsOf ext n
  (List.range dims).foldl (fun m d => m.bind (walk ws dims par d (x.getD d 0))) (some origin)

/-- A candidate topology: dimensions (0 for all-to-all), extents, and the serials in device order. -/
structure Topology where
  dims : Nat
  extents : List Nat
  order : List Dword

/-- A module's place in a candidate. -/
def Topology.place (t : Topology) (m : Dword) : Option Nat := t.order.findIdx? (· == m)

/-- The candidate of a number of dimensions: the coordinates found from the lowest serial on. -/
def candidate (ws : List Wire) (ms : List Dword) (dims : Nat) (par : Bool) : Topology :=
  let origin := ms.foldl (fun a b => if b.toNat < a.toNat then b else a) (ms.headD 0)
  let ext := (List.range dims).map (extentOf ws dims par origin)
  let four := (ext ++ List.replicate 4 1).take 4
  { dims := dims, extents := four, order := (List.range (ext.foldl (· * ·) 1)).filterMap (serialAt ws dims par four origin) }

/-- The place one step up a dimension. -/
def Topology.next (t : Topology) (a d : Nat) : List Nat :=
  let x := coordsOf t.extents a
  x.set d ((x.getD d 0 + 1) % max (t.extents.getD d 1) 1)

/-- A wire fits a candidate: of the torus form, among the first links of its set, and to the module one step up its dimension. -/
def Topology.wireFits (t : Topology) (ws : List Wire) (par : Bool) (w : Wire) : Bool :=
  torusWire t.dims par w && firstLinks (setLinks ws w.fromSerial (w.fromLink / 4)) &&
  (match t.place w.fromSerial, t.place w.toSerial, dimOfSet t.dims par (w.fromLink / 4) with
   | some a, some b, some d => t.next a d == coordsOf t.extents b
   | _, _, _ => false)

/-- The link of a module whose direction lacks a wire: the first of its set. -/
def missingLink (ws : List Wire) (ms : List Dword) (dims : Nat) : Option Nat :=
  (ms.flatMap (fun m => (List.range dims).map (fun d => (m, d)))).findSome? (fun (p : Dword × Nat) =>
    if (setLinks ws p.1 p.2).isEmpty then some (4 * p.2) else none)

/-- The torus that wires form with a number of dimensions: every ring closes, every member has one place and a + port in every dimension,
and the coordinates found along every wire agree (10 R299, R300). -/
def torusOf (ws0 : List Wire) (ms : List Dword) (dims : Nat) (par : Bool) : Option Topology :=
  let ws := ws0.map Wire.west
  let t := candidate ws ms dims par
  let n := (t.extents.take dims).foldl (· * ·) 1
  if (t.extents.take dims).all (· != 0) && n == ms.length && t.order.length == n && ms.all t.order.contains && t.order.all ms.contains &&
     (missingLink ws ms dims).isNone && ws.all (t.wireFits ws par) then some t else none

/-- The first offending link of wires that form no topology: of the first wire that does not fit the torus of the sets in use, else the first
link of a direction without a wire (10 R300; which torus is meant is not given: log 113). -/
def offender (ws0 : List Wire) (ms : List Dword) : Nat :=
  let ws := ws0.map Wire.west
  let dims := max 1 (min 4 ((ws.map (fun w => w.fromLink % 16 / 4 + 1)).foldl max 0))
  let t := candidate ws ms dims false
  (((ws.find? (fun w => !t.wireFits ws false w)).map (·.fromLink)).or (missingLink ws ms dims)).getD 0

/-- The peer of a module's link over the wires, taken in either sense. -/
def peerOver (ws : List Wire) (m : Dword) (k : Nat) : Option Dword :=
  ws.findSome? (fun w => if w.fromSerial == m && w.fromLink == k then some w.toSerial
    else if w.toSerial == m && w.toLink == k then some w.fromSerial else none)

/-- The width of the port of a module's link over the wires (10 R298). -/
def widthOver (ws : List Wire) (m : Dword) (k : Nat) : Nat :=
  let p := fun i => peerOver ws m i
  let q := k / 4 * 4
  let h := k / 2 * 2
  if p q == p k && p (q + 1) == p k && p (q + 2) == p k && p (q + 3) == p k then 4
  else if p h == p k && p (h + 1) == p k then 2 else 1

/-- Serials in ascending order. -/
def sortSerials (ms : List Dword) : List Dword :=
  ms.foldl (fun acc m => acc.takeWhile (fun x => decide (x.toNat < m.toNat)) ++ [m] ++ acc.dropWhile (fun x => decide (x.toNat < m.toNat))) []

/-- The all-to-all group that wires form: 2 to 33 modules, every pair joined, every port of one width (10 R299). -/
def groupOf (ws : List Wire) (ms : List Dword) : Option Topology :=
  let used := ms.flatMap (fun m => ((List.range 32).filter (fun k => (peerOver ws m k).isSome)).map (fun k => widthOver ws m k))
  let joined := ms.all (fun a => ms.all (fun b => a == b || (List.range 32).any (fun k => peerOver ws a k == some b)))
  if 2 ≤ ms.length && ms.length ≤ 33 && joined && used.all (· == used.headD 0) then
    some { dims := 0, extents := [1, 1, 1, 1], order := sortSerials ms }
  else none

/-- The topology of R299 that wires and members match. -/
def topologyOf (ws : List Wire) (ms : List Dword) : Option Topology :=
  ([(1, false), (2, false), (3, false), (4, false), (1, true), (2, true)].findSome? (fun c => torusOf ws ms c.1 c.2)).or (groupOf ws ms)

/-- No skein forms: the module stands alone, and an error record names the first offending link (10 R300). -/
def State.noSkein (s : State) (ws : List Wire) (ms : List Dword) : State :=
  let k := offender ws ms
  (({ s with skein := Skein.none
             time := { s.time with role := 3, masterValid := false, standbys := fourStandbys [] } }).regroup).cper
    { cls := 7, sev := sevRecoverable, unit := 152 + k
      detail := [BitVec.ofNat 8 k, BitVec.ofNat 8 (s.link k).state, 0, 0, 0, 0, 0, 0] ++ le 8 (s.link k).peerSerial.toNat }

/-- This module's place in a formed skein. -/
def State.joinSkein (s : State) (t : Topology) (place : Nat) : State :=
  let serials : List (Dword × BitVec 16) := t.order.zipIdx.map (fun (p : Dword × Nat) => (p.1, BitVec.ofNat 16 p.2))
  let sk : Skein := { topology := if t.dims = 0 then 2 else 1, dims := t.dims, extents := t.extents,
                      coords := if t.dims = 0 then [0, 0, 0, 0] else coordsOf t.extents place, members := t.order.length, member := true,
                      device := BitVec.ofNat 16 place, serials := serials, parent := none, formed := s.stitch,
                      lowest := if t.dims = 0 then (sortSerials t.order).headD 0 else t.order.headD 0, seen := [], gaugeSeen := [], infos := [], reports := [] }
  ({ s with skein := sk }).regroup

/-- What members say of themselves, with the device numbers of the topology. -/
def numberMembers (t : Topology) (ms : List MemberInfo) : List MemberInfo :=
  ms.map (fun m => { m with device := BitVec.ofNat 16 ((t.order.findIdx? (· == m.serial)).getD 0xFFFF) })

/-- SKEIN_FORMATION: deferred while a skein job is open; the wiring matches a topology and the members are numbered, the roles
elected, and a member with no job open will step to the skein's time at its parent's first message; or no skein forms
(10 R300, R301; 04 R122, R126).  DESIGN CHOICE (log 130): at every forming all members but the master join, those of a skein before it too. -/
def State.skeinFormation (s : State) (ws : List Wire) (ms : List MemberInfo) : State :=
  if s.jobs.any (·.skein) then s
  else
    let known := fun (m : Dword) => ms.any (fun i => i.serial == m)
    let ws := ws.filter (fun w => known w.fromSerial && known w.toSerial)
    match topologyOf ws (ms.map (·.serial)) with
    | none => s.noSkein ws (ms.map (·.serial))
    | some t =>
      match t.order.findIdx? (· == s.dev.serial) with
      | none => s.noSkein ws (ms.map (·.serial))
      | some place =>
        let infos := numberMembers t ms
        let s1 := s.joinSkein t place
        let s2 := ({ s1 with skein := { s1.skein with infos := infos }, time := s1.time.elected }).elect infos infos
        ({ s2 with time := { s2.time with joining := s2.time.role != 1 && s.jobs.isEmpty, lastMaster := s.stitch } }).sendElection none

def execSkeinFormation (t : Stitch) (wires : List Wire) (members : List MemberInfo) (s : State) : Host.Outcome State Fault Refusal :=
  s.act t (·.skeinFormation wires members)

end Sys2Proof.Machine
end

