-- ==== Sys2Proof/Machine/Needles.lean ====
section
/-! DEFINITION. Physical needles: sample counters, suspects, attributable mismatches, row maps, retirement and the spare map
(01 R27 to R29, 05 R152, 13 R368, R373, R374). -/

namespace Sys2Proof.Machine

/-- A needle is suspect, whatever else its state says (13 R373). -/
def Needle.isSuspect (n : Needle) : Bool := n.state == .suspect || n.suspectToo

/-- A needle may compute: not retired, not about to be, not spare (13 R369, R374). -/
def Needle.serves (n : Needle) : Bool := n.state == .enabled || n.state == .suspect

/-- A byte of a needle's pocket, and one of a panel store: what the draw that last filled it gives (01 R18, R19). -/
def State.pocketByte (s : State) (u a : Nat) : Byte := Config.storeByte (s.needle u).store.pocket u (a % 2097152)
def State.panelByte (s : State) (p a : Nat) : Byte := Config.storeByte (s.panelStores.getD p 0) (144 + p) (a % 16777216)

/-- A needle's registers as a draw leaves them. -/
def LocalStore.drawRegisters (l : LocalStore) (n u : Nat) : LocalStore :=
  { l with vectors := (List.range 32).map (Config.vectorRegister n u), masks := (List.range 8).map (fun i => Config.vectorRegister n u (32 + i)) }

/-- Work on some needles, and in the stores of some panels, leaves contents there that no rule states: free values (01 R18, R19; 07 R207). -/
def State.fillStores (s : State) (us ps : List Nat) : State :=
  let s1 := us.foldl (fun x u => x.updNeedle u (fun k => { k with store := { k.store with pocket := s.freeCtr }.drawRegisters s.freeCtr u })) s
  { s1 with panelStores := ps.foldl (fun l p => l.set p s.freeCtr) s1.panelStores, freeCtr := s.freeCtr + 1 }

/-- The registers of some needles lose their contents with their logic power; the pockets are in retention (14 R394). -/
def State.loseRegisters (s : State) (us : List Nat) : State :=
  { (us.foldl (fun x u => x.updNeedle u (fun k => { k with store := k.store.drawRegisters s.freeCtr u })) s) with freeCtr := s.freeCtr + 1 }

/-- A value drawn uniformly from 1 to 2^(n + 1) − 1 (13 R368). -/
def State.drawSample (s : State) (n : Nat) : Nat := Config.random s.freeCtr % (2 ^ (n + 1) - 1) + 1

/-- Load a needle's sample counter: n is 6 for a suspect needle, SWATCH_RATE_LOG2 otherwise (13 R368). -/
def State.loadSample (s : State) (u : Nat) : State :=
  let n := if (s.needle u).isSuspect then 6 else s.cfg.fields.swatchRateLog2
  { (s.updNeedle u (fun x => { x with sample := s.drawSample n })) with freeCtr := s.freeCtr + 1 }

/-- A needle becomes suspect; its 1,000,000 tiles without incident begin anew (13 R373). -/
def State.makeSuspect (s : State) (u : Nat) : State :=
  s.updNeedle u (fun x => match x.state with
    | .enabled => { x with state := .suspect, clean := 0 }
    | .retired => x
    | .suspect => { x with clean := 0 }
    | _ => { x with suspectToo := true, clean := 0 })

/-- A needle stops being suspect. -/
def State.clearSuspect (s : State) (u : Nat) : State :=
  s.updNeedle u (fun x => { x with state := if x.state = .suspect then .enabled else x.state, suspectToo := false })

/-- The window of R374: eligible tiles a needle writes. -/
def windowTiles : Nat := 1000000

/-- A needle has written eligible tiles: its attributable mismatches age out of the window (13 R373, R374). -/
def Needle.wrote (x : Needle) (n : Nat) : Needle :=
  { x with attributable := (x.attributable.map (· + n)).filter (fun a => decide (a < windowTiles)), clean := x.clean + n }

/-- A course runs on a needle, or a test item does. -/
def State.needleBusy (s : State) (u : Nat) : Bool := (s.onNeedle u).isSome

/-- The spares of the die of a needle (01 R27). -/
def State.dieSpares (s : State) (u : Nat) : List Nat :=
  (List.range 144).filter (fun v => v / 72 == u / 72 && (s.needle v).state == .spare)

/-- One of a list, by a free value. -/
def State.freeOf (s : State) (l : List Nat) : Nat × State := (l.getD (s.free.1.toNat % max l.length 1) 0, s.free.2)

/-- The spare that takes the number of a retired needle: one of its own panel (the case of the worked example of 13), otherwise a free one of
the die (log 21). -/
def State.spareOf (s : State) (u : Nat) : Option Nat × State :=
  let l := s.dieSpares u
  match l.find? (fun v => v / 12 == u / 12) with
  | some v => (some v, s)
  | none => if l.isEmpty then (none, s) else (some (s.freeOf l).1, (s.freeOf l).2)

/-- A course that still waits for a panel follows a logical needle into another one, but a confined course stays (01 R28, 05 R176). -/
def State.followNeedle (s : State) (l v u : Nat) (c : Course) : State :=
  if !c.live || c.confined || !c.needles.contains l || c.launchedUnits.contains (.panel (u / 12)) || c.place l != u / 12 then s
  else
    let places := c.places.map (fun e => if e.1 = l then (l, v / 12) else e)
    let panels := (List.range 12).filter (fun p => places.any (·.2 == p))
    let s1 := s.updCourse c.id (fun d => { d with places := places, panels := panels })
    if c.status != .queued then s1
    else
      let s2 := if panels.contains (u / 12) then s1
        else { (s1.leaveQueue (.panel (u / 12)) c.id) with hold := s1.hold.filter (fun e => e != (.panel (u / 12), c.id)) }
      if c.panels.contains (v / 12) then s2 else s2.insertCourse (.panel (v / 12)) c.id

/-- Take a needle out of service now: a spare of the die takes its logical number, or the number becomes unmapped;
needle_retired is set and an error record of class 3 written (01 R27, R29; 13 R374, R386). -/
def State.retireNow (s : State) (u reason : Nat) : State :=
  let l := s.logicalOf u
  let pick := if l.isSome then s.spareOf u else (none, s)
  let sp := pick.1
  let s1 := pick.2.updNeedle u (fun x => { x with state := .retired, suspectToo := false, retireReason := reason, item := none })
  let s2 := match l with
    | some l => { s1 with spareMap := s1.spareMap.set l sp }
    | none => s1
  let s3 := match sp, l with
    | some v, some l =>
      s2.courses.foldl (fun (x : State) c => x.followNeedle l v u c)
        (s2.updNeedle v (fun x => { x with state := if x.suspectToo then .suspect else .enabled, suspectToo := false }))
    | _, _ => s2
  (s3.raiseFault 1).cper
    { cls := 3, sev := sevRecoverable, unit := u
      detail := [BitVec.ofNat 8 u, BitVec.ofNat 8 (l.getD 0xFF), BitVec.ofNat 8 reason, BitVec.ofNat 8 (sp.getD 0xFF)] }

/-- Retire a needle: at once when no course runs on it, otherwise at the boundary after its current course (13 R374). -/
def State.retire (s : State) (u reason : Nat) : State :=
  if (s.needle u).state = .retired ∨ (s.needle u).state = .pending then s
  else if s.needleBusy u then
    s.updNeedle u (fun x => { x with suspectToo := x.isSuspect, state := .pending, retireReason := reason })
  else s.retireNow u reason

/-- A confined course keeps the spare map from changing under it (05 R176). -/
def State.mapWaits (s : State) (c : Course) (u : Nat) : Bool :=
  let l := s.dieSpares u
  c.confined && !l.isEmpty && l.all (fun v => v / 12 != u / 12)

/-- A confined course that has launched in the panel of a needle, and has not ended, keeps the needle's number where it is
(05 R176). -/
def State.heldByCourse (s : State) (u : Nat) : Bool :=
  s.courses.any (fun c => c.live && c.status != .frogged && !c.launchedUnits.isEmpty && s.mapWaits c u &&
    (match s.logicalOf u with
     | some l => c.needles.contains l && c.place l == u / 12
     | none => false))

/-- Retirements that waited for a course boundary take effect on the needles that are free now. -/
def State.retireFree (s : State) : State :=
  (List.range 144).foldl (fun x u =>
    if (x.needle u).state = .pending && !x.needleBusy u && !x.heldByCourse u then x.retireNow u (x.needle u).retireReason else x) s

/-- One attributable mismatch of a needle: the third within the window retires it (13 R374); reason 1 attribution, 2 test
failure. -/
def State.attribute (s : State) (u reason : Nat) : State :=
  let s1 := s.updNeedle u (fun x => { x with attributable := x.attributable ++ [0] })
  if 3 ≤ (s1.needle u).attributable.length then s1.retire u reason else s1

/-- A failed row is mapped out onto an unused spare row, counted and reported; with both in use the needle is retired
(05 R152, 13 R374, R386). -/
def State.mapRow (s : State) (u row reason : Nat) : State :=
  let used := (s.needle u).rowsOut.length
  if used < 2 then
    ((s.updNeedle u (fun x => { x with rowsOut := x.rowsOut ++ [row], failedRow := none })).count 3 1).cper
      { cls := 4, sev := sevCorrected, unit := u, detail := [BitVec.ofNat 8 row, BitVec.ofNat 8 used] }
  else (s.updNeedle u (fun x => { x with failedRow := none })).retire u reason

/-- Before a needle runs another course the Hook maps in an unused spare row for a row that failed (05 R152). -/
def State.mapFailedRows (s : State) : State :=
  (List.range 144).foldl (fun x u => match (x.needle u).failedRow with
    | some r => if x.needleBusy u then x else x.mapRow u r 3
    | none => x) s

/-! ### The spare map at cast-on (01 R27) -/

/-- Needles of a die that are not retired. -/
def availableOn (ns : List Needle) (die : Nat) : List Nat :=
  ((List.range 72).map (· + 72 * die)).filter (fun u => (ns.getD u (Needle.reset u)).state != .retired)

/-- Free spares of a die: as many as asked, each in a panel of its own. -/
def State.pickSpares : Nat → List Nat → List Nat → State → List Nat × State
  | 0, _, _, s => ([], s)
  | n + 1, panels, avail, s =>
    let p := s.freeOf (panels.filter (fun p => avail.any (fun u => u / 12 == p)))
    let u := p.2.freeOf (avail.filter (fun u => u / 12 == p.1))
    let r := pickSpares n (panels.erase p.1) avail u.2
    (u.1 :: r.1, r.2)

/-- A list in a free order. -/
def State.freeOrder : Nat → List Nat → State → List Nat × State
  | 0, _, s => ([], s)
  | n + 1, l, s =>
    let u := s.freeOf l
    let r := freeOrder n (l.erase u.1) u.2
    (u.1 :: r.1, r.2)

/-- The spares and the logical numbers of a die: as many spares as needles exceed 68, in free places of as many free panels that have lost no
needle, so that a panel gives up at most one; the other
needles take the logical numbers in a free order, and numbers without a needle are unmapped (log 21). -/
def State.dieMap (s : State) (die : Nat) : (List Nat × List (Option Nat)) × State :=
  let avail := availableOn s.needles die
  let whole := ((List.range 6).map (· + 6 * die)).filter (fun p => (avail.filter (fun u => u / 12 == p)).length == 12)
  let sp := s.pickSpares (avail.length - 68) whole avail
  let used := avail.filter (fun u => !sp.1.contains u)
  let o := sp.2.freeOrder used.length used
  ((sp.1, (o.1.map some ++ List.replicate 68 none).take 68), o.2)

/-- Build the spare map, and every needle's state with it. -/
def State.buildSpareMap (s : State) : State :=
  let w := s.dieMap 0
  let e := w.2.dieMap 1
  let spares := w.1.1 ++ e.1.1
  let t := e.2
  { t with
    spareMap := w.1.2 ++ e.1.2
    needles := t.needles.zipIdx.map (fun (p : Needle × Nat) =>
      if p.1.state = .retired then p.1
      else if spares.contains p.2 then { p.1 with suspectToo := p.1.isSuspect, state := .spare }
      else { p.1 with state := if p.1.isSuspect then .suspect else .enabled, suspectToo := false }) }

end Sys2Proof.Machine
end

