-- ==== Sys2Proof/Machine/Records.lean ====
section
/-! DEFINITION. The state records that COUNTERS_READ returns (08 R232, 10 R313, 12 R349, 13 R376, 15 R436), the COUNTERS window
(15 R419 to R423), and the image of a checkpoint (12 R360), whose length the memory record needs. -/

namespace Sys2Proof.Machine

/-! ### Counters -/

/-- Thirty-two zero counters. -/
def noCounters : List Nat := List.replicate 32 0

/-- The job block of a job: its counters when it is open (15 R423). -/
def State.jobBlock (s : State) (id : Word) : List Nat × Bool :=
  match s.job? id with
  | some j => (j.counters, true)
  | none => (noCounters, false)

/-- Counters as 64-bit fields. -/
def counterBytes (l : List Nat) : List Byte := l.flatMap (le 8)

/-- The window bytes 0x0000 to 0x73FF of a snapshot (15 R420, R434). -/
def windowBytes (stitch : Nat) (job : Word) (isOpen : Bool) (ports events jobs : List Nat) (units : List (List Nat)) : List Byte :=
  slice (record 24 [(8, 8, stitch), (16, 4, job.toNat), (20, 4, if isOpen then 1 else 0)]) 0 0x100 ++
  slice (counterBytes ports) 0 0x100 ++ slice (counterBytes events) 0 0x600 ++ slice (counterBytes jobs) 0 0x800 ++
  units.flatMap counterBytes

/-- The copy that COUNTERS_READ selector 0 takes at acceptance, with the block of the command's job (15 R434). -/
def State.snapshotCopy (s : State) (id : Word) : List Byte :=
  let b := s.jobBlock id
  windowBytes s.stitch id b.2 s.cnt.ports s.cnt.events b.1 s.cnt.units

/-- Take the snapshot of the window (15 R419, R420). -/
def State.takeSnapshot (s : State) : State :=
  let b := s.jobBlock s.cnt.jobSelect
  { s with cnt := { s.cnt with snapUnits := s.cnt.units, snapEvents := s.cnt.events
                               snapPorts := s.cnt.ports.zipIdx.map (fun p => if s.links.any (·.port == some p.2) then p.1 else 0), snapJob := b.1
                               snapStitch := s.stitch, jobStatus := b.2 } }

/-! ### Job scale state (08 R232) -/

/-- A history entry. -/
def Hist.bytes (h : Hist) : List Byte :=
  record 16 [(0, 4, h.tensorId.toNat), (4, 1, h.format), (5, 1, h.kind), (6, 1, h.maxima.length), (7, 1, h.scaleCode),
    (8, 8, if h.maxima.isEmpty then counterMax else h.newestStep)] ++ slice (h.maxima.flatMap (fun m => le 4 m.toNat)) 0 64

/-- The record of R232. -/
def Scale.bytes (x : Scale) : List Byte :=
  record 40 [(0, 4, 0x53535850), (4, 2, 1), (6, 1, unsigned 8 x.g), (8, 8, x.lastStep.getD counterMax), (16, 8, x.commits),
    (24, 4, x.clean), (28, 4, min x.skips 0xFFFFFFFF), (32, 4, x.hists.length)] ++ x.hists.flatMap Hist.bytes

/-! ### Link and skein state (10 R313) -/

/-- The entry of a link. -/
def Link.bytes (l : Link) : List Byte :=
  record 32 [(0, 1, l.state), (1, 1, l.rate), (2, 1, l.port.getD 0xFF), (3, 1, l.width), (4, 1, l.direction.toNat),
    (5, 1, l.peerLink), (6, 2, l.peerDevice.toNat), (8, 8, l.peerSerial.toNat), (16, 4, l.delayQ), (20, 2, min l.retrains 0xFFFF),
    (22, 2, min l.uncorrectable 0xFFFF), (24, 4, min l.retransmitted 0xFFFFFFFF), (28, 4, min l.displaced 0xFFFFFFFF)]

/-- The record of R313. -/
def State.skeinBytes (s : State) : List Byte :=
  overlayBytes (overlayBytes
    (record 64 [(0, 4, 0x4B535850), (4, 2, 1), (6, 1, s.skein.topology), (7, 1, s.skein.dims), (16, 4, s.skein.members),
      (20, 2, s.skein.device.toNat), (22, 2, s.skein.parent.getD 0xFFFF), (24, 8, s.skein.formed), (32, 8, s.skein.lowest.toNat)])
    8 (s.skein.extents.map (BitVec.ofNat 8))) 12 (s.skein.coords.map (BitVec.ofNat 8)) ++ s.links.flatMap Link.bytes

/-! ### Checkpoint images (12 R360) -/

/-- Bytes of a chunk. -/
def chunkBytes : Nat := 0x100000

/-- The next multiple of 64. -/
def up64 (n : Nat) : Nat := (n + 63) / 64 * 64

/-- Chunks of a section. -/
def Section.chunks (x : Section) : Nat := (x.data.length + chunkBytes - 1) / chunkBytes

/-- Bytes a section takes in the image: its chunk values, padding to 64 bytes, its data, padding to the next section. -/
def Section.span (x : Section) : Nat := up64 (4 * x.chunks) + up64 x.data.length

/-- Where the sections begin, from the first one's offset: the directory stands at 128, the sections follow it, each at a
64-byte boundary (log 18). -/
def sectionOffsets : Nat → List Section → List Nat
  | _, [] => []
  | o, x :: xs => o :: sectionOffsets (o + x.span) xs

/-- Offset of the first section. -/
def firstSection (n : Nat) : Nat := up64 (128 + 32 * n)

/-- Bytes in a checkpoint's image. -/
def Ckpt.length (k : Ckpt) : Nat := firstSection k.sections.length + (k.sections.map Section.span).sum

/-- The header of an image with its CRC-32C (12 R360). -/
def Ckpt.header (k : Ckpt) : List Byte :=
  let h := record 128 [(0, 4, 0x4B435850), (4, 2, 1), (6, 2, k.set), (8, 1, k.slot), (9, 1, k.flags), (10, 2, k.device.toNat),
    (12, 4, k.sections.length), (16, 8, k.sequence), (24, 4, k.job.toNat), (28, 4, k.memberCount), (32, 8, k.seed.toNat),
    (40, 8, k.viewStep.getD counterMax), (48, 8, k.taken), (56, 8, k.length), (64, 8, 128)]
  overlayBytes h 72 (le 4 (crc32cZeroed h 72))

/-- A directory entry (12 R360). -/
def Section.entry (x : Section) (offset : Nat) : List Byte :=
  record 32 [(0, 1, x.kind), (4, 4, x.id), (8, 8, offset), (16, 8, x.data.length), (24, 4, x.chunks)]

/-- The chunk values and the data of a section as they stand in the image. -/
def Section.image (x : Section) : List Byte :=
  let sums := (List.range x.chunks).flatMap (fun i => le 4 (crc32c ((x.data.drop (i * chunkBytes)).take chunkBytes)))
  slice sums 0 (up64 (4 * x.chunks)) ++ slice x.data 0 (up64 x.data.length)

/-- The whole image. -/
def Ckpt.image (k : Ckpt) : List Byte :=
  k.header ++ slice ((k.sections.zip (sectionOffsets (firstSection k.sections.length) k.sections)).flatMap (fun p => p.1.entry p.2))
    0 (firstSection k.sections.length - 128) ++ k.sections.flatMap Section.image

/-- Bytes of the checkpoint area: 7,064 GiB (12 R352). -/
def ckptArea : Nat := 7064 * 2 ^ 30

/-- Bytes that the image being written takes. -/
def State.ckptWriting (s : State) : Nat :=
  ((s.stash.runs.filter (fun r => r.started && !r.restore)).filterMap (fun r => r.image.map Ckpt.length)).sum

/-- Free checkpoint space (12 R358, R361). -/
def State.ckptFree (s : State) : Nat := ckptArea - ((s.stash.ckpts.map Ckpt.length).sum + s.ckptWriting)

/-! ### Memory and Stash state (12 R349) -/

/-- The ceiling of a thermal step in percent (12 R347). -/
def ceilingPct (step : Nat) : Nat := [100, 90, 80, 70, 1, 0].getD step 0

/-- Pages of one stack. -/
def stackPages : Nat := 25165824

/-- Granules of a stack now poisoned: all of them when it has left service (12 R341, R349). -/
def State.poisonedOn (s : State) (k : Nat) : Nat :=
  if s.dev.stackLost && (s.mem.stackTab.getD k Stack.reset).state == 2 then stackPages * 32
  else (s.mem.poison.filter (fun g => s.homeStack (g / 32) == k)).length

/-- The entry of a stack. -/
def State.stackBytes (s : State) (k : Nat) : List Byte :=
  let x := s.mem.stackTab.getD k Stack.reset
  let sat := fun n => min n 0xFFFFFFFF
  record 48 [(0, 1, x.state), (1, 1, x.step), (2, 1, min x.temp 255), (3, 1, ceilingPct x.step), (4, 4, sat x.corrected),
    (8, 4, sat x.uncorrectable), (12, 4, sat x.parityRetries), (16, 2, min x.retrains 0xFFFF), (20, 4, sat x.repairs),
    (24, 4, x.spareRowsLeft), (28, 4, x.retired), (32, 4, sat (s.poisonedOn k)), (36, 4, sat x.stepEntries), (40, 8, x.holdStitches)]

/-- Rated endurance: 43,824 TiB (12 R355). -/
def ratedBytes : Nat := 43824 * 2 ^ 40

/-- The stitches of STASH_SCRUB_DAYS (02 R78, 12 R356). -/
def State.scrubSpan (s : State) : Nat := s.cfg.fields.scrubDays * 86400000000000

/-- A block that was last written at a stitch is past its scrub date at another (12 R356). -/
def State.pastScrub (s : State) (written now : Int) : Bool := decide (written + s.scrubSpan ≤ now)

/-- Blocks past their scrub date (12 R349). -/
def State.scrubOverdue (s : State) : Nat := (s.stash.scrubbed.filter (fun e => s.pastScrub e.2 s.stitch)).length

/-- The record of R349. -/
def State.memoryBytes (s : State) : List Byte :=
  record 64 [(0, 4, 0x534D5850), (4, 2, 1), (6, 2, s.mem.events.length), (8, 4, s.dev.usablePages), (12, 4, s.dev.retiredPages),
    (16, 8, s.stash.bytesWritten), (24, 8, ratedBytes), (32, 2, s.stash.sparePermille), (34, 2, s.stash.channels.toNat),
    (36, 4, s.stash.grownBad), (40, 4, min s.scrubOverdue 0xFFFFFFFF), (44, 4, s.ckptFree / 2 ^ 20)] ++
  (List.range 12).flatMap s.stackBytes ++ s.mem.events.flatMap MemEvent.bytes

/-! ### Needle health (13 R376) -/

/-- The state code of a needle. -/
def nStateCode : NState → Nat
  | .enabled => 0
  | .spare => 1
  | .suspect => 2
  | .retired => 3
  | .pending => 4

/-- The entry of a physical needle.  `attributable` holds, for each attributable mismatch of the window, the eligible tiles
written since. -/
def State.needleBytes (s : State) (u : Nat) : List Byte :=
  let n := s.needle u
  record 32 [(0, 1, nStateCode n.state), (1, 1, (s.logicalOf u).getD 0xFF), (2, 1, u / 12), (3, 1, n.rowsOut.length),
    (4, 4, min n.source 0xFFFFFFFF), (8, 4, min n.replica 0xFFFFFFFF), (12, 2, min n.mismatches 0xFFFF),
    (14, 1, min n.attributable.length 3), (16, 4, n.attributable.foldl max 0), (20, 4, min n.passed 0xFFFFFFFF),
    (24, 2, min n.failed 0xFFFF), (26, 2, min n.abandoned 0xFFFF)]

/-- The record of R376. -/
def State.healthBytes (s : State) : List Byte :=
  record 16 [(0, 4, 0x484E5850), (4, 2, 1), (6, 2, 144), (8, 1, s.cfg.fields.swatchRateLog2)] ++
  (List.range 144).flatMap s.needleBytes

/-! ### Debug token (15 R436) -/

/-- The token in force: installed and not past its not_after_stitch (15 R435). -/
def State.tokenNow (s : State) : Option Token :=
  s.dbg.token.filter (fun k => k.notAfter == 0 || decide (s.stitch ≤ k.notAfter))

/-- A permission bit of the token in force. -/
def State.permitted (s : State) (bit : Nat) : Bool :=
  match s.tokenNow with
  | some k => k.permissions.getLsbD bit
  | none => false

/-- The record of R436. -/
def State.tokenBytes (s : State) : List Byte :=
  match s.tokenNow with
  | some k => record 32 [(0, 4, 0x53445850), (4, 2, 1), (6, 1, 1), (8, 4, k.permissions.toNat), (16, 8, k.sequence),
                (24, 8, k.notAfter)] ++ slice k.digest 0 64
  | none => record 96 [(0, 4, 0x53445850), (4, 2, 1)]

end Sys2Proof.Machine
end

