-- ==== Sys2Proof/Machine/Observe.lean ====
section
/-! DEFINITION. Counter snapshots, COUNTERS_READ, trace rings, debug tokens, the observation port, the console and the debug
header (15 R419 to R439, 16 R454). -/

namespace Sys2Proof.Machine

/-! ### Ranges of the device address space -/

/-- Two address ranges share a byte. -/
def overlaps (a b : Nat × Nat) : Bool := decide (a.1 < b.1 + b.2) && decide (b.1 < a.1 + a.2)

/-- The range of a trace ring (15 R424, R425). -/
def TraceRing.range (r : TraceRing) : Nat × Nat := (r.base, 64 + 64 * r.slots)

/-- The ranges of every trace ring, by the job that has it. -/
def State.ringRanges (s : State) : List (Nat × Nat) :=
  (s.trace.moduleRing.toList ++ s.jobs.filterMap (·.ring)).map TraceRing.range

/-- The ranges of a job: its pool, its tensors, its structure regions. -/
def Job.ranges (j : Job) : List (Nat × Nat) :=
  (j.stagingBase, j.stagingLength) :: j.tensors.map (fun t => (t.base, t.length)) ++
  j.structures.map (fun x => (x.regionBase, x.regionLength))

/-- The device range of a section: its tensor's or its structure region (12 R360). -/
def Section.range (x : Section) : List (Nat × Nat) :=
  if x.kind = 1 then [] else if x.kind = 4 then [(field x.data 16 8, field x.data 24 8)] else [(field x.data 56 8, field x.data 64 8)]

/-- The ranges of an image. -/
def Ckpt.ranges (k : Ckpt) : List (Nat × Nat) := k.sections.flatMap Section.range

/-- The ranges that a running RESTORE claims. -/
def State.restoreRanges (s : State) : List (Nat × Nat) :=
  (s.stash.runs.filter (fun r => r.started && r.restore)).flatMap (fun r => (r.image.map Ckpt.ranges).getD [])

/-- The ranges of every job, of those still in their JOB_OPEN exchange too, and of a running RESTORE. -/
def State.jobRanges (s : State) : List (Nat × Nat) := (s.jobs ++ s.openings.map (·.job)).flatMap Job.ranges ++ s.restoreRanges

/-- A range extends past the device address space (01 R23, 03 R86). -/
def pastEnd (r : Nat × Nat) : Bool := decide (deviceBytes < r.1 + r.2)

/-! ### Snapshots -/

/-- CNT_SNAPSHOT: a write of 1 to bit 0 takes a snapshot (15 R419, R420). -/
def execCntSnapshot (t : Stitch) (value : Word) (s : State) : Host.Outcome State Fault Refusal :=
  s.act t (fun s => if value.getLsbD 0 then s.takeSnapshot else s)

/-- The records of the log from a Record ID, as many whole ones as fit (13 R384, 15 R434). -/
def fitRecords (room : Nat) : List (List Byte) → List Byte
  | [] => []
  | r :: rs => if r.length ≤ room then r ++ fitRecords (room - r.length) rs else []

/-- Selector and first_record of COUNTERS_READ in either revision (15 R434). -/
def Cmd.selector (c : Cmd) : Nat := if c.rev1 then c.operand1 % 256 else c.op 40 1

/-- A reserved operand of COUNTERS_READ is not zero. -/
def Cmd.countersReserved (c : Cmd) : Bool :=
  if c.rev1 then decide (256 ≤ c.operand1) else !c.zero 41 7 || !c.zero 56 8

/-- COUNTERS_READ (15 R434). -/
def State.countersRead (s : State) (c : Cmd) : State :=
  let sel := c.selector
  let bad := c.badLayout || c.countersReserved || decide (6 < sel) || (c.rev1 && !([0, 2, 3, 4].contains sel)) ||
    (sel == 1 && (s.openJob? c.tag.jobId).isNone)
  if bad then s.finish c.tag [stBadField] 0
  else match sel with
    | 0 => s.finishData c.tag [stDone] (s.snapshotCopy c.tag.jobId)
    | 1 => match s.job? c.tag.jobId with
      | some j => s.finishData c.tag [stDone] j.scale.bytes
      | none => s.finish c.tag [stBadField] 0
    | 2 => s.finishData c.tag [stDone] s.skeinBytes
    | 3 => s.finishData c.tag [stDone] s.memoryBytes
    | 4 => s.finishData c.tag [stDone] s.healthBytes
    | 5 =>
      if !s.stashOk then s.finish c.tag [stDeviceFault] 0
      else if c.stashBad then s.lostPage.finish c.tag [stBlockCheckFail] 0
      else
        let first := s.stash.cperNext - s.stash.cper.length
        let all := s.stash.cper.drop (c.op 48 8 - first)
        let data := fitRecords (if c.tag.resultAddr = 0 then 0 else c.tag.resultLen) all
        s.finishData c.tag [stDone] data (decide (data.length < (all.map List.length).sum))
    | _ => s.finishData c.tag [stDone] s.tokenBytes

def execCountersRead (t : Stitch) (src : Src) (io : HostIo) (s : State) : Host.Outcome State Fault Refusal :=
  s.host t src io 0x0061 true State.countersRead

/-! ### Trace rings (15 R424, R425, R433) -/

/-- The record types of a class_mask that a ring writes: 0x01 to 0x0A as asked, and always DROPPED (15 R426, R433). -/
def classMaskOf (w : Nat) : Word := BitVec.ofNat 32 (w % 0x0800 + 0x8000)

/-- Reserved bits of a class_mask: 0, 11 to 14 and 16 to 31 (15 R433). -/
def classMaskBad (w : Nat) : Bool := w % 2 != 0 || w / 0x0800 % 16 != 0 || w / 0x10000 != 0

/-- A fresh ring (15 R425, R433). -/
def freshRing (base bytes mask : Nat) (spill : Bool) : TraceRing :=
  { base := base, slots := (bytes - 64) / 64, classMask := classMaskOf mask, running := true, spillOn := spill, writeCount := 0,
    readCount := 0, dropped := 0, lost := 0, lostFirst := 0, lostLast := 0, lostTypes := 0, spill := [], queued := [] }

/-- The ranges a new ring must not touch: those of R424, the ring it replaces aside. -/
def State.ringClash (s : State) (job : Option Word) (r : Nat × Nat) : Bool :=
  let others := (s.trace.moduleRing.toList.filter (fun _ => job.isSome) ++
    (s.jobs.filter (fun j => job != some j.id)).filterMap (·.ring)).map TraceRing.range
  r.1 % pageBytes != 0 || pastEnd r || (s.jobRanges ++ others).any (overlaps r)

/-- Store a ring with its header. -/
def State.placeRing (s : State) (job : Option Word) (r : TraceRing) : State :=
  ({ s with mem := { s.mem with cells := TraceRing.header s.mem.cells ((job.map BitVec.toNat).getD 0) r } }).setTraceRing job (some r)

/-- Action 0 (15 R433). -/
def State.traceStart (s : State) (c : Cmd) (job : Option Word) : State :=
  let j := job.bind s.job?
  let mib := if job.isSome then (j.map (·.traceMib)).getD 0 else c.op 56 4
  let base := c.op 48 8
  let old := s.traceRing job
  let mask := c.op 44 4
  let live := (old.map (·.running)).getD false
  let badMib := if job.isSome then c.op 56 4 != 0 else decide (mib < 1) || decide (4096 < mib)
  let bad := classMaskBad mask || badMib ||
    (if live then (old.map (·.base)) != some base else s.ringClash job (base, mib * 2 ^ 20))
  match firstFailure [(bad, stBadField), (mib == 0, stNoResource)], old with
  | some k, _ => s.finish c.tag [k] 0
  | none, some r =>
    (if live then s.placeRing job { r with classMask := classMaskOf mask }
     else s.placeRing job (freshRing base (mib * 2 ^ 20) mask ((j.map (·.traceSpill)).getD 0 == 1))).finish c.tag [stDone] 0
  | none, none => (s.placeRing job (freshRing base (mib * 2 ^ 20) mask ((j.map (·.traceSpill)).getD 0 == 1))).finish c.tag [stDone] 0

/-- Action 1: the ring stops, its records remain. -/
def State.traceStop (s : State) (c : Cmd) (job : Option Word) : State :=
  match s.traceRing job with
  | some r => (s.placeRing job { r with running := false }).finish c.tag [stDone] 0
  | none => s.finish c.tag [stNoResource] 0

/-- Action 2: a copy of the header. -/
def State.traceStatus (s : State) (c : Cmd) (job : Option Word) : State :=
  match s.traceRing job with
  | some r => s.finishData c.tag [stDone] (Memory.readBytes s.mem.cells r.base 64)
  | none => s.finish c.tag [stNoResource] 0

/-! ### Debug tokens (15 R435) -/

/-- Bytes of a token of a signer. -/
def tokenLength (signer : Nat) : Nat := 64 + (if signer = 1 then 516 else 0) + 512

/-- The layout of a token. -/
def tokenLayout (bs : List Byte) : Bool :=
  decide (64 ≤ bs.length) && field bs 0 4 == 0x54445850 && field bs 4 2 == 1 && decide (field bs 6 2 ≤ 1) &&
  decide (field bs 24 4 < 16) && zeroBytes bs 28 4 && zeroBytes bs 40 24 && decide (tokenLength (field bs 6 2) ≤ bs.length)

/-- The token lapses: the port stops (15 R437). -/
def State.lapse (s : State) : State :=
  { s with dbg := { s.dbg with token := none, obsControl := s.dbg.obsControl &&& 0xE } }

/-- Action 3: the layout, the signature, the serial and the sequence, in that order; the token replaces the one in force. -/
def State.tokenInstall (s : State) (c : Cmd) : State :=
  let bs := c.data
  if c.badPayload 64 || !tokenLayout bs then s.finish c.tag [stBadField] 0
  else
    let tok := bs.take (tokenLength (field bs 6 2))
    if !s.signedOk (field bs 6 2) tok then s.finish c.tag [stSignatureFail] 0
    else if field bs 16 8 = 0 ∨ field bs 16 8 ≠ s.dev.serial.toNat ∨ field bs 8 8 ≤ s.dbg.lastSeq then
      s.finish c.tag [stBadField] 0
    else
      let k : Token := { permissions := BitVec.ofNat 4 (field bs 24 4), sequence := field bs 8 8, notAfter := field bs 32 8,
                         digest := sha512 tok }
      let s1 := if k.permissions.getLsbD 0 then s else s.lapse
      ({ s1 with dbg := { s1.dbg with token := some k, lastSeq := k.sequence } }).finish c.tag [stDone] 0

/-- TRACE_CONTROL (15 R433). -/
def State.traceControl (s : State) (c : Cmd) : State :=
  let action := if c.rev1 then 2 else c.op 40 1
  let job := if c.tag.jobId = 0 then none else some c.tag.jobId
  let reserved := if c.rev1 then c.operand1 != 0 else !c.zero 41 3 || !c.zero 60 4
  if c.badLayout || reserved || decide (4 < action) || (decide (3 ≤ action) && c.tag.src != .admin) ||
      (decide (action < 3) && (job.map (fun i => (s.openJob? i).isNone)).getD false) then s.finish c.tag [stBadField] 0
  else match action with
    | 0 => s.traceStart c job
    | 1 => s.traceStop c job
    | 2 => s.traceStatus c job
    | 3 => s.tokenInstall c
    | _ => s.lapse.finish c.tag [stDone] 0

def execTraceControl (t : Stitch) (src : Src) (io : HostIo) (s : State) : Host.Outcome State Fault Refusal :=
  s.host t src io 0x0060 false State.traceControl

/-- DEBUG_TOKEN_EXPIRY: not_after_stitch has passed; the token lapses and the port stops (15 R435, R437, R440). -/
def State.tokenExpiry (s : State) : State := if s.dbg.token.isSome && s.tokenNow.isNone then s.lapse else s

def execDebugTokenExpiry (t : Stitch) (s : State) : Host.Outcome State Fault Refusal := s.act t (·.tokenExpiry)

/-! ### The observation port (15 R437 to R439) -/

/-- The selected group needs permission bit 1 and has it not. -/
def State.groupRefused (s : State) : Bool := decide (0x100 ≤ s.dbg.obsSelect.toNat) && !s.permitted 1

/-- The port drives samples. -/
def State.obsActive (s : State) : Bool := s.dbg.obsControl.getLsbD 0 && s.permitted 0

/-- OBS_STATUS. -/
def State.obsStatus (s : State) : Nat :=
  (if s.permitted 0 then 1 else 0) + (if s.obsActive then 2 else 0) + (if s.permitted 0 && s.groupRefused then 4 else 0)

/-- A read of an observation register. -/
def State.obsRead (s : State) (off : Nat) : List Byte :=
  if off = 0x004 then le 4 s.obsStatus
  else if off = 0x010 then le 8 (if s.permitted 0 then s.dbg.samples else 0)
  else if s.permitted 0 then
    (if off = 0x000 then le 4 s.dbg.obsControl.toNat else if off = 0x008 then le 4 s.dbg.obsSelect.toNat
     else if off = 0x014 then le 4 (s.dbg.samples / 2 ^ 32) else le 4 0)
  else le 4 0

/-- A write of an observation register under a token; setting enable starts the sample count anew. -/
def State.obsWrite (s : State) (off : Nat) (v : Dword) : State :=
  if off = 0x000 then
    let ctl := v.setWidth 4
    let s1 := if ctl.getLsbD 0 && !s.dbg.obsControl.getLsbD 0 then { s with dbg := { s.dbg with samples := 0, lastSync := s.stitch } } else s
    { s1 with dbg := { s1.dbg with obsControl := ctl } }
  else if off = 0x008 then { s with dbg := { s.dbg with obsSelect := v.setWidth 12 } }
  else s

/-- OBS_REGISTER_ACCESS: without permission bit 0 OBS_STATUS reads normally, everything else reads 0, and writes are ignored and
counted in event 22 (15 R437). -/
def State.obsAccess (s : State) (off : Nat) (write : Option Dword) : State :=
  match write with
  | none => s.emit (.reply (s.obsRead off))
  | some v => if s.permitted 0 then s.obsWrite off v else s.count 22 1

def execObsRegisterAccess (t : Stitch) (off : Nat) (write : Option Dword) (s : State) : Host.Outcome State Fault Refusal :=
  match write with
  | none => s.actRead t (if off = 0x010 then 8 else 4) (·.obsAccess off none)
  | some v => s.act t (·.obsAccess off (some v))

/-! ### Debug header (15 R435, 16 R454) -/

/-- JTAG_INSTRUCTION: a boundary-scan instruction needs no token, a private one permission bit 2; a refused one is not taken. -/
def State.jtagTake (s : State) (i : JtagInstr) : State :=
  match i with
  | .boundaryScan _ => { s with dbg := { s.dbg with jtag := some i } }
  | .priv _ => if s.permitted 2 then { s with dbg := { s.dbg with jtag := some i } } else s

def execJtagInstruction (t : Stitch) (i : JtagInstr) (s : State) : Host.Outcome State Fault Refusal := s.act t (·.jtagTake i)

/-- UART_RX_CHARACTER: console input under permission bit 3 with DEBUG_CONSOLE 1, otherwise discarded (15 R435, 16 R454). -/
def State.uartRx (s : State) (ch : Byte) : State :=
  if s.permitted 3 && s.cfg.castConsole == 1 then { s with dbg := { s.dbg with console := s.dbg.console ++ [ch] } } else s

def execUartRxCharacter (t : Stitch) (ch : Byte) (s : State) : Host.Outcome State Fault Refusal := s.act t (·.uartRx ch)

end Sys2Proof.Machine
end

