-- ==== Sys2Proof/Machine/Pages.lean ====
section
/-! DEFINITION. Errors of stacked memory, row repair and page retirement, and the channels of the Stash (12 R337, R340, R342,
R344 to R346, R351). -/

namespace Sys2Proof.Machine

/-! ### Errors and repairs -/

/-- Stitches of 24 hours. -/
def dayStitches : Nat := 86400000000000

/-- Change a stack. -/
def State.updStack (s : State) (k : Nat) (f : Stack → Stack) : State := { s with mem := { s.mem with stackTab := s.mem.stackTab.modify k f } }

/-- Corrected errors of a page's row within 24 hours (12 R344). -/
def State.correctedOn (s : State) (page : Nat) : Nat :=
  (s.mem.corrected.filter (fun e => e.1 == s.physOf page && decide (s.stitch ≤ e.2 + dayStitches))).length

/-- An error the controller detects but cannot correct: counted, kept for its row until the repair, and the granule becomes poisoned
(12 R342, R344). -/
def State.uncorrected (s : State) (a : Nat) : State :=
  let p := s.physOf (pageOf a)
  let s1 := s.updStack (s.homeStack (pageOf a)) (fun k => { k with uncorrectable := satAdd 32 k.uncorrectable 1 })
  ({ s1 with mem := { s1.mem with uncorr := if s1.mem.uncorr.contains p then s1.mem.uncorr else p :: s1.mem.uncorr } }).poisonGranule a

/-- An error the controller corrects: counted for its stack and for its row (12 R340, R344). -/
def State.corrected (s : State) (a : Nat) : State :=
  let s1 := s.updStack (s.homeStack (pageOf a)) (fun k => { k with corrected := satAdd 32 k.corrected 1 })
  { s1 with mem := { s1.mem with corrected := (s.physOf (pageOf a), s.stitch) :: s1.mem.corrected.filter (fun e => decide (s.stitch ≤ e.2 + dayStitches)) } }

/-- PATROL_SCRUB: the granule is read and corrected; a poisoned granule is counted and stays poisoned; no scrub at thermal step 4
and above (12 R340, R342). -/
def State.patrolScrub (s : State) (a : Nat) (corr uncorr : Bool) : State :=
  let k := s.homeStack (pageOf a)
  if 4 ≤ (s.mem.stackTab.getD k Stack.reset).step ∨ deviceBytes ≤ a then s
  else
    let s1 := if corr then s.corrected a else s
    if s1.poisonedAt a then s1.updStack k (fun x => { x with uncorrectable := satAdd 32 x.uncorrectable 1 })
    else if uncorr then s1.uncorrected a else s1

def execPatrolScrub (t : Stitch) (addr : Nat) (corrected uncorrectable : Bool) (s : State) : Host.Outcome State Fault Refusal :=
  s.act t (·.patrolScrub addr corrected uncorrectable)

/-- The bank of a page, numbered over the module: 16 channels of 2 pseudo-channels of 64 banks in each stack; the row lies where the
page's physical page does (12 R337). -/
def State.bankOfPage (s : State) (page : Nat) : Nat := s.homeStack page * 2048 + Config.bankOf (s.physOf page) % 2048

/-- Spare rows of a page's bank in use. -/
def State.sparesUsed (s : State) (page : Nat) : Nat := (s.mem.bankSpares.lookup (s.bankOfPage page)).getD 0

/-- Times the row of a page's physical page was repaired. -/
def State.repairsOf (s : State) (page : Nat) : Nat := (s.mem.repairs.lookup (s.physOf page)).getD 0

/-- A row meets a condition of R344: it has caused an uncorrectable error, or 8 corrected ones within 24 hours. -/
def State.rowFails (s : State) (page : Nat) (uncorr : Bool) : Bool :=
  uncorr || s.mem.uncorr.contains (s.physOf page) || decide (8 ≤ s.correctedOn page)

/-- The error that a row's repair or retirement reports, unless it has been counted when it was found. -/
def State.rowError (s : State) (a : Nat) (uncorr : Bool) : State :=
  if uncorr && !s.mem.uncorr.contains (s.physOf (pageOf a)) then s.uncorrected a else s

/-- A page may be repaired once more: fewer than two repairs and a spare row in its bank (12 R345). -/
def State.repairable (s : State) (page : Nat) : Bool := decide (s.repairsOf page < 2) && decide (s.sparesUsed page < 4)

/-- ROW_REPAIR: a spare row takes the row's place with its data and its poison; an event and an error record tell of it
(12 R344). -/
def State.rowRepair (s : State) (a : Nat) (uncorr : Bool) : State :=
  let p := pageOf a
  if s.isHole p || !s.rowFails p uncorr || !s.repairable p then s
  else
    let ph := s.physOf p
    let n := s.repairsOf p + 1
    let bank := s.bankOfPage p
    let used := s.sparesUsed p + 1
    let s1 := s.rowError a uncorr
    let s2 := s1.updStack (s.homeStack p) (fun k => { k with repairs := satAdd 32 k.repairs 1, spareRowsLeft := k.spareRowsLeft - 1 })
    ({ s2 with mem := { s2.mem with repairs := (ph, n) :: s2.mem.repairs.filter (·.1 != ph)
                                    bankSpares := (bank, used) :: s2.mem.bankSpares.filter (·.1 != bank)
                                    corrected := s2.mem.corrected.filter (·.1 != ph)
                                    uncorr := s2.mem.uncorr.filter (· != ph) } }).memEvent 1 (s.homeStack p) (p * pageBytes) 0 n

def execRowRepair (t : Stitch) (addr : Nat) (uncorrectable : Bool) (s : State) : Host.Outcome State Fault Refusal :=
  s.act t (·.rowRepair addr uncorrectable)

/-! ### Page retirement (12 R345, R346) -/

/-- The highest number below a bound that meets a predicate. -/
def findDown (p : Nat → Bool) : Nat → Option Nat
  | 0 => none
  | n + 1 => if p n then some n else findDown p n

/-- Source 1: the highest device page that no range of any job covers. -/
def State.source1 (s : State) : Option Nat :=
  findDown (fun p => !s.isHole p && !(s.jobRanges.any (fun r => pageIn r.1 r.2 p))) s.mem.limit

/-- Source 2: the highest page of the staging pool of the job whose range holds the page, with the stack whose free page it
takes, when a page of the pool is free. -/
def State.source2 (s : State) (page : Nat) : Option (Word × Nat × Nat) :=
  match s.jobs.find? (fun j => j.ranges.any (fun r => pageIn r.1 r.2 page)) with
  | none => none
  | some j =>
    match findDown (fun p => !s.isHole p && pageIn j.stagingBase j.stagingLength p) ((j.stagingBase + j.stagingLength) / pageBytes + 1) with
    | none => none
    | some h => ((s.pageStack h :: List.range 12).find? (fun k => decide (0 < s.poolFree j k))).map (fun k => (j.id, h, k))

/-- The page has its replacement, the physical page behind the hole: it takes the page's data with its poison, the failing physical page is never
used again, the counts change, the event and the error record name both (12 R345, R346). -/
def State.retired (s : State) (page hole : Nat) : State :=
  let k := s.homeStack page
  let ph := s.physOf page
  let rest := s.mem.pageMap.filter (fun e => e.1 != page && e.1 != hole)
  let s1 := s.updStack k (fun x => { x with retired := x.retired + 1 })
  let s2 := { s1 with
    mem := { s1.mem with holes := hole :: s1.mem.holes
                         pageMap := if s.physOf hole = page ∨ page = hole then rest else (page, s.physOf hole) :: rest
                         physRetired := (ph, k) :: s1.mem.physRetired
                         uncorr := s1.mem.uncorr.filter (· != ph)
                         poison := s1.mem.poison.filter (fun g => g / pageGranules != hole) }
    dev := { s1.dev with usablePages := s1.dev.usablePages - 1, retiredPages := s1.dev.retiredPages + 1 } }
  (s2.raiseFault 2).memEvent 2 k (page * pageBytes) (hole * pageBytes) 0

/-- Retire a page from the first source that exists, else defer it. -/
def State.retirePage (s : State) (page : Nat) : State :=
  match s.source1 with
  | some h => s.retired page h
  | none => match s.source2 page with
    | some (id, h, k) =>
      ((s.updJob id (fun j => { j with pool := j.pool.modify k (· - 1) })).retired page h).memEvent 8 (s.homeStack h) (page * pageBytes) (h * pageBytes) 0
    | none => { s with mem := { s.mem with deferred := s.mem.deferred.filter (· != page) ++ [page] } }

/-- PAGE_RETIREMENT: a row fails a third time, or its bank has no spare row left (12 R345). -/
def State.pageRetirement (s : State) (a : Nat) (uncorr : Bool) : State :=
  let p := pageOf a
  if s.isHole p || !s.rowFails p uncorr || s.repairable p then s
  else (s.rowError a uncorr).retirePage p

def execPageRetirement (t : Stitch) (addr : Nat) (uncorrectable : Bool) (s : State) : Host.Outcome State Fault Refusal :=
  s.act t (·.pageRetirement addr uncorrectable)

/-- Deferred retirements complete when a range has become free (12 R346 source 3). -/
def State.serveDeferred (s : State) : State :=
  s.mem.deferred.foldl (fun x p => ({ x with mem := { x.mem with deferred := x.mem.deferred.filter (· != p) } }).retirePage p) s

/-! ### Channels of the Stash (12 R351) -/

/-- STASH_CHANNEL_CHANGE: the stash bit is set and an error record of class 6 written, in the log of a Stash that still serves data before the
change or does so after it (12 R351, 13 R386). -/
def State.stashChannel (s : State) (c : Nat) (up : Bool) : State :=
  if 16 ≤ c ∨ s.stash.channels.getLsbD c = up then s
  else
    let bit := BitVec.ofNat 16 (2 ^ c)
    let note := fun (x : State) => x.cper { cls := 6, sev := sevCorrected, unit := 186, detail := [BitVec.ofNat 8 c] }
    let set := fun (x : State) => { x with stash := { x.stash with channels := if up then x.stash.channels ||| bit else x.stash.channels &&& ~~~bit } }
    (if up then note (set s) else set (note s)).raiseFault 5

end Sys2Proof.Machine
end

