-- ==== Sys2Proof/Machine/CastOn.lean ====
section
/-! DEFINITION. The power stage and cast-on: power-good, losses, the fault latch, and the phases of 14 R405 (13 R392; 14 R405 to
R408; 16 R442 to R446; 01 R17). -/

namespace Sys2Proof.Machine

/-! ### What a loss of power leaves (16 R444) -/

/-- Repairs, spare rows and retired pages of a stack stand in the Stash tables; its other counts begin anew (12 R344, R349). -/
def Stack.kept (k : Stack) : Stack := { Stack.reset with repairs := k.repairs, spareRowsLeft := k.spareRowsLeft, retired := k.retired }

/-- Retirement, attributable counts, suspect states and mapped rows of a needle carry over every cast-on (13 R374); its pocket holds what a new
draw gives. -/
def Needle.kept (draw u : Nat) (n : Needle) : Needle :=
  { Needle.reset u with store := { (Needle.reset u).store with pocket := draw }, state := n.state, suspectToo := n.suspectToo, rowsOut := n.rowsOut, attributable := n.attributable,
                        clean := n.clean, retireReason := n.retireReason }

/-- The dates of the last writing of blocks when the counter starts anew; how long the module stands without power is a free value (12 R356). -/
def State.agedDates (s : State) : List (Nat × Int) :=
  s.stash.scrubbed.map (fun e => (e.1, e.2 - s.stitch - (Config.freeBits s.freeCtr).toNat))

/-- The state without power: what the Stash, the power-stage controller and the model's own bookkeeping keep, everything else at
reset (16 R444, 14 R400, R406, 15 R431, 12 R359). -/
def State.unpowered (s : State) : State :=
  { State.reset with
    pending := s.pending
    out := s.out
    freeCtr := s.freeCtr + 1
    stage := { good := false, overvolt := s.stage.overvolt, lost := false, latch := s.stage.latch }
    dev := { State.reset.dev with serial := s.dev.serial, stepping := s.dev.stepping, epoch := s.dev.epoch + 1,
                                  usablePages := s.dev.usablePages, retiredPages := s.dev.retiredPages }
    cfg := { s.cfg with report := [] }
    stash := { s.stash with hibernate := none, runs := [], scrubbed := s.agedDates }
    mem := { Mem.reset with repairs := s.mem.repairs, bankSpares := s.mem.bankSpares, stackTab := s.mem.stackTab.map Stack.kept,
                            limit := s.mem.limit, holes := s.mem.holes, pageMap := s.mem.pageMap, physRetired := s.mem.physRetired
                            deferred := s.mem.deferred, leftOut := s.mem.leftOut }
    needles := s.needles.zipIdx.map (fun (p : Needle × Nat) => p.1.kept s.freeCtr p.2)
    panelStores := List.replicate 12 s.freeCtr
    spareMap := s.spareMap
    pw := { Pw.reset with histories := s.pw.histories }
    fw := { s.fw with staging := none, activation := none, reload := [], late := [] }
    gauge := { Gauge.reset with cycDet := s.gauge.cycDet }
    dbg := { State.reset.dbg with lastSeq := s.dbg.lastSeq }
    mgmt := { State.reset.mgmt with strap := s.mgmt.strap, commonClock := s.mgmt.commonClock } }

/-! ### Phase 0x02 (14 R406, R407) -/

/-- What the Stash loader reads of the system area: the channels in service, each change of which is reported, and whether each bank's image
verifies (12 R351; 14 R405, R406, R409). -/
def State.readStash (s : State) (f : CastOnFindings) : State :=
  let s1 := (List.range 16).foldl (fun (x : State) c => x.stashChannel c (f.stashChannels.getLsbD c)) s
  { s1 with fw := { s1.fw with bankA := { s1.fw.bankA with signed := f.imageAOk }, bankB := { s1.fw.bankB with signed := f.imageBOk } } }

/-- A bank holds an image that verifies and is not below the security floor. -/
def bankUsable (b : Bank) (floor : Nat) : Bool := b.valid && b.signed && decide (floor ≤ b.security)

/-- The directory after step 2 of R406: a bank on trial whose latch shows a Hook watchdog is abandoned. -/
def Fw.afterTrial (f : Fw) (latch : Nat) : Fw :=
  if f.trial && latch == 1 then { f with activeB := !f.activeB, trial := false } else f

/-- The bank that runs: the active one, else the other; `none` when neither is usable. -/
def Fw.choose (f : Fw) : Option Bool :=
  let use := fun b => if b then bankUsable f.bankB f.floor else bankUsable f.bankA f.floor
  if use f.activeB then some f.activeB else if use (!f.activeB) then some (!f.activeB) else none

/-- A bank. -/
def Fw.bank (f : Fw) (b : Bool) : Bank := if b then f.bankB else f.bankA

/-! ### Phase 0x03 (02 R72, R80) -/

/-- The stored record that cast-on uses: the valid one with the higher sequence number. -/
def State.castRecord (s : State) (f : CastOnFindings) : Option (Bool × StoredRecord) :=
  let a := if f.slotAOk then s.cfg.slotA else none
  let b := if f.slotBOk then s.cfg.slotB else none
  match a, b with
  | some x, some y => if x.sequence < y.sequence then some (true, y) else some (false, x)
  | some x, none => some (false, x)
  | none, some y => some (true, y)
  | none, none => none

/-- The highest speed and width that both partners and PCIE_MAX_SPEED permit: what the partners can do are findings of training, and the
link keeps to the speeds and widths of R40. -/
def castPcie (limit speed width : Nat) : Pcie :=
  let v := ([6, 5, 4, 3].find? (fun g => decide (g ≤ min limit speed))).getD 0
  let w := ([16, 8, 4].find? (fun n => decide (n ≤ width))).getD 0
  let ok := v != 0 && w != 0
  { speed := if ok then v else 0, width := if ok then w else 0, exposed := ok, widthFault := decide (width < 4) }

/-- A configuration takes effect at cast-on: its fields, the slot and sequence it comes from, and its report (02 R78, R80). -/
def State.takeConfig (s : State) (fields : ConfigFields) (factory : Bool) (report : List Byte) (slot : Bool) (seq : Nat) : State :=
  { s with
    cfg := { s.cfg with fields := fields, sequence := seq, inForceB := slot, report := report, castTimeSource := fields.timeSource
                        castConsole := fields.debugConsole, castStartup := fields.powerLimitStartup, standbysNow := fields.standbyCount
                        resetSpeed := fields.pcieMaxSpeed, resetBar2 := fields.bar2SizeLog2 }
    dev := { s.dev with configFactory := factory, bar2SizeLog2 := fields.bar2SizeLog2 }
    pw := { s.pw with ramp := fields.powerLimitStartup } }

/-- The fields that stand below those of a record: an installed OWNER_KEY_DIGEST that the record does not carry stays in force (02 R77). -/
def State.baseFields (s : State) : ConfigFields := { ConfigFields.default with ownerKeyDigest := s.cfg.fields.ownerKeyDigest }

/-- Factory defaults apply (02 R72, R80). -/
def State.factoryConfig (s : State) : State :=
  s.takeConfig s.baseFields true (clampReport stDone 0 s.stitch (castRows (evaluate s.baseFields []).rows)) s.cfg.inForceB 0

/-- Read the configuration: the record is evaluated again, no field deferred; without one the factory defaults apply (02 R78, R80). -/
def State.castConfig (s : State) (f : CastOnFindings) : State :=
  let s1 := match (if s.stashOk then s.castRecord f else none) with
    | some (slot, r) => match parseRecord r.bytes with
      | some p =>
        let e := evaluate s.baseFields p.entries
        s.takeConfig e.fields false (clampReport (if e.clamped then stClamped else stDone) r.sequence s.stitch (castRows e.rows)) slot r.sequence
      | none => s.factoryConfig
    | none => s.factoryConfig
  { s1 with pcie := castPcie s1.cfg.fields.pcieMaxSpeed f.pcieSpeed f.pcieWidth }

/-! ### Phases 0x04 to 0x06 -/

/-- Pages of the module before any retirement: 576 GiB (01 R23). -/
def allPages : Nat := 301989888

/-- A Stash that has failed since phase 0x02: cast-on goes on with factory defaults and without the stored power-state histories (14 R408). -/
def State.castDefaults (s : State) : State :=
  if s.stashOk then s
  else
    let s1 := if s.dev.configFactory then s else s.factoryConfig
    { s1 with pw := { s1.pw with histories := List.replicate 4 [] } }

/-- Without the stored tables phase 0x04 finds repairs and retired pages afresh (14 R408). -/
def State.castTables (s : State) : State :=
  if s.stashOk then s
  else { s with
    mem := { s.mem with repairs := [], bankSpares := [], stackTab := List.replicate 12 Stack.reset, limit := allPages, holes := [], pageMap := []
                        physRetired := [], deferred := [] } }

/-- Without the stored tables phase 0x05 finds mapped rows and retirements afresh (14 R408). -/
def State.castNeedles (s : State) : State :=
  if s.stashOk then s
  else { s with needles := (List.range 144).map Needle.reset, spareMap := defaultSpareMap }

/-- The page map of a cast-on: the retired pages are the holes from a page on, so that a page below it whose own physical page has retired is
served by one of those above it that has not.  DESIGN CHOICE (log 132): which by which, in ascending order. -/
def castMap (retired : List Nat) (limit : Nat) : List (Nat × Nat) :=
  let lost := (retired.filter (fun p => decide (p < limit))).mergeSort
  lost.zip (((List.range retired.length).map (limit + ·)).filter (fun p => !retired.contains p))

/-- Memory: every granule zero, no poison; a retirement that was deferred completes, since no job is open; a failed stack is left out with all its
pages retired; the page map is rebuilt, the retired pages being the holes at the top (14 R405; 12 R341, R346). -/
def State.castMemory (s0 : State) (f : CastOnFindings) : State :=
  let s := s0.castDefaults.castTables.serveDeferred
  let failed := (List.range 12).filter f.failedStacks.contains
  let tab := s.mem.stackTab.zipIdx.map (fun (p : Stack × Nat) =>
    { p.1 with state := if failed.contains p.2 then 2 else 0
               retired := if failed.contains p.2 then stackPages else (s.mem.physRetired.filter (·.2 == p.2)).length })
  let retired := (tab.map (·.retired)).sum
  let limit := allPages - retired
  { s with
    mem := { s.mem with cells := [], poison := [], holes := [], stackTab := tab, leftOut := failed, limit := limit
                        pageMap := castMap ((s.mem.physRetired.filter (fun e => !failed.contains e.2)).map (·.1)) limit }
    dev := { s.dev with usablePages := limit, retiredPages := retired } }

/-- BRIDGE_LANE_GROUP_FAIL: a spare group replaces the failed one; the third failure reports DEVICE_FAULT and stops the issuing of
courses (01 R17, 13 R386). -/
def State.bridgeFail (s : State) (g : Nat) : State :=
  if s.dev.failedGroups.contains g || decide (66 ≤ g) then s
  else
    let n := s.dev.failedGroups.length + 1
    (({ s with dev := { s.dev with failedGroups := s.dev.failedGroups ++ [g], issuingStopped := s.dev.issuingStopped || decide (3 ≤ n) } }).raiseFault 4).cper
      { cls := 8, sev := if 3 ≤ n then sevFatal else sevCorrected, status := if 3 ≤ n then stDeviceFault else 0,
        detail := [BitVec.ofNat 8 g, BitVec.ofNat 8 (2 - n)] }

/-- Units: rows mapped out, needles retired, those too whose retirement waited when power was lost (13 R374), the spare map built, engines and bridge groups checked, a failed group reported as at any time
(14 R405; 01 R17, R27; 05 R152; 13 R374). -/
def State.castUnits (s0 : State) (f : CastOnFindings) : State :=
  let s := s0.castDefaults.castNeedles
  let s1 := f.failedRows.foldl (fun x r =>
    if (x.needle r.1).rowsOut.contains r.2 || (x.needle r.1).state == .retired then x else x.mapRow r.1 r.2 3) s
  let s2 := f.failedNeedles.foldl (fun x u => if (x.needle u).state = .retired then x else x.retireNow u 4) s1
  let s2 := (List.range 144).foldl (fun (x : State) u => if (x.needle u).state = .pending then x.retireNow u (x.needle u).retireReason else x) s2
  let s3 := s2.buildSpareMap
  let s4 := { s3 with engines := (List.range 8).map (fun e => { up := !f.failedEngines.contains e, item := none }) }
  (List.range 144).foldl State.loadSample (f.failedGroups.foldl State.bridgeFail s4)

/-- Links: each trains or not, and what training reads of its cable stands (14 R405, 10 R291, 16 R453). -/
def State.castLinks (s0 : State) (f : CastOnFindings) : State :=
  let s := f.cables.foldl (fun (x : State) e => x.updLink e.1 (fun l => { l with cable := some e.2 })) s0.castDefaults
  (f.links.foldl (fun x p => match p.2 with
    | .failed => x
    | .palrix rate => x.updLink p.1 (fun l => l.trained 2 (if rate = 4 then 4 else 2) x.stitch 0)
    | .forerunner => x.updLink p.1 (fun l => l.trained 3 2 x.stitch 0)) s).regroup

/-- Phase 0x07: complete and ready, the power limit ramps, the latch is reported once and cleared; from now on RETENTION_SCRUB rewrites the overdue
blocks (14 R405, R402; 13 R392; 12 R356). -/
def State.castComplete (s : State) : State :=
  let s1 := { s with
    dev := { s.dev with castOnPhase := 7, castOnComplete := true, hostReady := true, castOnStitch := s.stitch, findings := none }
    pw := { s.pw with ramp := s.cfg.castStartup, rampAt := some s.stitch, panelIdle := List.replicate 12 s.stitch,
                      engineIdle := List.replicate 8 s.stitch } }
  let s2 := if s1.stage.latch = 0 then s1
    else s1.cper { cls := 15, sev := sevFatal, detail := [BitVec.ofNat 8 s1.stage.latch] }
  { s2 with stage := { s2.stage with latch := 0 } }

/-- A Sundola of another major version clears the exit histories (14 R397). -/
def State.majorChange (s : State) (old new : Word) : State :=
  if old.toNat / 2 ^ 24 = new.toNat / 2 ^ 24 then s else { s with pw := { s.pw with histories := List.replicate 4 [] } }

/-- Phase 0x02: a bank is chosen and its Sundola starts, or recovery is entered; in the next phase the counter is released (14 R405 to
R407).  DESIGN CHOICE (log 130): no configuration record is read in recovery, and the PCIe link trains up to the speed of 64 GT/s, the limit that
PCIE_MAX_SPEED has by default. -/
def State.castBank (s : State) (f : CastOnFindings) : State :=
  let fw := s.fw.afterTrial s.stage.latch
  let s1 := { s with fw := fw }
  match (if s1.stashOk then fw.choose else none) with
  | none => { s1 with dev := { s1.dev with castOnPhase := 0xFE, hostReady := true }
                      pcie := castPcie 6 f.pcieSpeed f.pcieWidth }
  | some b =>
    let k := fw.bank b
    { s1.majorChange s.fw.running k.version with
      fw := { fw with runningB := b, running := k.version, runningSec := k.security, trialSince := s1.stitch }
      dev := { s1.dev with castOnPhase := 3 }, counting := true }

/-- The work of the current phase is done and the next one begins (14 R405). -/
def State.castPhase (s : State) : State :=
  match s.dev.findings with
  | none => s
  | some f =>
    let next := fun (x : State) => { x with dev := { x.dev with castOnPhase := x.dev.castOnPhase + 1 } }
    if s.dev.castOnPhase = 0 then next s
    else if s.dev.castOnPhase = 1 then next (s.readStash f)
    else if s.dev.castOnPhase = 2 then s.castBank f
    else if s.dev.castOnPhase = 3 then next (s.castConfig f)
    else if s.dev.castOnPhase = 4 then next (s.castMemory f)
    else if s.dev.castOnPhase = 5 then next (s.castUnits f)
    else (s.castLinks f).castComplete

/-- A tick: one stitch passes, and while cast-on runs the current phase ends (log 49). -/
def State.tick (s : State) : State :=
  let s1 := s.advance (s.stitch + 1)
  if s1.castingOn then s1.castPhase else s1

/-- The turn-on condition: the presence pin is mated, 43.0 V have been held for 10 ms, and after an over-voltage the input is below 61 V
(16 R442, R443). -/
def turnsOn (f : CastOnFindings) (overvolt : Bool) : Bool :=
  f.presence && decide (4300 ≤ f.vin) && decide (f.vin ≤ 6200) && decide (10000000 ≤ f.vinHeld) && !(overvolt && decide (6100 ≤ f.vin))

/-- POWER_GOOD: with the turn-on condition held the stage is good and cast-on begins in phase 0x00; what its phases will find stands in
the command.  A lost module first needs a power cycle (13 R392; 16 R442, R443; 14 R405; log 49). -/
def State.powerGood (s : State) (f : CastOnFindings) : State :=
  if s.stage.good || s.stage.lost || !turnsOn f s.stage.overvolt then s
  else
    let s1 := s.unpowered
    ({ s1 with
       stage := { good := true, overvolt := false, lost := false, latch := s1.stage.latch }
       dev := { s1.dev with serial := f.serial, stepping := f.stepping, castOnPhase := 0, findings := some f }
       pw := { s1.pw with vin := f.vin, tempW := f.dieTempWest.toNat, tempE := f.dieTempEast.toNat }
       mgmt := { s1.mgmt with strap := f.smbusStrap, commonClock := f.refclk } })

/-- The frame of the events of the power stage, which need no power. -/
def State.stageAct (s : State) (t : Stitch) (f : State → State) : Host.Outcome State Fault Refusal := .next (f (s.advance t))

def execPowerGood (t : Stitch) (f : CastOnFindings) (s : State) : Host.Outcome State Fault Refusal := s.stageAct t (·.powerGood f)

/-! ### Losses -/

/-- How long the stored energy carries the module: 0.7 ms from 54 V, 0.35 ms from 48 V, in stitches (16 R444; log 22). -/
def holdTime (vin : Nat) : Nat := if 5400 ≤ vin then 700000 else if 4800 ≤ vin then 350000 else 0

/-- The module is lost: every unit stops, every link stops sending, reads return all ones; the latch keeps the cause, and a power stage that failed
is off (13 R392, 16 R446). -/
def State.lose (s : State) (latch : Nat) : State :=
  { s with stage := { s.stage with good := s.stage.good && latch != 2, lost := true, latch := latch }
           links := s.links.map (fun l => { l with state := 0, rate := 0 }) }

/-- INPUT_POWER_LOSS: the input falling to 41.0 V, removal, or an interruption longer than the stored energy carries; a power stage that fails loses
the module (16 R442 to R444; 13 R392). -/
def State.powerLoss (s : State) (c : PowerLoss) : State :=
  match c with
  | .turnOff vin => if vin ≤ 4100 then s.unpowered else s
  | .stageFailure => if s.stage.lost then s else s.lose 2
  | .removal => s.unpowered
  | .interruption d => if d ≤ holdTime s.pw.vin then s else s.unpowered

def execInputPowerLoss (t : Stitch) (cause : PowerLoss) (s : State) : Host.Outcome State Fault Refusal :=
  s.stageAct t (fun s => if s.stage.good || s.stage.lost then s.powerLoss cause else s)

/-- OVERVOLTAGE_TURN_OFF: above 62 V the stage is off until the input falls below 61 V (16 R442). -/
def State.overvoltage (s : State) (vin : Nat) : State :=
  if 6200 < vin then { s.unpowered with stage := { s.unpowered.stage with overvolt := true } } else s

def execOvervoltageTurnOff (t : Stitch) (vin : Nat) (s : State) : Host.Outcome State Fault Refusal := s.stageAct t (·.overvoltage vin)

/-- PWR_CYCLE_ASSERT: below 10 ms ignored, from 100 ms the stage turns off, between them undefined (16 R445). -/
def execPwrCycleAssert (t : Stitch) (duration : Nat) (s : State) : Host.Outcome State Fault Refusal :=
  if duration < 10000000 then .next (s.advance t)
  else if duration < 100000000 then .fault .pwrCycleUndefined
  else .next (s.advance t).unpowered

/-- HOOK_WATCHDOG_EXPIRY (13 R392). -/
def execHookWatchdogExpiry (t : Stitch) (s : State) : Host.Outcome State Fault Refusal := s.act t (·.lose 1)

/-- DIE_OVERTEMP_SHUTDOWN: at 118 °C the power stage turns off and the module is lost (16 R446). -/
def State.overtemp (s : State) (east : Bool) (temp : Nat) : State :=
  let s1 := { s with pw := if east then { s.pw with tempE := temp } else { s.pw with tempW := temp } }
  if 118 ≤ temp then s1.lose 2 else s1

def execDieOvertempShutdown (t : Stitch) (east : Bool) (temp : Nat) (s : State) : Host.Outcome State Fault Refusal :=
  s.act t (·.overtemp east temp)

def execBridgeLaneGroupFail (t : Stitch) (group : Nat) (s : State) : Host.Outcome State Fault Refusal := s.act t (·.bridgeFail group)

end Sys2Proof.Machine
end

