-- ==== Sys2Proof/Machine/Numbers.lean ====
section
/-! DEFINITION. Exact values, number formats, rounding and the lane generator (06 R180 to R187, R191, R192, R199 to R201).
A decoded or computed value is exact: a sign, a natural number and a power of two.  A quotient or a root carries enough
bits and a mark that says it lies strictly above them, so that one rounding of it is the rounding of the exact value. -/

namespace Sys2Proof.Machine

/-- An exact value.  `num neg m e st` is (−1)^neg × m × 2^e, or, when `st` is set, some value strictly between m and m + 1
times 2^e. -/
inductive Val where
  | nan
  | inf (neg : Bool)
  | num (neg : Bool) (m : Nat) (e : Int) (st : Bool)
  deriving DecidableEq, Repr

/-- Positive zero. -/
def Val.zero : Val := .num false 0 0 false

/-- The value one. -/
def Val.one : Val := .num false 1 0 false

/-- An integer as a value; zero is +0. -/
def Val.ofInt (i : Int) : Val := .num (decide (i < 0)) i.natAbs 0 false

/-- m × 2^e for an integer m. -/
def Val.scaled (i : Int) (e : Int) : Val := .num (decide (i < 0)) i.natAbs e false

/-- The value is finite. -/
def Val.finite : Val → Bool
  | .num .. => true
  | _ => false

/-- The value is a zero of either sign. -/
def Val.isZero : Val → Bool
  | .num _ m _ st => m == 0 && !st
  | _ => false

/-- The sign bit. -/
def Val.neg : Val → Bool
  | .nan => false
  | .inf n => n
  | .num n _ _ _ => n

/-- The value with the opposite sign; NaN stays. -/
def Val.negate : Val → Val
  | .nan => .nan
  | .inf n => .inf (!n)
  | .num n m e st => .num (!n) m e st

/-- The magnitude. -/
def Val.abs : Val → Val
  | .nan => .nan
  | .inf _ => .inf false
  | .num _ m e st => .num false m e st

/-- The value times a power of two, with unbounded exponent. -/
def Val.shift (v : Val) (k : Int) : Val :=
  match v with
  | .num n m e st => .num n m (e + k) st
  | w => w

/-- The signed integer of a value at a common exponent not above its own. -/
def alignTo (neg : Bool) (m : Nat) (e target : Int) : Int :=
  let w : Int := ((m <<< (e - target).toNat : Nat) : Int)
  if neg then -w else w

/-- Exact addition under the IEEE 754 rules for special values; a zero sum of two negative zeros is −0, any other zero
sum is +0. -/
def Val.add (a b : Val) : Val :=
  match a, b with
  | .nan, _ => .nan
  | _, .nan => .nan
  | .inf x, .inf y => if x == y then .inf x else .nan
  | .inf x, _ => .inf x
  | _, .inf y => .inf y
  | .num na ma ea _, .num nb mb eb _ =>
    let e := min ea eb
    let s := alignTo na ma ea e + alignTo nb mb eb e
    if s = 0 then .num (na && nb && ma == 0 && mb == 0) 0 0 false else .scaled s e

/-- Exact subtraction. -/
def Val.sub (a b : Val) : Val := a.add b.negate

/-- Exact multiplication; zero times infinity is NaN, the sign is the exclusive OR (06 R190). -/
def Val.mul (a b : Val) : Val :=
  match a, b with
  | .nan, _ => .nan
  | _, .nan => .nan
  | .inf x, .inf y => .inf (x != y)
  | .inf x, v => if v.isZero then .nan else .inf (x != v.neg)
  | v, .inf y => if v.isZero then .nan else .inf (v.neg != y)
  | .num na ma ea _, .num nb mb eb _ => .num (na != nb) (ma * mb) (ea + eb) false

/-- How many bits beyond the divisor a quotient carries before its mark. -/
def quotBits : Nat := 1200

/-- Division, exact up to the mark (07 R211): finite by zero is an infinity, zero by zero and infinity by infinity NaN. -/
def Val.div (a b : Val) : Val :=
  match a, b with
  | .nan, _ => .nan
  | _, .nan => .nan
  | .inf _, .inf _ => .nan
  | .inf x, v => .inf (x != v.neg)
  | v, .inf y => .num (v.neg != y) 0 0 false
  | .num na ma ea _, .num nb mb eb _ =>
    if mb = 0 then (if ma = 0 then .nan else .inf (na != nb))
    else
      let k := quotBits + Nat.log2 (mb + 1)
      let n := ma <<< k
      .num (na != nb) (n / mb) (ea - eb - k) (n % mb != 0)

/-- One step of the digit-by-digit integer square root. -/
def isqrtStep (n : Nat) (r : Nat) (i : Nat) : Nat :=
  let c := r + 2 ^ i
  if c * c ≤ n then c else r

/-- The integer square root of a number below 2^(2 × bits). -/
def isqrt (bits n : Nat) : Nat := ((List.range bits).reverse).foldl (isqrtStep n) 0

/-- Square root, exact up to the mark; of a negative value NaN, of −0 −0 (07 R211). -/
def Val.sqrt : Val → Val
  | .nan => .nan
  | .inf n => if n then .nan else .inf false
  | .num n m e _ =>
    if m = 0 then .num n 0 0 false
    else if n then .nan
    else
      let k : Nat := 300 + (if e % 2 = 0 then 0 else 1)
      let w := m <<< k
      let r := isqrt (Nat.log2 w / 2 + 1) w
      .num false r ((e - k) / 2) (r * r != w)

/-- Comparison of finite magnitudes and signs: the order of the exact values, zeros equal.  NaN compares false. -/
def Val.lt (a b : Val) : Bool :=
  match a, b with
  | .nan, _ => false
  | _, .nan => false
  | .inf x, .inf y => x && !y
  | .inf x, _ => x
  | _, .inf y => !y
  | .num na ma ea _, .num nb mb eb _ =>
    let e := min ea eb
    decide (alignTo na ma ea e < alignTo nb mb eb e)

/-- Equality of exact values, zeros equal.  NaN is equal to nothing. -/
def Val.eqv (a b : Val) : Bool :=
  match a, b with
  | .nan, _ => false
  | _, .nan => false
  | _, _ => !a.lt b && !b.lt a

/-! ### Formats -/

/-- A floating-point format (06 R180). -/
structure Fmt where
  code : Nat
  bits : Nat
  exp : Nat
  frac : Nat
  bias : Nat
  hasInf : Bool
  nanCode : Nat
  maxCode : Nat
  flush : Bool
  deriving DecidableEq, Repr

def fp64 : Fmt := ⟨0x08, 64, 11, 52, 1023, true, 0x7FF8000000000000, 0x7FEFFFFFFFFFFFFF, false⟩
def fp32 : Fmt := ⟨0x07, 32, 8, 23, 127, true, 0x7FC00000, 0x7F7FFFFF, true⟩
def bf16 : Fmt := ⟨0x05, 16, 8, 7, 127, true, 0x7FC0, 0x7F7F, true⟩
def fp16 : Fmt := ⟨0x06, 16, 5, 10, 15, true, 0x7E00, 0x7BFF, true⟩
def e5m2 : Fmt := ⟨0x03, 8, 5, 2, 15, true, 0x7E, 0x7B, true⟩
def e4m3 : Fmt := ⟨0x02, 8, 4, 3, 7, false, 0x7F, 0x7E, true⟩

/-- FP32 with its subnormals kept, as rne32 rounds (06 R188). -/
def gradual32 : Fmt := { fp32 with flush := false }

/-- The E2M1 magnitudes as a format of their own: every one of the eight is a value, and there is neither infinity nor NaN (06 R182). -/
def e2m1Fmt : Fmt := ⟨0x01, 4, 2, 1, 1, false, 0, 7, false⟩

/-- The floating-point format of a code of 03 R96. -/
def fmtOf (c : Nat) : Option Fmt :=
  if c = 0x08 then some fp64 else if c = 0x07 then some fp32 else if c = 0x05 then some bf16
  else if c = 0x06 then some fp16 else if c = 0x03 then some e5m2 else if c = 0x02 then some e4m3 else none

/-- The element width in bits of a format code (03 R96); 0 for an undefined code. -/
def fmtBits (c : Nat) : Nat :=
  if c = 0x01 then 4 else if c = 0x02 ∨ c = 0x03 ∨ c = 0x04 ∨ c = 0x0D then 8
  else if c = 0x05 ∨ c = 0x06 ∨ c = 0x09 then 16 else if c = 0x07 ∨ c = 0x0A then 32
  else if c = 0x08 ∨ c = 0x0B ∨ c = 0x0C then 64 else 0

/-- A format code is an integer format (06 R186). -/
def isIntFmt (c : Nat) : Bool := c == 0x04 || c == 0x09 || c == 0x0A || c == 0x0B

/-- The value of a code of a floating-point format (06 R180, R181), before any flush. -/
def Fmt.decode (f : Fmt) (code : Nat) : Val :=
  let frac := code % 2 ^ f.frac
  let ex := code / 2 ^ f.frac % 2 ^ f.exp
  let neg := bitOf code (f.bits - 1)
  if f.hasInf && ex == 2 ^ f.exp - 1 then (if frac = 0 then .inf neg else .nan)
  else if !f.hasInf && code % 2 ^ (f.bits - 1) == 0x7F then .nan
  else if ex = 0 then .num neg frac (1 - (f.bias : Int) - f.frac) false
  else .num neg (2 ^ f.frac + frac) ((ex : Int) - f.bias - f.frac) false

/-- The exponent floor(log2 |v|) of a non-zero magnitude m × 2^e. -/
def magExp (m : Nat) (e : Int) : Int := (Nat.log2 m : Int) + e

/-- The grid spacing exponent of a format at a magnitude (06 R191: gradual underflow). -/
def Fmt.quantum (f : Fmt) (m : Nat) (e : Int) : Int :=
  max (magExp m e) (1 - (f.bias : Int)) - f.frac

/-- floor(m × 2^e ÷ 2^q), and whether anything was left. -/
def gridFloor (m : Nat) (e q : Int) (st : Bool) : Nat × Bool :=
  if q ≤ e then (m <<< (e - q).toNat, st)
  else
    let k := (q - e).toNat
    (m >>> k, st || m % 2 ^ k != 0)

/-- Round to nearest, ties to even, on the grid of spacing 2^q. -/
def gridNearest (m : Nat) (e q : Int) (st : Bool) : Nat :=
  if q ≤ e then m <<< (e - q).toNat
  else
    let k := (q - e).toNat
    let hi := m >>> k
    let rem := m % 2 ^ k
    let half := 2 ^ (k - 1)
    if half < rem || (rem == half && (st || hi % 2 == 1)) then hi + 1 else hi

/-- Round up in magnitude on the grid of spacing 2^q. -/
def gridCeil (m : Nat) (e q : Int) (st : Bool) : Nat :=
  let r := gridFloor m e q st
  if r.2 then r.1 + 1 else r.1

/-- The value of the largest finite code. -/
def Fmt.maxVal (f : Fmt) : Val := f.decode f.maxCode

/-- The code of n × 2^q, n at most 2^(frac + 1), not beyond the largest finite; a subnormal is flushed to a zero of the
same sign where 06 R187 flushes. -/
def Fmt.encodeGrid (f : Fmt) (neg : Bool) (n : Nat) (q : Int) : Nat :=
  let sign := if neg then 2 ^ (f.bits - 1) else 0
  let n' := if n = 2 ^ (f.frac + 1) then n / 2 else n
  let q' := if n = 2 ^ (f.frac + 1) then q + 1 else q
  if n' < 2 ^ f.frac then (if f.flush then sign else sign + n')
  else sign + (((q' + f.frac + f.bias).toNat) * 2 ^ f.frac + (n' - 2 ^ f.frac))

/-- n × 2^q lies beyond the largest finite value. -/
def Fmt.beyond (f : Fmt) (n : Nat) (q : Int) : Bool := f.maxVal.lt (.num false n q false)

/-- The code of an overflow, an infinity or a saturation (06 R192), and whether it sets the saturation flag. -/
def Fmt.overflow (f : Fmt) (neg : Bool) : Nat × Bool :=
  let sign := if neg then 2 ^ (f.bits - 1) else 0
  if f.hasInf then (sign + f.maxCode + 1, false) else (sign + f.maxCode, true)

/-- The code of a value that is not a finite number (06 R192). -/
def Fmt.special (f : Fmt) : Val → Nat
  | .inf neg => if f.hasInf then (if neg then 2 ^ (f.bits - 1) else 0) + f.maxCode + 1 else f.nanCode
  | _ => f.nanCode

/-- Round to nearest even into a format with the flush of 06 R187 (06 R191, R192): the code and the saturation flag. -/
def Fmt.round (f : Fmt) (v : Val) : Nat × Bool :=
  match v with
  | .num neg m e st =>
    if m = 0 then (f.encodeGrid neg 0 0, false)
    else
      let q := f.quantum m e
      let n := gridNearest m e q st
      if !f.hasInf && f.maxVal.lt (.num false m e false) then f.overflow neg
      else if !f.hasInf && f.maxVal.eqv (.num false m e false) && st then f.overflow neg
      else if f.beyond n q then f.overflow neg
      else (f.encodeGrid neg n q, false)
  | w => (f.special w, false)

/-- Round to nearest even and take the value back. -/
def Fmt.rne (f : Fmt) (v : Val) : Val := f.decode (f.round v).1

/-- Binary32 with gradual underflow; what rounds beyond the largest finite becomes an infinity (06 R188). -/
def rne32 (v : Val) : Val := gradual32.rne v

/-- One IEEE 754 binary64 rounding with gradual underflow (08 R245, 09 R265). -/
def rne64 (v : Val) : Val := fp64.rne v

/-- The FP32 code of a magnitude rounded toward +Inf, values beyond the FP32 maximum as 0x7F7F_FFFF (08 R235). -/
def ceil32 (v : Val) : Nat :=
  match v with
  | .num _ m e st =>
    if m = 0 && !st then 0
    else
      let q := gradual32.quantum (max m 1) e
      let n := gridCeil m e q st
      if fp32.beyond n q then fp32.maxCode else gradual32.encodeGrid false n q
  | _ => 0

/-- Flush an input under 06 R187: a subnormal of a flushed format becomes a zero of the same sign. -/
def Fmt.flushIn (f : Fmt) (v : Val) : Val :=
  match v with
  | .num neg m e st =>
    if f.flush && m != 0 && decide (magExp m e < 1 - (f.bias : Int)) then .num neg 0 0 false else .num neg m e st
  | w => w

/-- flush32 after rne32: the block sums and the running sums of the reference order (06 R187, R188). -/
def sum32 (v : Val) : Val := fp32.flushIn (rne32 v)

/-- The value of an E2M1 code (06 R182). -/
def e2m1 (code : Nat) : Val :=
  let mag := code % 8
  let twice := if mag < 4 then mag else if mag = 4 then 4 else if mag = 5 then 6 else if mag = 6 then 8 else 12
  .num (bitOf code 3) twice (-1) false

/-- The value of an E8 code (06 R183). -/
def e8Val (code : Nat) : Val := if code = 0xFF then .nan else .num false 1 ((code : Int) - 127) false

/-- The decoded value of an element: its format code, its bits, and the E8 code of its scale (0x7F when none), with the
input flush (06 R183, R185, R187).  A needle meets FX64 only as a predicate, where the binary point does not matter (06 R186, 07 R212). -/
def decodeElem (fmt code scale : Nat) : Val :=
  if isIntFmt fmt || fmt == 0x0C then .ofInt (signed (fmtBits fmt) code)
  else if fmt = 0x01 then (if scale = 0xFF then .nan else (e2m1 code).shift ((scale : Int) - 127))
  else if fmt = 0x0D then e8Val code
  else match fmtOf fmt with
    | some f => if scale = 0xFF then .nan else (f.flushIn (f.decode code)).shift ((scale : Int) - 127)
    | none => .nan

/-- The decoded value of an element without the input flush: exact, as the links take it (11 R325, R326). -/
def exactElem (fmt code scale : Nat) : Val :=
  match fmtOf fmt with
  | some f => if scale = 0xFF then .nan else (f.decode code).shift ((scale : Int) - 127)
  | none => decodeElem fmt code scale

/-! ### The lane generator and stochastic rounding (06 R199 to R201) -/

/-- Four 32-bit words. -/
structure W4 where
  a : Nat
  b : Nat
  c : Nat
  d : Nat
  deriving DecidableEq, Repr

/-- Rotate a 32-bit word left. -/
def rotl32 (x r : Nat) : Nat := (x * 2 ^ (r % 32)) % 2 ^ 32 + x / 2 ^ (32 - r % 32)

/-- One round of the lane generator. -/
def mixRound (k : W4) (x : W4) (r : Nat) : W4 :=
  let ka := ((k.a + r * 0x9C4BE2D1) % 2 ^ 32) ^^^ (rotl32 k.c r)
  let kb := ((k.b + r * 0xA07D35F3) % 2 ^ 32) ^^^ (rotl32 k.d r)
  let p := x.a * 0xD3A65A85
  let q := x.c * 0xC13FA9A9
  { a := (q / 2 ^ 32) ^^^ x.b ^^^ ka, b := q % 2 ^ 32, c := (p / 2 ^ 32) ^^^ x.d ^^^ kb, d := p % 2 ^ 32 }

/-- The lane generator: ten rounds (06 R200). -/
def mix (x k : W4) : W4 := (List.range 10).foldl (mixRound k) x

/-- What keys a course's stochastic rounding (06 R201). -/
structure Lane where
  seed : Nat
  step : Nat
  deriving DecidableEq, Repr

/-- Stage 1: once per operation and destination tensor (06 R201). -/
def Lane.key (l : Lane) (tensor salt : Nat) : W4 :=
  mix ⟨tensor, salt, l.step % 2 ^ 32, l.step / 2 ^ 32 % 2 ^ 32⟩ ⟨l.seed % 2 ^ 32, l.seed / 2 ^ 32, 0, 0⟩

/-- Stage 2: the n random bits of one element by its coordinates (06 R201). -/
def laneBits (key : W4) (coord : List Nat) (n : Nat) : Nat :=
  (mix ⟨coord.getD 0 0, coord.getD 1 0, coord.getD 2 0, coord.getD 3 0⟩ key).a / 2 ^ (32 - n)

/-- Stochastic rounding of an exact value with n random bits r (06 R199): the code and the saturation flag.  Beyond the largest finite
value no random bit is used, and the table of R192 decides by rounding to nearest. -/
def Fmt.roundStochastic (f : Fmt) (v : Val) (n r : Nat) : Nat × Bool :=
  match v with
  | .num neg m e st =>
    if m = 0 && !st then (f.encodeGrid neg 0 0, false)
    else if f.maxVal.lt (.num false m e false) || (f.maxVal.eqv (.num false m e false) && st) then f.round v
    else
      let q := f.quantum (max m 1) e
      let fl := gridFloor m e q st
      if !fl.2 then (f.encodeGrid neg fl.1 q, false)
      else
        -- 2^n × the fraction of |v| above its grid point, and whether anything is left below that
        let whole := gridFloor m e (q - n) st
        let part := whole.1 - fl.1 * 2 ^ n
        if neg then
          -- lo is the point further from zero
          let t := 2 ^ n - (if whole.2 then part + 1 else part)
          (f.encodeGrid neg (if r < t then fl.1 else fl.1 + 1) q, false)
        else (f.encodeGrid neg (if r < part then fl.1 + 1 else fl.1) q, false)
  | w => (f.special w, false)

/-- How an operation rounds its results: to nearest even, or stochastically with n bits under a key (06 R191). -/
inductive Rounding where
  | nearest
  | stochastic (n : Nat) (key : W4)
  deriving DecidableEq, Repr

/-- Write a value into a format code with an output scale (E8 code, 0x7F for none): the bits and the saturation flag
(06 R185, R191, R192, 07 R209).  An integer format takes a value that is no whole number to the nearest even one, an infinity to its limit and a
NaN to 0: DESIGN CHOICE (log 130). -/
def writeElem (fmt scale : Nat) (rd : Rounding) (coord : List Nat) (v : Val) : Nat × Bool :=
  match fmtOf fmt with
  | some f =>
    if scale = 0xFF then (f.nanCode, false)
    else
      let w := v.shift (127 - (scale : Int))
      match rd with
      | .nearest => f.round w
      | .stochastic n key => f.roundStochastic w n (laneBits key coord n)
  | none =>
    let b := fmtBits fmt
    let hi : Int := 2 ^ (b - 1) - 1
    let lo : Int := -(2 ^ (b - 1))
    match v with
    | .nan => (0, false)
    | .inf neg => (unsigned b (if neg then lo else hi), true)
    | .num neg m e st =>
      let n : Int := gridNearest m e 0 st
      let i := if neg then -n else n
      if hi < i then (unsigned b hi, true) else if i < lo then (unsigned b lo, true) else (unsigned b i, false)

/-- The bits hold a non-finite value of the format. -/
def nonFiniteBits (fmt code : Nat) : Bool :=
  match fmtOf fmt with
  | some f => !(f.decode code).finite
  | none => false

end Sys2Proof.Machine
end

