-- ==== Sys2Proof/Machine/Power.lean ====
section
/-! DEFINITION. Power states, the effective power limit, throttling, and SET_LATENCY_TOLERANCE (14 R394 to R403). -/

namespace Sys2Proof.Machine

/-! ### Exit latencies and permission (14 R396, R397) -/

/-- Worst-case exit latencies of states 1 to 4 in µs (14 R394). -/
def worstExit (code : Nat) : Nat := [0, 2, 150, 4000, 35000000].getD code 0

/-- Entry times of states 1 to 4 in stitches (14 R394). -/
def entryTime (code : Nat) : Nat := [0, 100, 20000, 1000000, 26000000000].getD code 0

/-- The exit latency in use: the worst case, or from 64 measured exits on the greatest of the last 64 (14 R397). -/
def State.exitLatency (s : State) (code : Nat) : Nat :=
  let h := s.pw.histories.getD (code - 1) []
  if h.length < 64 then worstExit code else h.foldl max 0

/-- A state is permitted (14 R396). -/
def State.permits (s : State) (code : Nat) : Bool :=
  (s.pw.tolerance == 0xFFFFFFFF || decide (s.exitLatency code ≤ s.pw.tolerance)) && (code != 4 || s.pw.allowHib)

/-- The deepest permitted state code (14 R404). -/
def State.deepest (s : State) : Nat := ([4, 3, 2, 1].find? s.permits).getD 0

/-! ### Idleness (14 R394, R399) -/

/-- The head of a launch queue is absent or waits on markers or on a launch point; what a cut holds does not keep a unit awake (14 R394, R401). -/
def State.headIdle (s : State) (u : LUnit) : Bool :=
  match s.headCourse u with
  | none => true
  | some c => !s.markersDone c u || !s.pointReached c || s.cutStops

/-- A swatch of a panel has no verdict yet, or a needle there still recomputes a tile. -/
def State.swatchesOn (s : State) (p : Nat) : Bool :=
  s.swatches.any (fun w => w.source / 12 == p) || (List.range 12).any (fun i => (s.needle (12 * p + i)).swatchLeft != 0)

/-- A panel is idle. -/
def State.panelIdle (s : State) (p : Nat) : Bool :=
  !(s.courses.any (·.runsOn (.panel p))) && s.headIdle (.panel p) && !s.swatchesOn p &&
  !((List.range 12).any (fun i => ((s.needle (12 * p + i)).item).isSome))

/-- An engine is idle. -/
def State.engineIdle (s : State) (e : Nat) : Bool :=
  !(s.courses.any (·.runsOn (.engine e))) && s.headIdle (.engine e) && ((s.engines.getD e { up := true, item := none }).item).isNone

/-- A unit is idle; the module when every panel and engine rests in Idle-deep. -/
def State.targetIdle (s : State) : PwTarget → Bool
  | .panel p => s.panelIdle p
  | .engine e => s.engineIdle e
  | .module => s.pw.panels.all (· == 2) && s.pw.engines.all (· == 2)

/-- The power state of a unit or of the module. -/
def State.pwOf (s : State) : PwTarget → Nat
  | .panel p => s.pw.panels.getD p 0
  | .engine e => s.pw.engines.getD e 0
  | .module => s.pw.module

/-- Since when a unit is idle. -/
def State.idleSince (s : State) : PwTarget → Nat
  | .panel p => s.pw.panelIdle.getD p 0
  | .engine e => s.pw.engineIdle.getD e 0
  | .module => s.pw.moduleSince

/-- The courses in the launch queues that a target covers; those that a cut holds neither wake a unit nor keep one awake (14 R401). -/
def State.queuedOn (s : State) (u : PwTarget) : List Course :=
  if s.cutStops then []
  else match u with
    | .panel p => (s.queue (.panel p)).filterMap s.course?
    | .engine e => (s.queue (.engine e)).filterMap s.course?
    | .module => s.courses.filter (fun c => c.status == .queued)

/-- The courses for whose launch points a target's clock starts again: of a panel the one at the head of its queue (04 R135). -/
def State.waking (s : State) (u : PwTarget) : List Course :=
  match u with
  | .panel _ => (s.queuedOn u).take 1
  | _ => s.queuedOn u

/-- The earliest known launch stitch of the timed courses among some (14 R399). -/
def nextTimed (cs : List Course) : Option Nat :=
  (cs.filterMap (fun c => if 2 ≤ c.launchKind then c.launchStitch else none)).foldl
    (fun m t => some (match m with
      | some x => min x t
      | none => t)) none

/-- Entry time, exit latency and 1,000 stitches fit before the next timed launch (14 R399). -/
def State.fitsTimed (s : State) (u : PwTarget) (code : Nat) : Bool :=
  match nextTimed (s.queuedOn u) with
  | some t => decide (s.stitch + entryTime code + 1000 * s.exitLatency code + 1000 ≤ t)
  | none => true

/-- Set the power state of a unit or of the module. -/
def State.setPw (s : State) (u : PwTarget) (code : Nat) : State :=
  match u with
  | .panel p => { s with pw := { s.pw with panels := s.pw.panels.set p code } }
  | .engine e => { s with pw := { s.pw with engines := s.pw.engines.set e code } }
  | .module => { s with pw := { s.pw with module := code } }

/-- A unit of the two unit states. -/
def isUnitTarget : PwTarget → Bool
  | .panel p => decide (p < 12)
  | .engine e => decide (e < 8)
  | .module => false

/-- IDLE_SHALLOW_ENTRY: idle for 2,000 stitches and permitted (14 R394, R399). -/
def State.shallowEntry (s : State) (u : PwTarget) : State :=
  if isUnitTarget u && s.pwOf u == 0 && s.targetIdle u && decide (s.idleSince u + 2000 ≤ s.stitch) && s.permits 1 && s.fitsTimed u 1 then
    s.setPw u 1
  else s

def execIdleShallowEntry (t : Stitch) (u : PwTarget) (s : State) : Host.Outcome State Fault Refusal := s.act t (·.shallowEntry u)

/-- A panel that holds a suspect needle keeps running test items and does not reach Idle-deep (14 R394, 13 R375). -/
def State.testsRemain (s : State) : PwTarget → Bool
  | .panel p => (List.range 12).any (fun i => (s.needle (12 * p + i)).isSuspect)
  | _ => false

/-- IDLE_DEEP_ENTRY: idle for 500 µs and permitted (14 R394, R399). -/
def State.deepEntry (s : State) (u : PwTarget) : State :=
  if isUnitTarget u && decide (s.pwOf u < 2) && s.targetIdle u && !s.testsRemain u && decide (s.idleSince u + 500000 ≤ s.stitch) &&
      s.permits 2 && s.fitsTimed u 2 then
    let s1 := match u with
      | .panel p => (s.setPw u 2).loseRegisters ((List.range 12).map (12 * p + ·))
      | _ => s.setPw u 2
    { s1 with pw := { s1.pw with moduleSince := s.stitch } }
  else s

def execIdleDeepEntry (t : Stitch) (u : PwTarget) (s : State) : Host.Outcome State Fault Refusal := s.act t (·.deepEntry u)

/-- The further conditions of Standby (14 R398). -/
def State.standbyClear (s : State) : Bool :=
  s.jobs.all (fun j => j.opened.isNone && j.committing.isNone) &&
  s.rings.all (fun g => !g.enabled || g.sqHead == g.sqTail) &&
  s.stash.runs.isEmpty && s.snaps.isEmpty && s.fw.activation.isNone && s.cut.all (fun (x : Cut) => x.phase == .held || x.phase == .released) &&
  s.mem.stackTab.all (fun k => decide (k.step < 4))

/-- STANDBY_ENTRY: every panel and engine in Idle-deep for 10 ms; stacked memory goes to self-refresh (14 R394, R398). -/
def State.standbyEntry (s : State) : State :=
  if s.pw.module == 0 && s.targetIdle .module && s.pw.exits.isEmpty && decide (s.pw.moduleSince + 10000000 ≤ s.stitch) && s.standbyClear && s.permits 3 &&
      s.fitsTimed .module 3 then
    { s with pw := { s.pw with module := 3, moduleSince := s.stitch, transition := 0 } }
  else s

def execStandbyEntry (t : Stitch) (s : State) : Host.Outcome State Fault Refusal := s.act t (·.standbyEntry)

/-- The further conditions of Hibernate (14 R398); the 600 GiB area holds every page of the 576 GiB module. -/
def State.hibernateClear (s : State) : Bool :=
  s.standbyClear && !(s.jobs.any (·.skein)) && !(s.time.role == 1 || s.time.role == 2) && gaugeSource s.gauge.control == 0 && s.stashOk

/-- Every link is down without a fault of its own (14 R398). -/
def State.linksOff (s : State) : State :=
  ({ s with links := s.links.map (fun (l : Link) => { l with state := 0, rate := 0, attempts := 0 }) }).regroup

/-- HIBERNATE_ENTRY: after 60 s in Standby the entry begins and memory is written to the Hibernate area; given again while the
entry runs it ends the entry: the seam links are down and a member enters holdover (14 R394, R398, R400; log 23). -/
def State.hibernateEntry (s : State) : State :=
  if s.pw.module != 3 || s.pw.exits.any (·.1 == .module) then s
  else if s.pw.transition = 1 then
    let s1 := s.linksOff
    let s2 := (if s.skein.member then s1.enterHoldover else s1).fillStores (List.range 144) (List.range 12)
    { s2 with pw := { s2.pw with module := 4, moduleSince := s.stitch, transition := 0 } }.wear
  else if s.hibernateClear && s.permits 4 && decide (s.pw.moduleSince + 60000000000 ≤ s.stitch) && s.fitsTimed .module 4 then
    let bytes := pageBytes * (s.jobRanges.map (fun r => (r.2 + pageBytes - 1) / pageBytes)).sum
    { s with
      pw := { s.pw with transition := 1 }
      stash := { s.stash with hibernate := some s.mem.cells, bytesWritten := s.stash.bytesWritten + bytes } }
  else s

def execHibernateEntry (t : Stitch) (s : State) : Host.Outcome State Fault Refusal := s.act t (·.hibernateEntry)

/-! ### Wakes and exits (14 R395, R399, R400) -/

/-- A unit or the module starts its exit; in Standby and Hibernate the event wakes the module (14 R395). -/
def State.wake (s : State) (u : PwTarget) : State :=
  match u with
  | .module => s.wakeModule
  | _ => if 3 ≤ s.pw.module then s.wakeModule else if s.pwOf u = 0 ∨ s.pw.exits.any (·.1 == u) then s
         else { s with pw := { s.pw with exits := s.pw.exits ++ [(u, s.stitch)] } }

/-- POWER_STATE_WAKE: a wake event of R395. -/
def execPowerStateWake (t : Stitch) (u : PwTarget) (s : State) : Host.Outcome State Fault Refusal := s.act t (·.wake u)

/-- TIMED_WAKE: the exit starts at the launch stitch less the exit latency in use less 1,000 stitches (04 R135, 14 R399). -/
def State.timedWake (s : State) (u : PwTarget) : State :=
  match nextTimed (s.waking u) with
  | some t => if t ≤ s.stitch + 1000 * s.exitLatency (s.pwOf u) + 1000 then s.wake u else s
  | none => s

def execTimedWake (t : Stitch) (u : PwTarget) (s : State) : Host.Outcome State Fault Refusal := s.act t (·.timedWake u)

/-- Insert a page into an ascending list without repeats. -/
def insertPage (p : Nat) : List Nat → List Nat
  | [] => [p]
  | q :: qs => if p < q then p :: q :: qs else if p = q then q :: qs else q :: insertPage p qs

/-- The pages of a range. -/
def rangePages (r : Nat × Nat) : List Nat :=
  (List.range ((r.2 + pageBytes - 1) / pageBytes + 1)).filterMap (fun i =>
    if pageIn r.1 r.2 (pageOf r.1 + i) then some (pageOf r.1 + i) else none)

/-- The pages of the Hibernate image, ascending: every page of every job's ranges (14 R398; log 23). -/
def State.imagePages (s : State) : List Nat := (s.jobRanges.flatMap rangePages).foldl (fun l p => insertPage p l) []

/-- The pages of one 1 MiB chunk of the image. -/
def chunkPages (pages : List Nat) (i : Nat) : List Nat := (pages.drop (512 * i)).take 512

/-- A chunk of the image failed its check: its granules are poisoned, with an event and an error record of class 5 (14 R400). -/
def State.badChunk (s : State) (i : Nat) : State :=
  let pages := chunkPages s.imagePages i
  let gs := pages.flatMap (fun p => (List.range 32).map (fun g => 32 * p + g))
  match pages with
  | [] => s
  | p :: _ => ({ s with mem := { s.mem with poison := gs.filter (fun g => !s.mem.poison.contains g) ++ s.mem.poison } }).memEvent 3
      (s.pageStack p) (p * pageBytes) 0 32

/-- HIBERNATE_EXIT: memory is restored from the image chunk by chunk, the image is used up, and the seam links retrain
(14 R400). -/
def State.hibernateExit (s : State) (bad : List Nat) : State :=
  match s.stash.hibernate with
  | some cells =>
    if s.pw.module = 4 && s.pw.exits.any (·.1 == .module) then
      let s1 := { s with mem := { s.mem with cells := cells }, stash := { s.stash with hibernate := none } }
      let s2 := bad.foldl State.badChunk s1
      { s2 with links := s2.links.map (fun (l : Link) => { l with state := 1, rate := 0 }) }
    else s
  | none => s

def execHibernateExit (t : Stitch) (badChunks : List Nat) (s : State) : Host.Outcome State Fault Refusal := s.act t (·.hibernateExit badChunks)

/-- A measured exit joins the last 64 of its state, in whole µs rounded up (14 R397). -/
def State.measureExit (s : State) (code started : Nat) : State :=
  { s with pw := { s.pw with histories := s.pw.histories.modify (code - 1) (fun h =>
      (h ++ [(s.stitch - started + 999) / 1000]).drop (h.length + 1 - 64)) } }

/-- No unit and not the module is in a deeper state than permitted. -/
def State.noneDeeper (s : State) : Bool :=
  (s.pw.panels ++ s.pw.engines ++ [s.pw.module]).all (fun c => c == 0 || s.permits c)

/-- SET_LATENCY_TOLERANCE that waits completes once no unit is too deep (14 R396). -/
def State.settleTolerance (s : State) : State :=
  match s.pw.tolWait with
  | some tag => if s.noneDeeper then ({ s with pw := { s.pw with tolWait := none } }).finish tag [stDone] s.deepest else s
  | none => s

/-- The units that take new microcode when the module exits: panels and engines, and after Hibernate also links and memory controllers (14 R400,
R401). -/
def State.reloadAtExit (s : State) : State :=
  { s with fw := { s.fw with reload := s.fw.reload.filter (fun u => decide (152 ≤ u) && (s.pw.module != 4 || u == 186)) } }

/-- Every target. -/
def allTargets : List PwTarget := (List.range 12).map .panel ++ (List.range 8).map .engine ++ [.module]

/-- A unit in a state that is not permitted, or not any more, exits (14 R396). -/
def State.exitDeeper (s : State) : State := (allTargets.filter (fun u => s.pwOf u != 0 && !s.permits (s.pwOf u))).foldl State.wake s

/-- POWER_STATE_EXIT_DONE: the exit that ran is measured; a unit is Active, and with the module every unit is, and the BAR2 accesses that waited for
memory are served (14 R395, R397).  Where the measurement makes a state too slow, the units in it exit (14 R396). -/
def State.exitDone (s : State) (u : PwTarget) : State :=
  match s.pw.exits.find? (·.1 == u) with
  | none => s
  | some e =>
    if u == .module && s.pw.module == 4 && s.stash.hibernate.isSome then s
    else
      let s1 := s.measureExit (s.pwOf u) e.2
      let s2 := { s1 with pw := { s1.pw with exits := s1.pw.exits.filter (·.1 != u) } }
      let s3 := match u with
        | .module => { s2.reloadAtExit with
                       pw := { s2.pw with module := 0, transition := if s2.pw.transition = 3 then 3 else 0,
                                          panels := List.replicate 12 0, engines := List.replicate 8 0,
                                          panelIdle := List.replicate 12 s.stitch, engineIdle := List.replicate 8 s.stitch } }
        | .panel p => { s2 with pw := { s2.pw with panels := s2.pw.panels.set p 0, panelIdle := s2.pw.panelIdle.set p s.stitch } }
        | .engine x => { s2 with pw := { s2.pw with engines := s2.pw.engines.set x 0, engineIdle := s2.pw.engineIdle.set x s.stitch } }
      (if u == .module then s3.serveBar2 else s3).exitDeeper.settleTolerance

def execPowerStateExitDone (t : Stitch) (u : PwTarget) (s : State) : Host.Outcome State Fault Refusal := s.act t (·.exitDone u)

/-- SET_LATENCY_TOLERANCE (14 R396). -/
def State.setLatencyTolerance (s : State) (c : Cmd) : State :=
  if c.badLayout || decide (2 ≤ c.op 44 1) || !c.zero 45 19 then s.finish c.tag [stBadField] 0
  else
    let s1 := { s with pw := { s.pw with tolerance := c.op 40 4, allowHib := c.op 44 1 == 1, tolWait := some c.tag } }
    s1.exitDeeper.settleTolerance

def execSetLatencyTolerance (t : Stitch) (src : Src) (io : HostIo) (s : State) : Host.Outcome State Fault Refusal :=
  s.host t src io 0x0004 false State.setLatencyTolerance

/-! ### The power limit and the clocks (14 R402, R403) -/

/-- The start-up limit: 600 W, then POWER_LIMIT_STARTUP_W, then rising by 50 W per ms. -/
def State.startLimit (s : State) : Nat :=
  match s.pw.rampAt with
  | none => s.pw.ramp
  | some t => s.pw.ramp + 50 * ((s.stitch - t) / 1000000)

/-- The input cap: what 40 A carry at the measured voltage; before the first measurement it bounds nothing, as the reset values of
POWER_LIMIT_EFFECTIVE say (14 R402, R404). -/
def State.inputCap (s : State) : Option Nat := if s.pw.vin = 0 then none else some (40 * s.pw.vin / 100)

/-- The effective power limit: the least of the terms (14 R402). -/
def State.powerLimit (s : State) : Nat :=
  let m := min (min s.cfg.fields.powerLimit s.pw.hostCap) s.startLimit
  match s.inputCap with
  | some n => min m n
  | none => m

/-- Lower a core clock by steps of 5 MHz, not below 325. -/
def slower (f steps : Nat) : Nat := max 325 (f - 5 * steps)

/-- Raise a core clock by one step. -/
def faster (f : Nat) : Nat := min 1300 (f + 5)

/-- The clock of a die after a sample: one step down for every 1% of excess, at least one; one step down while the die is hot; one
step up after 10 µs more than 3% below the limit (log 24). -/
def nextClock (f draw limit : Nat) (hot : Bool) : Nat :=
  if limit < draw then slower f (max 1 ((draw - limit) * 100 / max limit 1))
  else if hot then slower f 1
  else if draw * 100 < 97 * limit then faster f else f

/-- POWER_SAMPLE: one die's controller samples the input and sets its clock; with both at 325 MHz and the draw still above the
limit no course launches until the draw falls below it (14 R403, R404). -/
def State.powerSample (s : State) (east : Bool) (draw voltage current : Nat) : State :=
  let s1 := { s with pw := s.pw.addSample s.stitch draw voltage current }
  let limit := s1.powerLimit
  let s2 := if east then { s1 with pw := { s1.pw with clockE := nextClock s1.pw.clockE draw limit s1.pw.hotE } }
    else { s1 with pw := { s1.pw with clockW := nextClock s1.pw.clockW draw limit s1.pw.hotW } }
  let hold := if draw < limit then false
    else s2.pw.launchHold || (decide (limit < draw) && s2.pw.clockW == 325 && s2.pw.clockE == 325)
  { s2 with pw := { s2.pw with launchHold := hold } }

def execPowerSample (t : Stitch) (east : Bool) (draw voltage current : Nat) (s : State) : Host.Outcome State Fault Refusal :=
  s.act t (·.powerSample east draw voltage current)

/-- OVERCURRENT_EVENT: above 40 A both dies drop to 650 MHz (14 R403). -/
def State.overcurrent (s : State) (current : Nat) : State :=
  if 4000 < current then
    { s with pw := { s.pw with current := current, clockW := min s.pw.clockW 650, clockE := min s.pw.clockE 650 } }
  else s

def execOvercurrentEvent (t : Stitch) (current : Nat) (s : State) : Host.Outcome State Fault Refusal := s.act t (·.overcurrent current)

/-- DIE_THROTTLE_TEMPERATURE: at 105 °C the die stretches whatever the power, below it the rule ends (14 R402, R403). -/
def State.dieTemperature (s : State) (east : Bool) (temp : Nat) : State :=
  let hot := decide (105 ≤ temp)
  if east then { s with pw := { s.pw with tempE := temp, hotE := hot, clockE := if hot then slower s.pw.clockE 1 else s.pw.clockE } }
  else { s with pw := { s.pw with tempW := temp, hotW := hot, clockW := if hot then slower s.pw.clockW 1 else s.pw.clockW } }

def execDieThrottleTemperature (t : Stitch) (east : Bool) (temp : Nat) (s : State) : Host.Outcome State Fault Refusal :=
  s.act t (·.dieTemperature east temp)

end Sys2Proof.Machine
end

