-- ==== Sys2Proof/Machine/Stacks.lean ====
section
/-! DEFINITION. The thermal steps of stacked memory, and the flash of the Stash (12 R347, R348, R351 to R356). -/

namespace Sys2Proof.Machine

/-! ### Temperature (12 R347, R348) -/

/-- The thresholds of the thermal steps (12 R347). -/
def thermalAt (step : Nat) : Nat := [0, 85, 88, 91, 95, 100].getD step 0

/-- The step at a temperature: entered at its threshold, left 3 °C below it (12 R347). -/
def thermalStep (now temp : Nat) : Nat :=
  ([5, 4, 3, 2, 1].find? (fun k => decide (thermalAt k ≤ temp) || (decide (k ≤ now) && decide (thermalAt k < temp + 3)))).getD 0

/-- STACK_TEMPERATURE_SAMPLE: each change of step raises the thermal bit and writes an event; at step 4 and above no course
launches until every stack is below 92 °C, and Standby ends (12 R347, R348; 14 R401).  BAR2 accesses that waited for the stack are served, or have
been aborted (12 R348). -/
def State.stackTemperature (s0 : State) (k temp : Nat) : State :=
  let s := s0.abortOverdue
  let old := (s.mem.stackTab.getD k Stack.reset).step
  let new := thermalStep old temp
  let s1 := s.updStack k (fun x => { x with temp := temp, step := new, stepEntries := if old = 0 ∧ 1 ≤ new then satAdd 32 x.stepEntries 1 else x.stepEntries })
  let s2 := if old = new then s1 else (s1.raiseFault 6).memEvent 6 k 0 0 new
  let hot := s2.mem.stackTab.any (fun x => decide (4 ≤ x.step))
  let cool := s2.mem.stackTab.all (fun x => decide (x.temp < 92))
  let s3 := { s2 with pw := { s2.pw with thermalHold := hot || (s2.pw.thermalHold && !cool) } }
  (if 4 ≤ new ∧ s3.pw.module = 3 then s3.wakeModule else s3).serveBar2.drainSpill

def execStackTemperatureSample (t : Stitch) (stack temp : Nat) (s : State) : Host.Outcome State Fault Refusal :=
  s.act t (·.stackTemperature stack temp)

/-! ### The flash (12 R351, R354 to R356) -/

def execStashChannelChange (t : Stitch) (channel : Nat) (up : Bool) (s : State) : Host.Outcome State Fault Refusal :=
  s.act t (·.stashChannel channel up)

/-- A block may be scrubbed: it has gone STASH_SCRUB_DAYS without being written, and the blocks that were past their date when cast-on completed come
first (12 R356). -/
def State.scrubDue (s : State) (b : Nat) : Bool :=
  match s.stash.scrubbed.lookup b with
  | some t => s.pastScrub t s.stitch && (s.pastScrub t s.dev.castOnStitch || !s.stash.scrubbed.any (fun e => s.pastScrub e.2 s.dev.castOnStitch))
  | none => false

/-- Work in the checkpoint area may wear it: what spare it has left is free within what it had.  The spare falling below a tenth sets the stash bit;
with none left the area is read-only (12 R354; log 128). -/
def State.flashWear (s : State) : State :=
  let x := s.wear
  let n := x.stash.grownBad - s.stash.grownBad
  let left := if n = 0 then s.stash.sparePermille else (Config.freeBits x.freeCtr).toNat / 2 % (s.stash.sparePermille + 1)
  let s1 := { x with freeCtr := x.freeCtr + 1, stash := { x.stash with
    sparePermille := left, readOnly := s.stash.readOnly || (n != 0 && left == 0 && (Config.freeBits x.freeCtr).getLsbD 0) } }
  if 100 ≤ s.stash.sparePermille ∧ left < 100 then s1.raiseFault 5 else s1

/-- RETENTION_SCRUB, from the end of cast-on on: a block past its date is rewritten now; how many bytes a block holds is not given, so what it adds
to the bytes written is a free value (14 R405; 12 R349, R356, R357; log 128). -/
def State.retentionScrub (s : State) (b : Nat) : State :=
  if !s.scrubDue b || !s.dev.castOnComplete then s
  else State.flashWear { s.free.2 with stash := { s.free.2.stash with
    scrubbed := (b, (s.stitch : Int)) :: s.stash.scrubbed.filter (·.1 != b), bytesWritten := s.stash.bytesWritten + s.free.1.toNat } }

def execRetentionScrub (t : Stitch) (block : Nat) (s : State) : Host.Outcome State Fault Refusal := s.act t (·.retentionScrub block)

/-- Erases of a block: the factory's count and those since (12 R355). -/
def State.erasesOf (s : State) (b : Nat) : Nat := (s.stash.erases.lookup b).getD (Config.factoryErases b)

/-- The area of a block: the model names blocks so that the bits above 27 tell it (12 R352; log 128). -/
def areaOf (b : Nat) : Nat := b / 2 ^ 28

/-- WEAR_LEVEL_MOVE: when the erase counts of two blocks of an area differ by more than 500, static data moves from the less worn block to the other,
which is written now, and the first is erased; the erase or the program may fail (12 R354, R355). -/
def State.wearMove (s : State) (a b : Nat) : State :=
  if areaOf a ≠ areaOf b ∨ s.erasesOf b ≤ s.erasesOf a + 500 then s
  else State.flashWear { s with stash := { s.stash with
    erases := (a, s.erasesOf a + 1) :: s.stash.erases.filter (·.1 != a)
    scrubbed := (b, (s.stitch : Int)) :: s.stash.scrubbed.filter (fun e => e.1 != b && e.1 != a) } }

def execWearLevelMove (t : Stitch) (fromBlock toBlock : Nat) (s : State) : Host.Outcome State Fault Refusal := s.act t (·.wearMove fromBlock toBlock)

end Sys2Proof.Machine
end

