-- ==== Sys2Proof/Machine/Scale.lean ====
section
/-! DEFINITION. The job scale state: histories, scale codes and their writing, the gradient scale (08 R230 to R238). -/

namespace Sys2Proof.Machine

/-! ### Codes (08 R233, R237) -/

/-- The largest magnitude of a managed format: 448 for E4M3, 57,344 for E5M2; none for a tensor that is not managed. -/
def managedMax (kind format : Nat) : Option Nat :=
  if kind = 3 ∧ format = 0x02 then some 448 else if kind = 4 ∧ format = 0x03 then some 57344 else none

/-- A tensor is managed (08 R233). -/
def Tensor.managed (t : Tensor) : Bool := (managedMax t.kind t.format).isSome

/-- The greatest of a history's maxima, as an exact value; zero when there is none. -/
def Hist.greatest (h : Hist) : Val :=
  h.maxima.foldl (fun m w => let v := fp32.decode w.toNat; if m.lt v then v else m) Val.zero

/-- The least integer c in a range with 2h ≤ T × 2^c (08 R237); FP32 magnitudes and the two T leave c within −160 to 130. -/
def leastExp (h : Val) (T : Nat) : Int :=
  (((List.range 300).map (fun i => (i : Int) - 160)).find? (fun c => !(Val.lt (.num false T c false) (h.shift 1)))).getD 139

/-- The code of a managed tensor from its history, and whether it was clamped (08 R237). -/
def Hist.code (h : Hist) (T : Nat) : Nat × Bool :=
  if h.maxima.isEmpty || h.greatest.isZero then (h.scaleCode, false)
  else
    let e := 127 + leastExp h.greatest T
    let k := (min (max e 0) 254).toNat
    (k, decide ((k : Int) ≠ e))

/-- A tensor's history. -/
def Scale.hist? (x : Scale) (id : Word) : Option Hist := x.hists.find? (·.tensorId == id)

/-- The histories in ascending tensor_id order with one put in or replaced (08 R232). -/
def putHist (h : Hist) : List Hist → List Hist
  | [] => [h]
  | x :: xs => if x.tensorId == h.tensorId then h :: xs
               else if h.tensorId.toNat < x.tensorId.toNat then h :: x :: xs else x :: putHist h xs

/-- An empty history. -/
def Hist.new (id : Word) (format kind : Nat) : Hist :=
  { tensorId := id, format := format, kind := kind, scaleCode := 0x7F, newestStep := 0, maxima := [] }

/-- A format whose tensors of kinds 3 and 4 have a history: floating point other than FP64 (08 R234). -/
def histFormat (f : Nat) : Bool := (fmtOf f).isSome && f != 0x08

/-- Mapping a tensor with kind 3 or 4 in a narrow floating-point format gives its identifier a history.  The one it has shows the format from
now on, whatever the kind, and the other of the two kinds clears it, in FP64 too (08 R232, R234). -/
def Scale.onMap (x : Scale) (t : Tensor) : Scale :=
  let learns := t.kind == 3 || t.kind == 4
  match x.hist? t.id with
  | some h => { x with hists := putHist (if learns && h.kind != t.kind then Hist.new t.id t.format t.kind else { h with format := t.format }) x.hists }
  | none => if learns && histFormat t.format then { x with hists := putHist (Hist.new t.id t.format t.kind) x.hists } else x

/-- An unmapped tensor's history shows format 0 (08 R232). -/
def Scale.onUnmap (x : Scale) (id : Word) : Scale :=
  { x with hists := x.hists.map (fun h => if h.tensorId == id then { h with format := 0 } else h) }

/-! ### Writing the codes (08 R238) -/

/-- The step that decides next: the committing one, else the open one. -/
def Job.oldest (j : Job) : Option Step := j.committing.or j.opened

/-- Change the step that decides next. -/
def Job.setOldest (j : Job) (f : Step → Step) : Job :=
  if j.committing.isSome then { j with committing := j.committing.map f } else { j with opened := j.opened.map f }

/-- Store one byte in a job's working view. -/
def State.putWorking (s : State) (job : Word) (a : Nat) (b : Byte) : State :=
  s.updJob job (fun j =>
    let v := View.write { ovs := [j.working.getD Overlay.empty], base := s.mem.cells } a b
    { j with working := some (v.ovs.headD Overlay.empty) })

/-- Write one managed tensor's code into the working view of its scale tensor, a `fresh` one from its history or the one last written; clamps and first uses are counted (08 R237). -/
def State.writeCode (s : State) (job : Word) (fresh : Bool) (t : Tensor) : State :=
  match (s.job? job).bind (fun j => j.tensors.find? (·.id == t.scaleId)), managedMax t.kind t.format with
  | some sc, some T =>
    let h := ((s.job? job).bind (fun j => j.scale.hist? t.id)).getD (Hist.new t.id t.format t.kind)
    let k := if fresh then h.code T else (h.scaleCode, false)
    let s1 := if fresh && k.2 then s.count 5 1 else s
    let s2 := if fresh && h.maxima.isEmpty then s1.count 6 1 else s1
    let s3 := s2.updJob job (fun j => { j with scale := { j.scale with hists := putHist { h with scaleCode := k.1 } j.scale.hists } })
    s3.putWorking job sc.base (BitVec.ofNat 8 k.1)
  | _, _ => s

/-- The tensors whose codes the attempts of a job's oldest step have already had. -/
def Job.coded (j : Job) : List Word := (j.oldest.map (fun p => p.coded)).getD []

/-- An attempt of a job's oldest step starts: the working view equals the committed one but for the codes of the managed tensors, new ones for a
new step and the same again at a frog's restart; a tensor that has become managed since takes its first code from its history (03 R83, 08 R238,
R251). -/
def State.startAttempt (s : State) (job : Word) (fresh : Bool) : State :=
  let s1 := s.updJob job (fun j => { j with working := some Overlay.empty })
  let ts := ((s.job? job).map (fun j => j.tensors.filter Tensor.managed)).getD []
  let had := if fresh then [] else ((s.job? job).map Job.coded).getD []
  (ts.foldl (fun x t => x.writeCode job (!had.contains t.id) t) s1).updJob job (fun j => j.setOldest (fun p => { p with coded := ts.map (fun t => t.id) }))

/-! ### Outcomes (08 R230, R236) -/

/-- Append an attempt maximum: sixteen are kept, the newest first. -/
def Hist.append (h : Hist) (m : Word) (step : Nat) : Hist := { h with maxima := (m :: h.maxima).take 16, newestStep := step }

/-- Append the maxima of the deciding attempt to the histories of the kinds that take them. -/
def Scale.append (x : Scale) (maxima : List (Word × Word)) (step : Nat) (activationOnly : Bool) : Scale :=
  { x with hists := x.hists.map (fun h => match maxima.lookup h.tensorId with
      | some m => if activationOnly && h.kind != 3 then h else h.append m step
      | none => h) }

/-- COMMIT. -/
def Scale.commit (x : Scale) (maxima : List (Word × Word)) (step : Nat) : Scale :=
  let full := decide (1000 ≤ x.clean + 1)
  { (x.append maxima step false) with
    g := if full && decide (x.g < 0) then x.g + 1 else x.g
    clean := if full then 0 else x.clean + 1
    commits := x.commits + 1
    lastStep := some step }

/-- SKIP. -/
def Scale.skip (x : Scale) (maxima : List (Word × Word)) (step : Nat) : Scale :=
  { (x.append maxima step true) with g := max (x.g - 1) (-24), clean := 0, skips := satAdd 32 x.skips 1, lastStep := some step }

/-- A new job's scale state (08 R230). -/
def Scale.new : Scale := { g := 0, clean := 0, commits := 0, skips := 0, lastStep := none, hists := [] }

end Sys2Proof.Machine
end

