-- ==== Sys2Proof/Machine/Lifecycle.lean ====
section
/-! DEFINITION. How work ends: bookings and trace records of a course, dropping a course, the boundary after it, what becomes
visible to the host, and reports to the other members (03 R107, R109; 05 R173, R177; 15 R418, R427 to R429). -/

namespace Sys2Proof.Machine

/-! ### Trace records of a course and a step (15 R429) -/

/-- The marker a record of a course names. -/
def Course.markField (c : Course) : Nat := (c.emit.map (fun m => m.1.toNat)).getD 0

/-- A RETIRE record: 0 retired, 1 aborted, 2 abandoned, 3 withdrawn, with the abort cause. -/
def State.traceRetire (s : State) (c : Course) (value cause : Nat) : State :=
  s.traceRec (some c.job) 0x05 (s.lowestUnit c) s.stitch true
    (tracePayload c.job.toNat c.markField c.stepField c.patternTag.toNat 0 value cause)

/-- A STEP record: the deadline in force and the result field (15 R429). -/
def State.traceStep (s : State) (job : Word) (p : Step) (result : Nat) : State :=
  s.traceRec (some job) 0x07 184 s.stitch true (tracePayload job.toNat 0 p.number 0 (p.deadline.getD counterMax) result 0)

/-! ### Waits that end with a launch or with the course (15 R417, R418, R427) -/

/-- A wait that no launch and no frame has ended goes with its course: booked to LAUNCH_WAIT where several markers stayed open, or to FROG;
nothing awaited has come, so no source is named, and of several markers the identifier is a free value. -/
def State.dropWait (frog : Bool) (c : Course) (s : State) (e : WaitSpan) : State :=
  let several := waitCause e.key == 255
  let cause := if several then 4 else waitCause e.key
  let mark := match c.after with
    | [m] => (s.job? c.job).bind (fun j => j.named m.1 m.2)
    | _ => none
  let port := if cause = 2 && waitKind e.key = 0 then mark.bind s.waitPort else none
  let s1 := if several then s.bookTo e.unit (if frog then 8 else 4) e.n c.job else s
  let s2 := if frog then s1 else s1.chargePort c port e.n
  let o := if waitKind e.key ≠ 0 then (0, s2) else match c.after with
    | [m] => (m.1.toNat, s2)
    | _ => (s2.free.1.toNat % 2 ^ 32, s2.free.2)
  o.2.traceWait c e.unit e.first e.last cause (waitKind e.key) (port.getD 0xFF) (0xFFFFFFFF, o.1)

/-- The waits of a course on the units that launch end. -/
def State.endWaits (s : State) (c : Course) (us : List LUnit) : State :=
  let nums := (us.map (s.unitNumbers c)).flatten
  let s1 := (c.waitAcc.filter (fun e => nums.contains e.unit)).foldl (fun x e => x.endWait c e) s
  s1.updCourse c.id (fun d => { d with waitAcc := d.waitAcc.filter (fun e => !nums.contains e.unit) })

/-- Book what a course's attempt spent: to its causes, or wholly to FROG; its waits that have not ended go with it (15 R417, R418, R427). -/
def State.bookAttempt (s : State) (c : Course) (frog : Bool) : State :=
  let s1 := c.shadow.foldl (fun x e => x.bookTo e.1 (if frog then 8 else e.2.1) e.2.2 c.job) s
  let s2 := c.waitAcc.foldl (State.dropWait frog c) s1
  let ports := if frog then [] else ((s2.course? c.id).map (·.shadowPorts)).getD []
  let s3 := ports.foldl (fun (x : State) p => x.countPort p.1 p.2) s2
  s3.updCourse c.id (fun c => { c with shadow := [], shadowPorts := [], waitAcc := [] })

/-! ### Reports (10 R294, R304; 15 R428) -/

/-- A report frame. -/
def reportFrame (payload : List Byte) : Frame := controlFrame 0x23 0xFFFF payload

/-- A report goes out to every member, or on: it is told by its content, which names its member and its stitch; the first copy leaves on
every port that carries time frames, each sending traced for an open job, and later copies are dropped (10 R297, R304; log 111). -/
def State.reportAll (s : State) (job : Word) (payload : List Byte) : State :=
  if s.skein.reports.contains payload then s
  else s.timePorts.foldl (fun x k => x.sendReserved k { frame := reportFrame payload, since := x.stitch, job := some job })
    { s with skein := { s.skein with reports := payload :: s.skein.reports } }

/-- A report frame has arrived: traced, and one of another member is handed on (10 R297, 15 R428). -/
def State.relayReport (s : State) (via : Arrival) (member : BitVec 16) (job : Word) (payload : List Byte) : State :=
  let s1 := s.traceRec (some job) 0x03 (152 + via.link) s.stitch false (s.linkPayload via.link (reportFrame payload) via.seq.toNat job.toNat)
  if member == s.skein.device then s1 else s1.reportAll job payload

/-- The contents of reports (03 R106, R114, 13 R388; log 16). -/
def verdictBytes (member : BitVec 16) (job : Word) (step verdict decided : Nat) : List Byte :=
  le 1 1 ++ le 2 member.toNat ++ le 4 job.toNat ++ le 8 step ++ le 1 verdict ++ le 8 decided
def markBytes (member : BitVec 16) (job marker : Word) (at0 unit : Nat) : List Byte :=
  le 1 2 ++ le 2 member.toNat ++ le 4 job.toNat ++ le 4 marker.toNat ++ le 8 at0 ++ le 1 unit
def cutBytes (member : BitVec 16) (cut taken : Nat) : List Byte := le 1 3 ++ le 2 member.toNat ++ le 8 cut ++ le 8 taken

/-! ### The end of an attempt -/

/-- A frame of a course whose frame time has not come is not sent: its emission goes. -/
def State.unsends (s : State) (id : Nat) (e : Emission) : Bool :=
  match e with
  | .frame k leaves f _ _ => decide (s.stitch < leaves) && (s.link k).replay.any (fun r => r.course == some id && r.sentAt == leaves && r.frame == f)
  | _ => false

/-- What an attempt leaves behind goes: swatches are discarded and frames not yet sent are purged (11 R332, 13 R372). -/
def State.purge (s : State) (id : Nat) : State :=
  let mine := fun (r : Replay) => r.course == some id
  { s with
    swatches := s.swatches.filter (·.course != id), txq := s.txq.filter (·.course != some id)
    links := s.links.map (fun (l : Link) => { (l.takeBack (l.replay.filter mine) s.stitch) with
      replay := l.replay.filter (fun r => !mine r), resend := l.resend.filter (fun r => !mine r)
      txbuf := l.txbuf.filter (·.course != id) })
    out := s.out.filter (fun e => !s.unsends id e)
    credits := s.links.foldl (fun cs (l : Link) => ((l.replay ++ l.resend).filter mine).foldl (fun cs r =>
      cs.modify r.port (fun row => row.modify r.channel (fun v => min 128 (v + 1)))) cs) s.credits }

/-- The emissions of a course become void (03 R107). -/
def State.voidEmissions (s : State) (c : Course) : State :=
  s.updJob c.job (fun j => { j with markers := j.markers.map (fun e => if e.course = c.id then { e with status := .void } else e) })

/-- The units on which a course ran reach its boundary: idle from now, waiting retirements and row maps take effect (05 R152, R173;
13 R374, R375; 14 R394). -/
def State.boundary (s : State) (c : Course) : State :=
  let now := s.stitch
  let set := fun (l : List Nat) (us : List Nat) => us.foldl (fun a u => a.set u now) l
  let used := s.occupied c
  let ns := used.foldl (fun ns u => ns.modify u (fun (x : Needle) => { x with idleSince := now + x.swatchLeft })) s.needles
  let pw := { s.pw with panelIdle := set s.pw.panelIdle c.panels, engineIdle := set s.pw.engineIdle c.engines }
  if c.running then (({ s with pw := pw, needles := ns }).retireFree).mapFailedRows else s

/-! ### Poison that writes clear (12 R343) -/

/-- The poisoned granules that a course has overwritten wholly. -/
def State.overwritten (s : State) (c : Course) : List Nat :=
  s.mem.poison.filter (fun g => (List.range granuleBytes).all (fun i => c.wrote.any (fun w => w.1 == g * granuleBytes + i)))

/-! ### Tiles: flag records and sample counters (06 R204; 13 R368) -/

/-- The physical needle that runs a logical needle's shard: its own, else the first other of the course in the panel, else the substitute
(05 R175). -/
def State.runner (s : State) (c : Course) (l : Nat) : Option Nat :=
  let p := c.place l
  ((s.ownNeedle c l).or ((c.needles.filter (fun k => c.place k == p)).filterMap (s.ownNeedle c)).head?).or (c.subs.find? (fun u => u / 12 == p))

/-- The content of a numeric flag record. -/
def FlagRec.bytes (f : FlagRec) (stitch : Nat) : List Byte :=
  record 48 ([(0, 4, f.tensor.toNat), (4, 2, f.op), (6, 1, f.bits.toNat), (7, 1, f.operand), (8, 4, f.row), (12, 4, f.col), (16, 4, f.batch),
    (20, 2, f.first), (22, 2, f.count), (40, 8, stitch)] ++ (List.range 4).map (fun i => (24 + 4 * i, 4, f.coord.getD i 0)))

/-- One flag record is counted and traced; the tile was written at some stitch since the launch, a free value. -/
def State.flagTile (s : State) (c : Course) (f : FlagRec) : State :=
  let d := s.free
  let from0 := c.launchedAt.getD s.stitch
  let at0 := from0 + d.1.toNat % (s.stitch - from0 + 1)
  let unit := if c.target = 1 then (s.runner c f.needle).getD (s.lowestUnit c) else s.lowestUnit c
  (d.2.count 4 1).traceRec (some c.job) 0x09 unit at0 true (f.bytes at0)

/-- The flag records of an attempt that aborts: those of the tiles written by then, which is a free choice. -/
def State.flagSome (s : State) (c : Course) : State :=
  c.flags.foldl (fun x f =>
    let d := x.free
    if d.1.getLsbD 0 then d.2.flagTile c f else d.2) s

/-- The eligible tiles of a course that a physical needle writes, with their places in the course's list. -/
def State.tilesOn (s : State) (c : Course) (u : Nat) : List (Nat × TileRec) :=
  (c.tiles.zipIdx.filter (fun (e : TileRec × Nat) => e.1.eligible && s.runner c e.1.needle == some u)).map (fun e => (e.2, e.1))

/-- How many of them the sample counter has counted. -/
def Course.countedOn (c : Course) (u : Nat) : Nat := (c.counted.lookup u).getD 0

/-- A needle counts tiles of a course: the sample counter falls, and the windows of R373 and R374 move. -/
def State.countTiles (s : State) (id u n : Nat) : State :=
  let s1 := s.updNeedle u (fun x => { x.wrote n with sample := x.sample - n })
  s1.updCourse id (fun c => { c with counted := (u, c.countedOn u + n) :: c.counted.filter (fun e => e.1 != u) })

/-- At an abort a needle has written some of the tiles left, fewer than reach its next swatch: a free number. -/
def State.countSome (s : State) (c : Course) : State :=
  (s.occupied c).foldl (fun x u =>
    let d := x.free
    let rest := (x.tilesOn c u).length - c.countedOn u
    d.2.countTiles c.id u (d.1.toNat % (min rest ((x.needle u).sample - 1) + 1))) s

/-- The units on which a course runs. -/
def State.runningUnits (s : State) (c : Course) : List Nat := (c.launchedUnits.map (s.unitNumbers c)).flatten

/-- A running course stops on every unit: aborts are counted per unit, a RETIRE record says why. -/
def State.stopCourse (s : State) (c : Course) (value cause : Nat) : State :=
  if c.running then
    let s1 := (s.flagSome c).countSome c
    ((s1.runningUnits c).foldl (fun x u => x.countUnit u 10 1) s1).traceRetire c value cause
  else s

/-- A course goes for good: it leaves every queue, its emissions are void, its staging pages return. -/
def State.dropCourse (s : State) (c : Course) (value : Nat) : State :=
  let s1 := (s.stopCourse c value 0).bookAttempt c (c.shadowed)
  let s2 := ((s1.leaveAll c.id).purge c.id).voidEmissions c
  ({ s2 with courses := s2.courses.filter (·.id != c.id) }).boundary c

/-! ### What the host sees (03 R109) -/

/-- The bytes that become visible show through a write that stays hidden: they replace those of its old pages. -/
def Unseen.seeThrough (e x : Unseen) : Unseen :=
  { e with old := { e.old with cells := Memory.put e.old.cells (x.wrote.filter (fun c => e.old.pages.contains (pageOf c.1))) } }

/-- The hidden writes, oldest first, once those of a predicate have become visible. -/
def exposeList (p : Unseen → Bool) : List Unseen → List Unseen
  | [] => []
  | e :: es => if p e then exposeList p es else (es.filter p).foldl Unseen.seeThrough e :: exposeList p es

/-- Writes to free tensors of the courses of a predicate become visible to the host, also where an earlier write of another course to the same
page stays hidden. -/
def State.expose (s : State) (p : Unseen → Bool) : State := { s with mem := { s.mem with hostOld := exposeList p s.mem.hostOld } }

/-- The bytes that a course has written into an overlay's pages, as they stand there. -/
def Course.bytesIn (c : Course) (o : Overlay) : List Host.Cell :=
  (((c.wrote.map (·.1)).filter (fun a => o.pages.contains (pageOf a))).dedup).map (fun a => (a, Memory.read o.cells a))

/-- The host keeps seeing the pages of free tensors that a retirement replaces. -/
def State.hide (s : State) (c : Course) (new : Overlay) : State :=
  let o : Overlay := { pages := new.pages, cells := Memory.inside s.mem.cells new.pages.contains }
  if new.pages.isEmpty then s
  else { s with mem := { s.mem with hostOld := s.mem.hostOld ++
    [Unseen.mk c.id c.job c.inStep c.step c.needles c.engines c.links o (c.bytesIn new)] } }

/-- A list covers another. -/
def covers (a b : List Nat) : Bool := b.all a.contains

/-- A DEVICE or SKEIN marker of a course has completed: its own free writes become visible, and those of every earlier course whose
units it includes. -/
def State.exposeBy (s : State) (c : Nat) (needles engines links : List Nat) : State :=
  s.expose (fun e => e.course == c || (decide (e.course < c) && covers needles e.needles && covers engines e.engines && covers links e.links))

/-! ### Closing (03 R88) -/

/-- The job is closed: patterns, tensors, structures and the pool go, the ring stops (15 R433), its ranges hold the committed view, and deferred
page retirements find free pages. -/
def State.closeJob (s0 : State) (j : Job) (tag : CmdTag) : State :=
  let s := s0.endHostWaits (fun _ id => id == j.id)
  let mine := fun p => j.ranges.any (fun r => pageIn r.1 r.2 p)
  let cells := match (s.job? j.id).bind (·.ring) with
    | some r => TraceRing.header s.mem.cells j.id.toNat { r with running := false }
    | none => s.mem.cells
  let s1 := { s with
    jobs := s.jobs.filter (·.id != j.id)
    mem := { s.mem with
      cells := cells
      hostOld := (s.mem.hostOld.map (fun (e : Unseen) => { e with old := e.old.part (fun p => !mine p) })).filter (fun (e : Unseen) => !e.old.pages.isEmpty) } }
  (s1.serveDeferred).finish tag [stDone] (j.lastCommitted.getD counterMax)

/-! ### Changed entries that wait (09 R262, R263) -/

/-- A value with a change applied; none when an addition is not finite. -/
def applyEntry (vs : List Dword) (e : Nat × Bool × Dword) : Option (List Dword) :=
  if e.2.1 then
    let v := fp64.rne ((fp64.decode (vs.getD e.1 0).toNat).add (fp64.decode e.2.2.toNat))
    if v.finite then some (vs.set e.1 (BitVec.ofNat 64 (fp64.round v).1)) else none
  else some (vs.set e.1 e.2.2)

/-- The values after a DELTA_UPDATE, whole or not at all. -/
def applyEntries (vs : List Dword) (es : List (Nat × Bool × Dword)) : Option (List Dword) :=
  es.foldl (fun o e => o.bind (fun vs => applyEntry vs e)) (some vs)

/-- Apply one DELTA_UPDATE to the committed version; the factor becomes stale. -/
def State.applyDelta (s : State) (job : Word) (h : Nat) (d : DeltaWait) : State :=
  match (s.job? job).bind (fun j => j.structures.find? (·.handle == h)) with
  | none => s
  | some x =>
    match applyEntries x.committed.values d.entries with
    | none => s.finish d.tag [stBadField] 0
    | some vs =>
      (s.updJob job (fun j => { j with structures := j.structures.map (fun (y : Structure) =>
        if y.handle = h then { y with committed := { y.committed with values := vs, valueGen := y.committed.valueGen + 1 } } else y) })).finish
        d.tag [stDone] d.entries.length

/-- The operations that a DELTA_UPDATE waits for have ended. -/
def State.deltaReady (s : State) (d : DeltaWait) : Bool := !(s.courses.any (fun c => d.after.contains c.id && c.live))

/-- Apply the first waiting DELTA_UPDATEs of a structure that need not wait any more. -/
def State.flushDelta (s : State) (job : Word) (h : Nat) : List DeltaWait → State
  | [] => s
  | d :: ds =>
    if s.deltaReady d then
      State.flushDelta ((s.updJob job (fun j => { j with structures := j.structures.map (fun (y : Structure) =>
        if y.handle = h then { y with deltas := ds } else y) })).applyDelta job h d) job h ds
    else s

/-- Apply what may be applied on every structure of a job. -/
def State.flushDeltas (s : State) (job : Word) : State :=
  match s.job? job with
  | none => s
  | some j => j.structures.foldl (fun x y => x.flushDelta job y.handle y.deltas) s

/-- JOB_CLOSE ends when the job's steps, courses, copies and checkpoints have (03 R88). -/
def State.endClose (s : State) (job : Word) : State :=
  match s.job? job with
  | none => s
  | some j => match j.closing with
    | none => s
    | some tag =>
      if j.opened.isSome || j.committing.isSome || j.beginWait.isSome || s.courses.any (·.job == job) || s.snaps.any (·.tag.jobId == job) ||
          s.stash.runs.any (·.job == job) then s
      else s.closeJob j tag

/-- Work of a job has ended: waiting changes apply, and a JOB_CLOSE may end. -/
def State.tryClose (s : State) (job : Word) : State := (s.flushDeltas job).endClose job

end Sys2Proof.Machine
end

