-- ==== Sys2Proof/Machine/Steps.lean ====
section
/-! DEFINITION. The commit barrier: verdicts, outcomes, frogs and restarts, abandonment, implicit steps; STEP_BEGIN and STEP_COMMIT
(03 R111 to R117; 01 R36; 13 R377, R379). -/

namespace Sys2Proof.Machine

/-! ### The step that decides -/

/-- The number that the next STEP_BEGIN must carry. -/
def Job.wanted (j : Job) : Nat :=
  match j.committing with
  | some p => p.number + 1
  | none => j.nextStep

/-- The courses of a step, in acceptance order. -/
def State.stepCourses (s : State) (job : Word) (n : Nat) : List Course :=
  s.courses.filter (fun c => c.job == job && c.inStep && c.step == n)

/-- A swatch of one of these courses has no verdict yet. -/
def State.swatchPending (s : State) (cs : List Course) : Bool := s.swatches.any (fun w => cs.any (fun c => c.id == w.course))

/-- A link course still awaits contributions. -/
def Course.missing (c : Course) : Bool := !c.finished && c.target == 4 && c.running && decide (0 < c.awaiting)

/-- Its contributions are missing and no hot stack of this member keeps it: a member held by heat has a course that has not retired
(03 R116; 13 R391; log 61). -/
def State.lacksFrames (s : State) (c : Course) : Bool := c.missing && !s.waitsForStack c

/-- The local verdict, once it is due, with the causes of a frog: late contribution, swatch, course not retired, STEP_COMMIT late
(03 R113, R116). -/
def State.localVerdict (s : State) (j : Job) (p : Step) : Option (Verdict × BitVec 4) :=
  let cs := s.stepCourses j.id p.number
  let pend := s.swatchPending cs
  let late := match p.deadline with
    | some d => decide (d ≤ s.stitch)
    | none => false
  if p.forceFrog then some (.frog, 4)
  else if !(late || (p.commit.isSome && cs.all (·.finished) && !pend)) then none
  else
    let causes := bitsOf 4 (fun i => if i = 0 then cs.any s.lacksFrames else if i = 1 then pend || p.swatchFailed
      else if i = 2 then cs.any (fun c => !c.finished && !s.lacksFrames c) else p.commit.isNone)
    some (if causes ≠ 0 then .frog else if p.nonFinite then .skip else .pass, BitVec.ofNat 4 causes)

/-- The result field of STEP_COMMIT (03 R116). -/
def Step.result (p : Step) (kind : Nat) : Nat := kind + 4 * (p.attempt % 4) + 16 * p.causes.toNat

/-- End a step's STEP_COMMIT, if it was accepted and has not been answered. -/
def State.endStep (s : State) (job : Word) (p : Step) (codes : List Nat) (kind : Nat) : State :=
  let s1 := s.traceStep job p (p.result kind)
  match (if p.answered then none else p.commit) with
  | some t => s1.finish t codes (p.result kind)
  | none => s1

/-! ### COMMIT and SKIP (03 R115, R118; 08 R230) -/

/-- Working versions of step-written structures become committed ones, or are dropped (09 R261). -/
def Structure.settle (x : Structure) (commit : Bool) : Structure :=
  { x with committed := if commit then x.working.getD x.committed else x.committed, working := none }

/-- The job after a commit or a skip; a next step whose STEP_COMMIT has been accepted becomes the committing one. -/
def Job.outcome (j : Job) (p : Step) (skip : Bool) : Job :=
  let next := match j.opened with
    | some q => if q.commit.isSome then (none, some q) else (some q, none)
    | none => (none, none)
  let sc := if skip then j.scale.skip p.maxima p.number else j.scale.commit p.maxima p.number
  { j with
    opened := next.1
    committing := next.2
    working := none
    nextStep := p.number + 1
    lastCommitted := if skip then j.lastCommitted else some p.number
    scale := sc
    scaleAt := sc
    structures := j.structures.map (fun x => x.settle (!skip)) }

/-- The step's courses go; their stitches are booked to their causes. -/
def State.releaseCourses (s : State) (cs : List Course) : State :=
  let s1 := cs.foldl (fun x c => x.bookAttempt c false) s
  { s1 with courses := s1.courses.filter (fun c => !cs.any (·.id == c.id)) }

/-- COMMIT or SKIP takes effect. -/
def State.commitStep (s : State) (j : Job) (p : Step) (skip : Bool) : State :=
  let s1 := s.releaseCourses (s.stepCourses j.id p.number)
  let s2 := s1.newView j.id p.number
  let s3 := if skip then s2
    else p.cleared.foldl (fun (x : State) g => x.clearPoison (g * granuleBytes) granuleBytes) (s2.changeLatest j.id (j.working.getD Overlay.empty))
  let s4 := (s3.updJob j.id (fun j => j.outcome p skip)).expose (fun e => e.inStep && e.job == j.id && e.step == p.number)
  let s5 := if skip then s4.countJob j.id 1 1 else (s4.countJob j.id 0 1).countJob j.id 5 p.flaggedTiles
  let codes := (if skip then [stStepSkipped] else [if p.flagged then stFlagged else stDone]) ++
    (if p.attempt = 0 then [] else [stStepRepeated])
  let s6 := (s5.sweepViews j.id).endStep j.id p codes (if skip then 1 else 0)
  if (s6.job? j.id).any (fun j => j.oldest.isSome) then s6.startAttempt j.id true else s6

/-! ### FROG (03 R115, 13 R377) -/

/-- The restart stitch of a frog decided at V: the first multiple of 65,536 at or after V + 2,000,000. -/
def restartStitch (v : Nat) : Nat := (v + 2000000 + 65535) / 65536 * 65536

/-- A course without anything that an attempt left. -/
def Course.clean (c : Course) : Course :=
  { c with
    staging := Overlay.empty, stalled := [], finished := false, nonFinite := false, flags := [], maxima := [], els := [], adds := [], tiles := [], counted := [], wrote := [], run := none
    rx := [], sent := [], acked := [], missedSlots := 0, awaiting := 0, waitAcc := [], subs := [], swatchFailed := false, progress := []
    srcs := [] }

/-- A course of a frogged attempt, out of its queues until the restart: nothing of the attempt stays. -/
def Course.rerun (c : Course) (attempt restart : Nat) : Course :=
  { c.clean with
    launchStitch := if 2 ≤ c.launchKind then some restart else none
    viewNo := none, status := .frogged, ready := [], launchedAt := none, gatherSince := none, since := restart
    batchWith := [], aborts := 0, abortCauses := [], excluded := [], firstLaunch := none, attempt := attempt
    slot0 := none, shadow := [], shadowPorts := [], startedAt := [], canSend := false, restartAt := some restart }

/-- A fresh emission of a course's marker. -/
def State.renewEmission (s : State) (c : Course) : State :=
  match c.emit, (s.job? c.job).bind (fun j => j.markers.reverse.find? (fun e => e.course == c.id)) with
  | some (m, _), some e =>
    let s1 := s.updJob c.job (fun j => { j with markers := j.markers ++ [{ e with ord := s.nextId, status := .pending, panels := [], deviceAt := none, reports := [] }] })
    { (s1.updCourse c.id (fun c => { c with emit := some (m, s.nextId) })) with nextId := s.nextId + 1 }
  | _, _ => s

/-- One course of a frogged step aborts. -/
def State.frogCourse (s : State) (attempt restart : Nat) (c : Course) : State :=
  let s1 := (s.stopCourse c 1 0).bookAttempt c true
  let s2 := (((s1.leaveAll c.id).purge c.id).voidEmissions c).renewEmission c
  (s2.updCourse c.id (fun c => c.rerun attempt restart)).boundary c

/-- AFTER entries of the step's courses that named an emission of the frogged attempt name its fresh one (03 R107). -/
def State.renameAfter (s : State) (old : List Course) : State :=
  let fresh := fun o => (old.find? (fun c => c.emit.map (·.2) == some o)).bind (fun c => (s.course? c.id).bind (fun d => d.emit.map (·.2)))
  old.foldl (fun x c => x.updCourse c.id (fun d => { d with after := d.after.map (fun a => (a.1, (fresh a.2).getD a.2)) })) s

/-- The cycle of the latest edge record at or before a stitch (13 R377). -/
def State.cycleAt (s : State) (v : Nat) : Option Nat :=
  (s.gauge.records.find? (fun r => !isSub r && decide (r.stitch ≤ v))).map (fun r => r.value.toNat / 2 ^ 32)

/-- The step for its rerun: the deadline follows the restart (13 R377). -/
def State.rerunStep (s : State) (p : Step) (v : Nat) (causes : BitVec 4) : Step :=
  let restart := restartStitch v
  let base := { p with
    attempt := p.attempt + 1, moved := 0, phase := .restart restart, restarted := restart, nonFinite := false, flagged := false, flaggedTiles := 0, cleared := []
    swatchFailed := false, forceFrog := false, causes := causes, pendCauses := 0, verdict := none, reports := [], maxima := [] }
  if p.deadlineKind = 0 then { base with deadline := some (restart + p.span * 1000) }
  else
    let c := (s.cycleAt v).getD (p.deadlineRaw.toNat / 2 ^ 32 - 1)
    let point := (c + p.span) * 2 ^ 32 + p.deadlineRaw.toNat % 2 ^ 32
    { base with deadlineRaw := BitVec.ofNat 64 point, deadline := bindPoint s.gauge.quad s.gauge.records point }

/-- Running work of the step stops, the working view and versions go. -/
def State.discardWork (s : State) (job : Word) : State :=
  s.updJob job (fun j => { j with working := none, structures := j.structures.map (fun x => x.settle false) })

/-- A FROG that reruns. -/
def State.repeatStep (s : State) (j : Job) (p : Step) (v : Nat) (causes : BitVec 4) : State :=
  let cs := s.stepCourses j.id p.number
  let s1 := cs.foldl (fun x c => x.frogCourse (p.attempt + 1) (restartStitch v) c) s
  ((s1.renameAfter cs).discardWork j.id).updJob j.id (fun k => k.setOldest (fun p => s.rerunStep p v causes))

/-- A step is discarded: its courses go and its commands end. -/
def State.discardStep (s : State) (job : Word) (p : Step) (codes : List Nat) : State :=
  let s1 := (s.stepCourses job p.number).foldl (fun x c => x.dropCourse c 1) s
  s1.endStep job p codes 3

/-- A fourth FROG, decided at V, abandons the step; a step opened after it is discarded.  Verdicts and completions up to V belong to the abandoned
attempts (03 R115, R117; 13 R377, R379). -/
def State.abandonStep (s : State) (j : Job) (p : Step) (v : Nat) (causes : BitVec 4) : State :=
  let p1 := { p with causes := causes }
  let s1 := (s.stepCourses j.id p.number).foldl (fun x c => x.dropCourse c 1) s
  let later := if j.committing.isSome then j.opened else none
  let s2 := (s1.discardWork j.id).updJob j.id (fun k =>
    { k with opened := none, committing := none, nextStep := p.number, dropUntil := some (s.stitch + 1000000), freshFrom := v + 1
             verdicts := k.verdicts.filter (fun r => decide (v < r.2.2.2)) })
  let s3 := s2.cper { cls := 10, sev := sevRecoverable, status := stStepAbandoned, unit := 184, job := j.id.toNat, step := p.number, attempt := 3
                      detail := [BitVec.ofNat 8 (causes.toNat * 16)] }
  let s4 := (s3.countJob j.id 3 1).endStep j.id p1 [stStepAbandoned, stStepRepeated] 2
  match later with
  | some q => s4.discardStep j.id q [stStepAbandoned]
  | none => s4

/-- FROG takes effect. -/
def State.frogStep (s : State) (j : Job) (p : Step) (v : Nat) (causes : BitVec 4) : State :=
  let s1 := s.countJob j.id 2 1
  if 3 ≤ p.attempt then s1.abandonStep j p v causes else s1.repeatStep j p v causes

/-- The outcome of a job's oldest step takes effect. -/
def State.conclude (s : State) (job : Word) (o : Verdict) (v : Nat) (causes : BitVec 4) : State :=
  match s.job? job with
  | none => s
  | some j => match j.oldest with
    | none => s
    | some p => match o with
      | .frog => s.frogStep j p v causes
      | .skip => s.commitStep j p true
      | .pass => s.commitStep j p false

/-! ### Deciding (03 R113, R114) -/

/-- The worse of two verdicts. -/
def worse (a b : Verdict) : Verdict :=
  match a, b with
  | .frog, _ => .frog
  | _, .frog => .frog
  | .skip, _ => .skip
  | _, .skip => .skip
  | _, _ => .pass

/-- Codes of a verdict in a report (log 16). -/
def verdictCode : Verdict → Nat
  | .pass => 0
  | .skip => 1
  | .frog => 2

/-- With every member's verdict in, or this module's for a local job, the outcome is decided.  DESIGN CHOICE (log 98): where the frog comes from another member's report or a
missing verdict, the cause bits of R116 are this member's own, 0 when it passed. -/
def State.collectVerdicts (s : State) (job : Word) : State :=
  match s.job? job with
  | none => s
  | some j => match j.oldest with
    | none => s
    | some p => match p.verdict with
      | none => s
      | some (v, at0) =>
        if j.skein && decide (p.reports.length + 1 < j.memberCount) then s
        else s.conclude job (p.reports.foldl (fun w r => worse w r.2.1) v) (p.reports.foldl (fun m r => max m r.2.2) at0) p.pendCauses

/-- Change the step of a number. -/
def Job.updStep (j : Job) (number : Nat) (f : Step → Step) : Job :=
  let g := fun (p : Step) => if p.number = number then f p else p
  { j with opened := j.opened.map g, committing := j.committing.map g }

/-- A step whose local verdict is due decides it at once, also while the step before it commits; the members of a skein job hear of it
(03 R113, R114). -/
def State.judge (s : State) (job : Word) (p : Step) : State :=
  match s.job? job with
  | none => s
  | some j =>
    if p.phase != .running then s
    else match s.localVerdict j p with
      | none => s
      | some (v, causes) =>
        let s1 := s.updJob job (·.updStep p.number (fun p => { p with phase := .decided, verdict := some (v, s.stitch), pendCauses := causes }))
        if j.skein then s1.reportAll job (verdictBytes s.skein.device job p.number (verdictCode v) s.stitch) else s1

/-- Decide the local verdicts of a job's steps that are due, then the outcome of the oldest. -/
def State.settleOnce (s : State) (job : Word) : State :=
  if s.cutStops then s
  else match s.job? job with
    | none => s
    | some j =>
      let s1 := (j.committing.toList ++ j.opened.toList).foldl (fun (x : State) p => x.judge job p) s
      if ((s1.job? job).bind (·.oldest)).any (fun p => p.phase == .decided) then s1.collectVerdicts job else s1

/-- Decide what is due: the oldest step, the one behind it, and the end of a JOB_CLOSE. -/
def State.settle (s : State) (job : Word) : State := (((s.settleOnce job).settleOnce job).settleOnce job).tryClose job

/-- STEP_DEADLINE: the deadline of a step of the job arrives and the member decides (03 R113). -/
def execStepDeadline (t : Stitch) (job : Word) (s : State) : Host.Outcome State Fault Refusal := s.act t (·.settle job)

/-- A verdict report that arrives at a stitch: the first of each member counts, for the step that it names; one decided before the restart of the
attempt that runs belongs to an attempt that has frogged or was abandoned, and one that comes later than 1 ms after the deadline is missing
(03 R114). -/
def Step.report (p : Step) (now : Nat) (member : BitVec 16) (v : Verdict) (decided : Nat) : Step :=
  if p.reports.any (·.1 == member) || decide (decided < p.restarted) || p.deadline.any (fun d => decide (d + 1000000 < now)) then p
  else { p with reports := p.reports ++ [(member, v, decided)] }

/-- A job takes a verdict report: for its open or committing step, or for a step that this member has not yet begun, which then finds it. -/
def Job.takeVerdict (j : Job) (now : Nat) (member : BitVec 16) (step : Nat) (v : Verdict) (decided : Nat) : Job :=
  let take := fun (o : Option Step) => o.map (fun p => if p.number = step then p.report now member v decided else p)
  if (j.opened.toList ++ j.committing.toList).any (·.number == step) then { j with opened := take j.opened, committing := take j.committing }
  else if decide (decided < j.freshFrom) || decide (step < j.wanted) || j.verdicts.any (fun r => r.1 == member && r.2.1 == step) then j
  else { j with verdicts := j.verdicts ++ [(member, step, v, decided)] }

/-- A verdict report of another member is taken (03 R114). -/
def State.verdictIn (s : State) (member : BitVec 16) (job : Word) (step : Nat) (v : Verdict) (decided : Nat) : State :=
  match s.job? job with
  | none => s
  | some j =>
    if !j.skein || member == s.skein.device then s
    else (s.updJob job (·.takeVerdict s.stitch member step v decided)).settle job

/-- VERDICT_REPORT_RECEIVED: handed on and taken (03 R114). -/
def State.verdictReport (s : State) (via : Arrival) (member : BitVec 16) (job : Word) (step : Nat) (v : Verdict) (decided : Nat) : State :=
  (s.relayReport via member job (verdictBytes member job step (verdictCode v) decided)).verdictIn member job step v decided

def execVerdictReportReceived (t : Stitch) (sender : Sender) (job : Word) (step : Dword) (verdict : Verdict) (decided : Nat) (s : State) :
    Host.Outcome State Fault Refusal :=
  s.act t (·.verdictReport sender.via sender.member job step.toNat verdict decided)

/-- VERDICT_TIMEOUT: a verdict is still missing 1 ms after the deadline; the outcome is FROG, decided at that moment (03 R114,
13 R377). -/
def State.verdictTimeout (s : State) (job : Word) : State :=
  match s.job? job with
  | none => s
  | some j => match j.oldest with
    | none => s
    | some p => match p.deadline with
      | none => s
      | some d =>
        if !j.skein || s.cutStops || decide (s.stitch < d + 1000000) then s
        else match p.phase with
          | .restart _ => s
          | _ =>
            let causes := if p.verdict.isSome then p.pendCauses else ((s.localVerdict j p).map (·.2)).getD 0
            (s.conclude job .frog (d + 1000000) causes).settle job

def execVerdictTimeout (t : Stitch) (job : Word) (s : State) : Host.Outcome State Fault Refusal := s.act t (·.verdictTimeout job)

/-! ### Restart (13 R377) -/

/-- A frogged course stands in its queues again, in acceptance order (03 R115). -/
def State.reenter (s : State) (c : Course) : State :=
  c.units.foldl (fun x u => x.insertCourse u c.id) (s.updCourse c.id (fun c => { c with status := .queued, launchedUnits := [] }))

/-- Implicit steps whose restart has come (01 R36). -/
def State.dueImplicit (s : State) (job : Word) : List Course :=
  s.courses.filter (fun c => c.job == job && c.implicitStep && c.status == .frogged && (match c.restartAt with
    | some r => decide (r ≤ s.stitch)
    | none => false))

/-- FROG_RESTART: at the restart stitch the codes are written again and the courses re-enter their queues. -/
def State.frogRestart (s : State) (job : Word) : State :=
  if s.cutStops then s
  else
    let s1 := (s.dueImplicit job).foldl State.reenter s
    match (s.job? job).bind (fun j => j.oldest) with
    | none => s1
    | some p => match p.phase with
      | .restart r =>
        if s.stitch < r then s1
        else
          let s2 := (s1.updJob job (fun k => k.setOldest (fun p => { p with phase := .running }))).startAttempt job false
          (s2.stepCourses job p.number).foldl State.reenter s2
      | _ => s1

def execFrogRestart (t : Stitch) (job : Word) (s : State) : Host.Outcome State Fault Refusal := s.act t (·.frogRestart job)

/-- ABANDON_DROP_WINDOW_END: frames of the job are taken again, and a STEP_BEGIN that waited completes (13 R379). -/
def State.dropWindowEnd (s : State) (job : Word) : State :=
  match (s.job? job).bind (·.dropUntil) with
  | none => s
  | some u =>
    if s.stitch < u then s
    else
      let s1 := s.updJob job (fun j => { j with dropUntil := none, beginWait := none })
      match (s.job? job).bind (·.beginWait) with
      | some t => (s1.finish t [stDone] 0).tryClose job
      | none => s1

def execAbandonDropWindowEnd (t : Stitch) (job : Word) (s : State) : Host.Outcome State Fault Refusal := s.act t (·.dropWindowEnd job)

/-! ### Implicit steps (01 R36) -/

/-- A failed barrier frogs an implicit step under the same repeat limit. -/
def State.frogImplicit (s : State) (c : Course) : State :=
  let s1 := s.countJob c.job 2 1
  if 3 ≤ c.attempt then
    let s2 := s1.dropCourse c 2
    ((s2.cper { cls := 10, sev := sevRecoverable, status := stStepAbandoned, unit := 184, job := c.job.toNat, attempt := 3
                detail := [0x20] }).countJob c.job 3 1).tryClose c.job
  else s1.frogCourse (c.attempt + 1) (restartStitch s.stitch) c

/-- Decide an implicit step's frog once its swatches have their verdicts. -/
def State.settleImplicit (s : State) (id : Nat) : State :=
  match s.course? id with
  | some c => if c.implicitStep && c.finished && c.swatchFailed && !s.swatchPending [c] && !s.cutStops then s.frogImplicit c else s
  | none => s

/-- The barrier of an implicit step holds, the implicit steps before it have committed, and the latest view is named by nothing. -/
def State.implicitReady (s : State) (c : Course) : Bool :=
  c.implicitStep && c.finished && !c.swatchFailed && !s.swatchPending [c] && !s.cutStops &&
  !(s.courses.any (fun d => d.job == c.job && d.implicitStep && decide (d.id < c.id))) &&
  (match s.job? c.job with
   | some j => !s.viewNamed c.job j.latest
   | none => false)

/-- IMPLICIT_STEP_COMMIT: the latest view changes in place and keeps its number; a non-finite gradient skips the step. -/
def State.implicitCommit (s : State) (id : Nat) : State :=
  match s.course? id with
  | some c =>
    if s.implicitReady c then
      let s1 := if c.nonFinite then s
        else (s.overwritten c).foldl (fun (x : State) g => x.clearPoison (g * granuleBytes) granuleBytes) (s.changeLatest c.job c.staging)
      let s2 := ((s1.expose (fun e => e.course == id)).releaseCourses [c]).countJob c.job (if c.nonFinite then 1 else 0) 1
      let s3 := if c.nonFinite then s2 else s2.countJob c.job 5 c.flags.length
      (s3.sweepViews c.job).tryClose c.job
    else s
  | none => s

def execImplicitStepCommit (t : Stitch) (course : Nat) (s : State) : Host.Outcome State Fault Refusal := s.act t (·.implicitCommit course)

/-! ### STEP_BEGIN and STEP_COMMIT (03 R111, R113) -/

/-- A new step. -/
def State.newStep (s : State) (c : Cmd) : Step :=
  let kind := c.op 48 1
  let raw := c.op 56 8
  { number := c.op 40 8, deadlineKind := kind, span := c.op 52 4, deadlineRaw := BitVec.ofNat 64 raw
    deadline := if kind = 0 then some raw else bindPoint s.gauge.quad s.gauge.records raw
    moved := 0, attempt := 0, phase := .running, commit := none, answered := false, nonFinite := false, flagged := false, flaggedTiles := 0, cleared := []
    swatchFailed := false, forceFrog := false, causes := 0, pendCauses := 0, verdict := none, reports := [], restarted := ((s.job? c.tag.jobId).map (·.freshFrom)).getD 0, maxima := [], coded := [] }

/-- The step of a job opens, with the verdicts of other members that came before it (03 R114). -/
def Job.openStep (j : Job) (p : Step) : Job :=
  let mine := j.verdicts.filter (fun r => r.2.1 == p.number)
  { j with opened := some (mine.foldl (fun q r => q.report 0 r.1 r.2.2.1 r.2.2.2) p), verdicts := j.verdicts.filter (fun r => decide (p.number < r.2.1)) }

/-- STEP_BEGIN: checks, then the step is open; its attempt starts now unless a step before it is still committing; inside the
window after an abandonment its completion waits (03 R111; 01 R36; 04 R144; 08 R238; 13 R379). -/
def State.stepBegin (s : State) (c : Cmd) : State :=
  let id := c.tag.jobId
  match s.job? id with
  | none => s.finish c.tag [stBadField] 0
  | some j =>
    let bad := c.badLayout || decide (1 < c.op 48 1) || !c.zero 49 3 || c.op 52 4 == 0 || j.opened.isSome || j.closing.isSome ||
      c.op 40 8 != j.wanted || (c.op 48 1 == 1 && unbindable s.gauge.quad (c.op 56 8))
    match firstFailure [(bad, stBadField), (s.courses.any (fun d => d.job == id && d.implicitStep), stNoResource)] with
    | some k => s.finish c.tag [k] 0
    | none =>
      let wait := j.dropUntil.isSome
      let s1 := s.updJob id (fun j => { j.openStep (s.newStep c) with beginWait := if wait then some c.tag else none })
      let s2 := if j.committing.isNone then s1.startAttempt id true else s1
      (if wait then s2 else s2.finish c.tag [stDone] 0).settle id

def execStepBegin (t : Stitch) (src : Src) (io : HostIo) (s : State) : Host.Outcome State Fault Refusal :=
  s.host t src io 0x0028 false State.stepBegin

/-- STEP_COMMIT: accepted for the job's open step; its completion comes with the outcome (03 R113, R116). -/
def State.stepCommit (s : State) (c : Cmd) : State :=
  let id := c.tag.jobId
  match (s.job? id).bind (fun j => if j.closing.isSome then none else j.opened.map (fun p => (j, p))) with
  | none => s.finish c.tag [stBadField] 0
  | some (j, p) =>
    if c.badLayout || !c.zero 48 16 || c.op 40 8 != p.number || p.commit.isSome then s.finish c.tag [stBadField] 0
    else
      let q := { p with commit := some c.tag }
      (s.updJob id (fun k =>
        if j.committing.isNone then { k with opened := none, committing := some q } else { k with opened := some q })).settle id

def execStepCommit (t : Stitch) (src : Src) (io : HostIo) (s : State) : Host.Outcome State Fault Refusal :=
  s.host t src io 0x0029 false State.stepCommit

end Sys2Proof.Machine
end

