-- ==== Sys2Proof/Machine/Jobs.lean ====
section
/-! DEFINITION. Jobs, tensors and copies: JOB_OPEN with its exchange, JOB_CLOSE, TENSOR_MAP, SNAPSHOT_READ (03 R86 to R88, R96 to
R98, R119; 06 R185; 08 R228, R233, R234; 10 R302; 11 R327). -/

namespace Sys2Proof.Machine

/-! ### JOB_OPEN (03 R86, R87) -/

/-- Device pages from `a`, `n` of them, that lie on stack `k` when `c` stacks hold them and `k` is the i-th (03 R81). -/
def pagesOn (a n c i : Nat) : Nat := n / c + (if (i + c - a % c) % c < n % c then 1 else 0)

/-- The pages of a staging range on each stack, holes left out (03 R81, R85; 12 R346). -/
def State.poolCounts (s : State) (base length : Nat) : List Nat :=
  let ks := stackList 0 s.mem.leftOut
  let a := base / pageBytes
  let n := min (a + length / pageBytes) s.mem.limit - a
  let holes := s.mem.holes.filter (fun p => decide (a ≤ p) && decide (p < a + n))
  (List.range 12).map (fun k => match ks.idxOf? k with
    | some i => pagesOn a n ks.length i - (holes.filter (fun p => stackOfPage ks p == k)).length
    | none => 0)

/-- The job of a descriptor; the JOB fields of the configuration are taken now (02 R78). -/
def State.newJob (s : State) (c : Cmd) : Job :=
  let d := c.data
  { id := c.tag.jobId, seed := BitVec.ofNat 64 (field d 0 8), firstStep := field d 8 8
    stagingBase := field d 16 8, stagingLength := field d 24 8, pool := s.poolCounts (field d 16 8) (field d 24 8)
    memberCount := field d 32 4, skein := bitOf (field d 36 4) 0, linkIndex := 0, closing := none, patterns := [], nextPattern := 1
    tensors := [], structures := [], nextStructure := 1, markers := [], markReports := [], verdicts := [], opened := none, committing := none
    nextStep := field d 8 8, lastView := none, lastCommitted := none, views := [], changes := 0, working := none
    scale := Scale.new, scaleAt := Scale.new, ring := none, reduceFormat := s.cfg.fields.reduceSumFormat, tauLog2 := s.cfg.fields.pivotTauLog2
    refineMax := s.cfg.fields.refineStepsMax, traceMib := s.cfg.fields.traceRingMib, traceSpill := s.cfg.fields.traceSpill
    standbys := s.cfg.fields.standbyCount, dropUntil := none, beginWait := none, freshFrom := 0, counters := noCounters }

/-- Bytes of the alignment of a staging pool: 24 KiB (03 R86). -/
def poolAlign : Nat := 24576

/-- The descriptor breaks R86. -/
def State.badJob (s : State) (c : Cmd) : Bool :=
  let d := c.data
  let id := c.tag.jobId
  let r := (field d 16 8, field d 24 8)
  let n := field d 32 4
  c.badLayout || c.noJob || c.badPayload 48 || (if c.rev1 then c.operand1 != 0 else !c.zero 40 24) ||
  (s.job? id).isSome || s.openings.any (·.job.id == id) || r.1 % poolAlign != 0 || r.2 == 0 || r.2 % poolAlign != 0 || pastEnd r ||
  n == 0 || decide (65536 < n) || decide (2 ≤ field d 36 4) || (bitOf (field d 36 4) 0 != decide (1 < n)) || !zeroBytes d 40 8 ||
  (s.jobRanges ++ s.ringRanges).any (overlaps r)

/-- Link job indices of the open skein jobs of this member (10 R302). -/
def State.usedIndices (s : State) : List Nat := (s.jobs.filter (·.skein)).map (·.linkIndex)

/-- What this member says of its own JOB_OPEN. -/
def State.ownExchange (s : State) (j : Job) : OpenExchange :=
  { member := s.skein.device, seed := j.seed, firstStep := BitVec.ofNat 64 j.firstStep, memberCount := BitVec.ofNat 32 j.memberCount
    sumFormat := j.reduceFormat, usedIndices := s.usedIndices, agrees := true }

/-- Two members opened the job with the same values (03 R87, 11 R327). -/
def sameOpen (a b : OpenExchange) : Bool :=
  a.seed == b.seed && a.firstStep == b.firstStep && a.memberCount == b.memberCount && a.sumFormat == b.sumFormat

/-- The lowest-numbered of the members that answered. -/
def lowestMember (x : OpenExchange) : List OpenExchange → OpenExchange
  | [] => x
  | y :: ys => lowestMember (if y.member.toNat < x.member.toNat then y else x) ys

/-- The answers that count at a stitch: a member whose answer is 10 s old has ended its own JOB_OPEN with NO_RESOURCE (03 R87). -/
def Opening.present (o : Opening) (now : Nat) : List OpenExchange :=
  (o.answers.filter (fun a => decide (now < a.since + 10000000000))).map (·.x)

/-- How the exchange ends once every member has answered: the job opens with the lowest free index, or a code. -/
def State.exchangeEnd (s : State) (o : Opening) : Except Nat Nat :=
  let own := s.ownExchange o.job
  let xs := o.present s.stitch
  let low := lowestMember own xs
  if !sameOpen own low then .error stBadField
  else if xs.any (fun x => !sameOpen x low || !x.agrees) then .error stNoResource
  else match ((List.range 4096).drop 1).find? (fun i => !(own.usedIndices.contains i) && !(xs.any (fun x => x.usedIndices.contains i))) with
    | some i => .ok i
    | none => .error stNoResource

/-- The exchange of a JOB_OPEN ends when every other member has answered. -/
def State.tryOpen (s : State) (id : Word) : State :=
  match s.openings.find? (·.job.id == id) with
  | none => s
  | some o =>
    if (o.present s.stitch).length + 1 < o.job.memberCount then s
    else
      let s1 := { s with openings := s.openings.filter (·.job.id != id) }
      match s.exchangeEnd o with
      | .ok i => ({ s1 with jobs := s1.jobs ++ [{ o.job with linkIndex := i }] }).finish o.tag [stDone] 0
      | .error k => s1.finish o.tag [k] 0

/-- The values of a JOB_OPEN as a report carries them (log 16). -/
def openBytes (id : Word) (x : OpenExchange) : List Byte :=
  le 1 4 ++ le 2 x.member.toNat ++ le 4 id.toNat ++ le 8 x.seed.toNat ++ le 8 x.firstStep.toNat ++ le 4 x.memberCount.toNat ++ le 1 x.sumFormat ++
  x.usedIndices.flatMap (le 2)

/-- Answers of other members that came before this member's own JOB_OPEN are taken now; the roles are elected by the STANDBY_COUNT that takes
effect with this JOB_OPEN (02 R78, 04 R126). -/
def State.startOpening (s : State) (c : Cmd) (j : Job) : State :=
  let early := (s.early.filter (·.1 == j.id)).map (·.2)
  let s1 := { s with openings := s.openings ++ [Opening.mk j c.tag s.stitch early]
                     early := s.early.filter (·.1 != j.id)
                     cfg := { s.cfg with standbysNow := s.cfg.fields.standbyCount } }
  (s1.beginElection.reportAll j.id (openBytes j.id (s.ownExchange j))).tryOpen j.id

/-- JOB_OPEN: a local job opens at once, a skein job after the exchange. -/
def State.jobOpen (s : State) (c : Cmd) : State :=
  match firstFailure [(s.badJob c, stBadField), (decide (192 ≤ s.jobs.length + s.openings.length), stNoResource)] with
  | some k => s.finish c.tag [k] 0
  | none =>
    let j := s.newJob c
    if j.skein then s.startOpening c j else ({ s with jobs := s.jobs ++ [j], cfg := { s.cfg with standbysNow := s.cfg.fields.standbyCount } }).finish c.tag [stDone] 0

def execJobOpen (t : Stitch) (src : Src) (io : HostIo) (s : State) : Host.Outcome State Fault Refusal :=
  s.host t src io 0x0020 false State.jobOpen

/-- The first answer of each member counts, until it is 10 s old; one for a JOB_OPEN not yet accepted here is kept. -/
def State.takeExchange (s : State) (id : Word) (x : OpenExchange) : State :=
  if x.member == s.skein.device then s
  else match s.openings.find? (·.job.id == id) with
    | some o =>
      if (o.present s.stitch).any (fun (y : OpenExchange) => y.member == x.member) then s
      else ({ s with openings := s.openings.map (fun (p : Opening) => if p.job.id == id then
          { p with answers := p.answers.filter (fun (a : Answer) => a.x.member != x.member) ++ [Answer.mk x s.stitch] } else p) }).tryOpen id
    | none => { s with early := s.early.filter (fun e => !(e.1 == id && e.2.x.member == x.member)) ++ [(id, Answer.mk x s.stitch)] }

/-- JOB_OPEN_EXCHANGE_RECEIVED: handed on and taken. -/
def State.openExchange (s : State) (via : Arrival) (id : Word) (x : OpenExchange) : State :=
  (s.relayReport via x.member id (openBytes id x)).takeExchange id x

def execJobOpenExchangeReceived (t : Stitch) (job : Word) (report : OpenReport) (s : State) : Host.Outcome State Fault Refusal :=
  s.act t (·.openExchange report.via job report.values)

/-- Device number 0 is the lowest of every skein, and this member's values differ from those of that member (03 R87, 10 R300). -/
def State.differsFromLowest (s : State) (o : Opening) : Bool :=
  (o.present s.stitch).any (fun x => x.member == 0 && !sameOpen (s.ownExchange o.job) x)

/-- JOB_OPEN_AGREE_TIMEOUT: 10 s after the acceptance not every member has agreed; a member that differs from the lowest-numbered one still
ends with BAD_FIELD (03 R87, 00 R9). -/
def State.openTimeout (s : State) (id : Word) : State :=
  match s.openings.find? (fun o => o.job.id == id && decide (o.accepted + 10000000000 ≤ s.stitch)) with
  | some o => ({ s with openings := s.openings.filter (·.job.id != id) }).finish o.tag [if s.differsFromLowest o then stBadField else stNoResource] 0
  | none => s

def execJobOpenAgreeTimeout (t : Stitch) (job : Word) (s : State) : Host.Outcome State Fault Refusal := s.act t (·.openTimeout job)

/-! ### JOB_CLOSE (03 R88, R117; 13 R389) -/

/-- After a cut the job's steps are discarded with CUT_TAKEN and its held courses go. -/
def State.closeUnderCut (s : State) (j : Job) : State :=
  let s1 := (j.committing.toList ++ j.opened.toList).foldl (fun x p => x.discardStep j.id p [stCutTaken]) s
  let s2 := s1.updJob j.id (fun k => { k with opened := none, committing := none, nextStep := (j.oldest.map (·.number)).getD k.nextStep })
  ((s2.courses.filter (·.job == j.id)).foldl (fun x c => x.dropCourse c 1) s2).discardWork j.id

/-- Without a cut an open step whose STEP_COMMIT is not accepted is discarded. -/
def State.closeOpenStep (s : State) (j : Job) : State :=
  match j.opened with
  | some p =>
    if p.commit.isSome then s
    else
      let s1 := (s.discardStep j.id p []).updJob j.id (fun k => { k with opened := none })
      if j.committing.isSome then s1 else s1.discardWork j.id
  | none => s

/-- JOB_CLOSE: no command of the job is taken any more; it ends when its work has. -/
def State.jobClose (s : State) (c : Cmd) : State :=
  match s.openJob? c.tag.jobId with
  | none => s.finish c.tag [stBadField] 0
  | some j =>
    if c.badLayout || (if c.rev1 then c.operand1 != 0 else !c.zero 40 24) then s.finish c.tag [stBadField] 0
    else
      let s1 := s.updJob j.id (fun k => { k with closing := some c.tag })
      (if s.cutStops then s1.closeUnderCut j else s1.closeOpenStep j).settle j.id

def execJobClose (t : Stitch) (src : Src) (io : HostIo) (s : State) : Host.Outcome State Fault Refusal :=
  s.host t src io 0x0021 false State.jobClose

/-! ### TENSOR_MAP (03 R96 to R98) -/

/-- The action and the identifier of TENSOR_MAP and PATTERN_LOAD; a revision-1 entry holds one operand, 0 for action 0, the
identifier for action 1 (log 27). -/
def Cmd.actionId (c : Cmd) : Nat × Nat :=
  if c.rev1 then (if c.operand1 = 0 then (0, 0) else (1, c.operand1)) else (c.op 40 1, c.op 44 4)

/-- The operand bytes beside the action and the identifier are not zero. -/
def Cmd.actionReserved (c : Cmd) : Bool := if c.rev1 then false else !c.zero 41 3 || !c.zero 48 16

/-- The tensor of a descriptor (03 R96). -/
def tensorOf (d : List Byte) : Tensor :=
  { id := BitVec.ofNat 32 (field d 0 4), format := field d 4 1, rank := field d 5 1, kind := field d 6 1
    stepWritten := bitOf (field d 7 1) 0, hostWritable := bitOf (field d 7 1) 1
    extent := (List.range 4).map (fun i => field d (8 + 4 * i) 4), stride := (List.range 4).map (fun i => field d (24 + 8 * i) 8)
    base := field d 56 8, length := field d 64 8, stackMask := BitVec.ofNat 12 (field d 72 2)
    scaleId := BitVec.ofNat 32 (field d 76 4) }

/-- An extent of a tensor; 1 past its end. -/
def Tensor.ext (t : Tensor) (i : Nat) : Nat := t.extent.getD i 1

/-- A tensor without elements (03 R97). -/
def Tensor.empty (t : Tensor) : Bool := (List.range t.rank).any (fun i => t.ext i == 0)

/-- The element number that a coordinate list stands at (03 R96). -/
def Tensor.elemIndex (t : Tensor) (x : List Nat) : Nat := ((List.range 4).map (fun i => x.getD i 0 * t.stride.getD i 0)).sum

/-- The last element lies inside the reserved bytes. -/
def Tensor.fits (t : Tensor) : Bool :=
  t.empty || decide ((t.elemIndex ((List.range 4).map (fun i => t.ext i - 1)) + 1) * fmtBits t.format ≤ t.length * 8)

/-- Kinds and the formats they accept (08 R228). -/
def kindAccepts (kind format : Nat) : Bool :=
  if kind = 1 ∨ kind = 2 then format == 0x05
  else if kind = 3 then format == 0x02 || format == 0x05
  else if kind = 4 then format == 0x03 || format == 0x05 || format == 0x08
  else decide (kind < 7)

/-- The scale tensor of a managed tensor breaks R233. -/
def Job.badScale (j : Job) (t : Tensor) : Bool :=
  match j.tensors.find? (fun x => t.scaleId != 0 && x.id == t.scaleId) with
  | none => true
  | some x => x.format != 0x0D || x.extent.any (· != 1) || x.kind != 0 || !x.stepWritten || x.hostWritable ||
      j.tensors.any (·.scaleId == t.scaleId)

/-- A descriptor breaks R96, R97, R185, R228 or R233. -/
def State.badTensor (s : State) (j : Job) (d : List Byte) : Bool :=
  let t := tensorOf d
  fmtBits t.format == 0 || t.rank == 0 || decide (4 < t.rank) || !kindAccepts t.kind t.format || decide (4 ≤ field d 7 1) ||
  decide (4096 ≤ field d 72 2) || !zeroBytes d 74 2 || !zeroBytes d 80 16 || t.id == 0 || j.tensors.any (·.id == t.id) ||
  (List.range 4).any (fun i => decide (t.rank ≤ i) && t.ext i != 1) || t.base % 64 != 0 || t.length % 64 != 0 || !t.fits ||
  (t.format == 0x01 && (t.stride.getD 0 0 != 1 || (List.range 4).any (fun i => i != 0 && t.stride.getD i 0 % 32 != 0))) ||
  pastEnd (t.base, t.length) || (s.jobRanges ++ s.ringRanges).any (overlaps (t.base, t.length)) ||
  (t.scaleId != 0 && !([0x01, 0x02, 0x03].contains t.format)) || (t.managed && j.badScale t)

/-- Every stack that the tensor's mask names is out of service (12 R341). -/
def State.noStack (s : State) (t : Tensor) : Bool := (stackList t.stackMask s.mem.leftOut).isEmpty

/-- The bytes of a range, as they stand now, join an overlay that holds their page (03 R97). -/
def Overlay.joins (o : Overlay) (base : List Host.Cell) (a n : Nat) : Overlay :=
  let mine := fun (c : Host.Cell) => decide (a ≤ c.1) && decide (c.1 < a + n)
  { o with cells := Memory.put (o.cells.filter (fun c => !mine c)) (base.filter (fun c => mine c && o.pages.contains (pageOf c.1))) }

/-- A step has written no code yet for a tensor that is mapped now. -/
def Step.uncoded (p : Step) (id : Word) : Step := { p with coded := p.coded.filter (· != id) }

/-- Action 0: the tensor joins the job's views. -/
def State.mapTensor (s : State) (j : Job) (t : Tensor) : State :=
  let join := fun (o : Overlay) => o.joins s.mem.cells t.base t.length
  s.updJob j.id (fun k => { k with
    tensors := k.tensors ++ [t]
    scale := k.scale.onMap t
    opened := k.opened.map (·.uncoded t.id)
    committing := k.committing.map (·.uncoded t.id)
    views := k.views.map (fun (v : HeldView) => { v with
      ov := join v.ov
      poison := v.poison.filter (fun g => !t.holds (g * granuleBytes)) ++
        s.mem.poison.filter (fun g => t.holds (g * granuleBytes) && v.ov.pages.contains (g / pageGranules)) })
    working := k.working.map join })

def State.tensorMapIn (s : State) (c : Cmd) (j : Job) : State :=
  let d := c.data
  let t := tensorOf d
  match firstFailure [(c.badPayload 96 || s.badTensor j d, stBadField),
      (decide (65536 ≤ j.tensors.length) || s.noStack t, stNoResource)] with
  | some k => s.finish c.tag [k] 0
  | none => (s.mapTensor j t).finish c.tag [stDone] 0

/-- A course binds a tensor, itself or as the scale of a managed tensor that it binds (08 R233). -/
def Course.binds (c : Course) (j : Job) (id : Word) : Bool :=
  c.bindings.any (fun b => b.2 == id || j.tensors.any (fun t => t.id == b.2 && t.managed && t.scaleId == id))

/-- A tensor may not be unmapped now (03 R98). -/
def State.tensorBusy (s : State) (j : Job) (t : Tensor) : Bool :=
  s.courses.any (fun c => c.job == j.id && c.live && c.binds j t.id) ||
  (t.stepWritten && (j.opened.isSome || j.committing.isSome)) ||
  s.snaps.any (fun x => x.tag.jobId == j.id && x.entries.any (·.1 == t.id)) ||
  s.stash.runs.any (fun r => r.job == j.id && !r.restore)

/-- Action 1: a managed tensor takes its scale tensor along, and a deferred page retirement may find a page (12 R346). -/
def State.tensorUnmap (s : State) (c : Cmd) (j : Job) (id : Word) : State :=
  match j.tensors.find? (·.id == id) with
  | none => s.finish c.tag [stBadField] 0
  | some t =>
    let group := t :: j.tensors.filter (fun x => t.managed && x.id == t.scaleId)
    if j.tensors.any (fun x => x.managed && x.scaleId == id) || group.any (s.tensorBusy j) then s.finish c.tag [stNoResource] 0
    else
      let s1 := s.updJob j.id (fun k => { k with
        tensors := k.tensors.filter (fun x => !group.any (·.id == x.id))
        scale := group.foldl (fun sc x => sc.onUnmap x.id) k.scale })
      s1.serveDeferred.finish c.tag [stDone] 0

/-- TENSOR_MAP. -/
def State.tensorMap (s : State) (c : Cmd) : State :=
  match s.openJob? c.tag.jobId with
  | none => s.finish c.tag [stBadField] 0
  | some j =>
    let a := c.actionId
    if c.badLayout || c.actionReserved || decide (1 < a.1) then s.finish c.tag [stBadField] 0
    else if a.1 = 0 then s.tensorMapIn c j
    else s.tensorUnmap c j (BitVec.ofNat 32 a.2)

def execTensorMap (t : Stitch) (src : Src) (io : HostIo) (s : State) : Host.Outcome State Fault Refusal :=
  s.host t src io 0x0023 false State.tensorMap

/-! ### SNAPSHOT_READ (03 R119) -/

/-- The entries of a payload: tensor, offset, length, host address. -/
def snapEntries (d : List Byte) : List (Word × Nat × Nat × Nat) :=
  (List.range (field d 8 2)).map (fun i =>
    (BitVec.ofNat 32 (field d (16 + 32 * i) 4), field d (24 + 32 * i) 8, field d (32 + 32 * i) 8, field d (40 + 32 * i) 8))

/-- An entry breaks R119. -/
def Job.badEntry (j : Job) (e : Word × Nat × Nat × Nat) : Bool :=
  match j.tensors.find? (·.id == e.1) with
  | none => true
  | some t => e.2.1 % 64 != 0 || e.2.2.1 % 64 != 0 || e.2.2.2 % 64 != 0 || decide (t.length < e.2.1 + e.2.2.1)

/-- The contents of the free ranges of a copy at its acceptance, behind the implicit DEVICE marker.  DESIGN CHOICE (log 99): the marker does not
wait for courses that still run: the copy takes what has been published by the acceptance. -/
def State.freeRanges (s : State) (j : Job) (es : List (Word × Nat × Nat × Nat)) : Overlay :=
  let rs := es.filterMap (fun e => ((j.tensors.find? (·.id == e.1)).filter (fun t => !t.stepWritten)).map (fun t => (t.base + e.2.1, e.2.2.1)))
  { pages := [], cells := s.mem.cells.filter (fun c => rs.any (fun r => decide (r.1 ≤ c.1) && decide (c.1 < r.1 + r.2))) }

/-- SNAPSHOT_READ: the view is held and the copy runs. -/
def State.snapshotRead (s : State) (c : Cmd) : State :=
  let wrong := c.rev1 && !c.badPayload 8 && field c.data 0 8 != counterMax
  match s.openJob? c.tag.jobId with
  | none => s.finish c.tag [if wrong then stWrongRevision else stBadField] 0
  | some j =>
    let d := c.data
    let n := field d 8 2
    let view := if field d 0 8 = counterMax then j.latest else field d 0 8
    let es := snapEntries d
    let bad := c.badLayout || (if c.rev1 then c.operand1 != 0 else !c.zero 40 24) || c.badPayload (16 + 32 * n) || n == 0 ||
      decide (16 < n) || !zeroBytes d 10 6 || (List.range n).any (fun i => !zeroBytes d (20 + 32 * i) 4) || es.any j.badEntry
    match firstFailure [(bad, stBadField), (wrong, stWrongRevision),
        (view != j.latest && (j.held? view).isNone, stNoResource)] with
    | some k => s.finish c.tag [k] 0
    | none => { s with snaps := s.snaps ++ [{ tag := c.tag, view := some view, entries := es, free := s.freeRanges j es }] }

def execSnapshotRead (t : Stitch) (src : Src) (io : HostIo) (s : State) : Host.Outcome State Fault Refusal :=
  s.host t src io 0x002A false State.snapshotRead

/-- Copy one entry; a granule of a free tensor that changed since the acceptance is taken old or new, freely. -/
def State.snapGranules (s : State) (old : List Host.Cell) : Nat → Nat → List Byte × State
  | 0, _ => ([], s)
  | n + 1, a =>
    let now := Memory.readBytes s.mem.cells a granuleBytes
    let was := Memory.readBytes old a granuleBytes
    if now == was then
      let r := State.snapGranules s old n (a + granuleBytes)
      (now ++ r.1, r.2)
    else
      let f := s.free
      let r := State.snapGranules f.2 old n (a + granuleBytes)
      ((if f.1.getLsbD 0 then now else was) ++ r.1, r.2)

/-- The bytes of one entry. -/
def State.snapBytes (s : State) (j : Job) (x : SnapRun) (t : Tensor) (off len : Nat) : List Byte × State :=
  if t.stepWritten then
    (View.readBytes { ovs := j.viewOverlays (x.view.getD j.latest), base := s.mem.cells } (t.base + off) len, s)
  else s.snapGranules x.free.cells (len / granuleBytes) (t.base + off)

/-- The first granule of a range that is bad, as an offset from its start. -/
def firstGranule (bad : Nat → Bool) (a len : Nat) : Option Nat :=
  ((List.range (len / granuleBytes)).find? (fun i => bad (a + i * granuleBytes))).map (· * granuleBytes)

/-- The first poisoned granule of a range of the latest contents (12 R342). -/
def State.firstPoison (s : State) (a len : Nat) : Option Nat := firstGranule s.poisonedAt a len

/-- A granule of the committed view of a number is poisoned (12 R342). -/
def State.viewPoisoned (s : State) (j : Job) (n a : Nat) : Bool :=
  (j.viewPoison n s.mem.poison).contains (a / granuleBytes) || s.onLostStack a

/-- Copy the entries one by one: `done` bytes are copied so far; the offset of a poisoned granule ends the copy. -/
def State.snapCopy (s : State) (j : Job) (x : SnapRun) : Nat → List (Word × Nat × Nat × Nat) → State × Option Nat
  | _, [] => (s, none)
  | done, e :: es =>
    match j.tensors.find? (·.id == e.1) with
    | none => (s, none)
    | some t =>
      let b := s.snapBytes j x t e.2.1 e.2.2.1
      match firstGranule (if t.stepWritten then s.viewPoisoned j (x.view.getD j.latest) else s.poisonedAt) (t.base + e.2.1) e.2.2.1 with
      | some k => (b.2.emit (.hostWrite e.2.2.2 (b.1.take k)), some (done + k))
      | none => State.snapCopy (b.2.emit (.hostWrite e.2.2.2 b.1)) j x (done + e.2.2.1) es

/-- SNAPSHOT_READ_DONE: the copy has been written; the view is released. -/
def State.snapshotDone (s : State) (job commandId : Word) : State :=
  match s.snaps.find? (fun x => x.tag.jobId == job && x.tag.commandId == commandId), s.job? job with
  | some x, some j =>
    let r := s.snapCopy j x 0 x.entries
    let s1 := { r.1 with snaps := r.1.snaps.erase x }
    let s2 := match r.2 with
      | some off => s1.finish x.tag [stDeviceFault] off
      | none => s1.finish x.tag [stDone] (x.view.getD counterMax)
    (s2.sweepViews job).tryClose job
  | _, _ => s

def execSnapshotReadDone (t : Stitch) (job commandId : Word) (s : State) : Host.Outcome State Fault Refusal :=
  s.act t (·.snapshotDone job commandId)

end Sys2Proof.Machine
end

