-- ==== Sys2Proof/Machine/Functions.lean ====
section
/-! DEFINITION. Functions of exact values: the reference order (06 R188 to R190), integer and sliced products (06 R193 to R197), the
functions of VEC_MAP (07 R209 to R211), reductions and scans (07 R215 to R218), and the optimiser's element (08 R245).
A transcendental is evaluated in integers at a working precision that doubles until the place of the exact value between two points
of a 160-bit grid is certain, so that its one rounding is the rounding of the exact value (log 28). -/

namespace Sys2Proof.Machine

/-! ### The reference order (06 R188, R190) -/

/-- The largest finite FP32 magnitude. -/
def fp32Max : Val := fp32.decode fp32.maxCode

/-- A term: the exact product, an infinity beyond the FP32 range (06 R190). -/
def term (a b : Val) : Val :=
  let p := a.mul b
  if p.finite && fp32Max.lt p.abs then .inf p.neg else p

/-- floor(m × 2^e ÷ 2^q) of a signed value. -/
def floorAt (neg : Bool) (m : Nat) (e q : Int) : Int :=
  if q ≤ e then (let w : Int := ((m <<< (e - q).toNat : Nat) : Int)
                 if neg then -w else w)
  else
    let k := (q - e).toNat
    if neg then -(((m + (2 ^ k - 1)) >>> k : Nat) : Int) else ((m >>> k : Nat) : Int)

/-- The exponent of a non-zero finite value. -/
def Val.exponent : Val → Int
  | .num _ m e _ => magExp m e
  | _ => 0

/-- The value floored to a grid of spacing 2^q, in units of it. -/
def Val.floorUnits (v : Val) (q : Int) : Int :=
  match v with
  | .num neg m e _ => floorAt neg m e q
  | _ => 0

/-- The sum of a block's terms. -/
def blockSum (ts : List Val) : Val :=
  if ts.any (fun t => t == .nan) || (ts.contains (.inf false) && ts.contains (.inf true)) then .nan
  else if ts.contains (.inf false) then .inf false
  else if ts.contains (.inf true) then .inf true
  else
    let nz := ts.filter (fun t => !t.isZero)
    match nz with
    | [] => .num (ts.all Val.neg) 0 0 false
    | t :: rest =>
      let e := rest.foldl (fun m x => max m x.exponent) t.exponent
      sum32 (.scaled (nz.foldl (fun a x => a + x.floorUnits (e - 71)) 0) (e - 71))

/-- Combine a running sum with a block sum. -/
def combine (r : Option Val) (s : Val) : Option Val :=
  match r with
  | none => some s
  | some x => some (sum32 (x.add s))

/-- The running sum over blocks of optional terms; a masked term is none, an empty block contributes nothing. -/
def runBlocks : Nat → List (Option Val) → Option Val → Option Val
  | 0, _, r => r
  | n + 1, ts, r =>
    let blk := (ts.take 64).filterMap id
    runBlocks n (ts.drop 64) (if blk.isEmpty then r else combine r (blockSum blk))

/-- The reference-order sum: a start, if any, and the terms by index (06 R188). -/
def refSum (start : Option Val) (ts : List (Option Val)) : Val :=
  (runBlocks ((ts.length + 63) / 64) ts start).getD Val.zero

/-! ### Integer products (06 R193) -/

/-- Saturate to INT32. -/
def satInt32 (i : Int) : Int × Bool :=
  if 2147483647 < i then (2147483647, true) else if i < -2147483648 then (-2147483648, true) else (i, false)

/-- The integer that an integer value stands for. -/
def Val.toInt (v : Val) : Int :=
  match v with
  | .num neg m e _ => floorAt neg m e 0
  | _ => 0

/-! ### Sliced products (06 R194 to R197) -/

/-- Slices of a format: significand bits, shift, count. -/
def sliceShape (fmt : Nat) : Nat × Nat × Nat := if fmt = 0x07 then (24, 6, 4) else (53, 1, 7)

/-- The slices of v, least significant first. -/
def slicesOf : Nat → Int → List Int
  | 0, _ => []
  | n + 1, v =>
    let s := (v + 128) % 256 - 128
    s :: slicesOf n ((v - s) / 256)

/-- A finite operand as slices, least significant first, and the weight of slice 0. -/
def splitVal (fmt : Nat) (v : Val) : List Int × Int :=
  let (p, shift, n) := sliceShape fmt
  match v with
  | .num neg m e _ =>
    if m = 0 then (List.replicate n 0, 0)
    else
      -- the significand M has p bits for a normal operand; an FP64 subnormal keeps the exponent of the smallest normal
      let ex := max (magExp m e) (if fmt = 0x07 then -126 else -1022)
      let q := ex - ((p : Int) - 1) - shift
      let w : Int := alignTo neg m e q
      (slicesOf n w, q)
  | _ => (List.replicate n 0, 0)

/-- The exact product, or the retained slice products of the faithful mode. -/
def slicedProduct (fmt : Nat) (faithful : Bool) (a b : Val) : Val :=
  if !faithful then a.mul b
  else
    let x := splitVal fmt a
    let y := splitVal fmt b
    let n := (sliceShape fmt).2.2
    let sum := (x.1.zipIdx.flatMap (fun (p : Int × Nat) => y.1.zipIdx.map (fun (r : Int × Nat) =>
      if n ≤ p.2 + r.2 + 1 then p.1 * r.1 * (2 : Int) ^ (8 * (p.2 + r.2)) else 0))).sum
    if sum = 0 then .num (a.neg != b.neg) 0 0 false else .scaled sum (x.2 + y.2)

/-- A sliced product's exact result before its one rounding (06 R195, R197): contributions are C and each unmasked pair. -/
def slicedSum (fmt : Nat) (faithful : Bool) (c : Option Val) (ps : List (Val × Val)) : Val :=
  let infs := (c.toList ++ ps.map (fun p => p.1.mul p.2)).filter (fun v => !v.finite)
  if infs.contains .nan || (infs.contains (.inf false) && infs.contains (.inf true)) then .nan
  else match infs with
    | v :: _ => v
    | [] =>
      let parts := c.toList ++ ps.map (fun p => slicedProduct fmt faithful p.1 p.2)
      let zeros := c.toList ++ ps.map (fun p => p.1.mul p.2)
      let sum := parts.foldl Val.add (.num true 0 0 false)
      if sum.isZero then .num (!zeros.isEmpty && zeros.all (fun v => v.isZero && v.neg)) 0 0 false else sum

/-! ### Fixed-point evaluation -/

/-- Fixed-point product at p bits, floored. -/
def fmul (p : Nat) (a b : Int) : Int := (a * b) / (2 ^ p : Nat)

/-- Σ x^k ÷ k! for |x| < 1 at p bits: `n` terms from term `t` of index k. -/
def expTerms (p : Nat) (x : Int) : Nat → Nat → Int → Int
  | 0, _, _ => 0
  | n + 1, k, t => t + expTerms p x n (k + 1) (fmul p t x / ((k : Int) + 1))

/-- Σ z^(2k+1) ÷ (2k + 1) at p bits: the inverse hyperbolic tangent. -/
def atanhTerms (p : Nat) (z2 : Int) : Nat → Nat → Int → Int
  | 0, _, _ => 0
  | n + 1, k, t => t / (2 * (k : Int) + 1) + atanhTerms p z2 n (k + 1) (fmul p t z2)

/-- Alternating Σ (−1)^k z^(2k+1) ÷ (2k + 1) at p bits: the inverse tangent. -/
def atanTerms (p : Nat) (z2 : Int) : Nat → Nat → Int → Int
  | 0, _, _ => 0
  | n + 1, k, t => t / (2 * (k : Int) + 1) - atanTerms p z2 n (k + 1) (fmul p t z2)

/-- One at p bits. -/
def fone (p : Nat) : Int := (2 ^ p : Nat)

/-- ln 2 at p bits. -/
def ln2At (p : Nat) : Int := 2 * atanhTerms p (fone p / 9) (p / 3 + 2) 0 (fone p / 3)

/-- arctan(1 ÷ k) at p bits. -/
def atanInv (p k : Nat) : Int := atanTerms p (fone p / ((k : Int) * k)) (p / 4 + 2) 0 (fone p / k)

/-- π at p bits. -/
def piAt (p : Nat) : Int := 16 * atanInv p 5 - 4 * atanInv p 239

/-- A finite value at p bits, floored. -/
def Val.fixed (v : Val) (p : Nat) : Int := v.floorUnits (-(p : Int))

/-- Square `n` times at p bits. -/
def squareTimes (p : Nat) : Nat → Int → Int
  | 0, x => x
  | n + 1, x => squareTimes p n (fmul p x x)

/-- e^x for x given at p bits, |x| below 2^12: the mantissa at p bits and a power of two. -/
def expAt (p : Nat) (x : Int) : Int × Int :=
  let l := ln2At p
  let n := x / l
  let r := x - n * l
  (squareTimes p 16 (expTerms p (r / 65536) (p / 16 + 4) 0 (fone p)), n)

/-- Bits of guard that cover the error of every evaluation below. -/
def guardBits : Nat := 160

/-- An approximation a × 2^(e − p) as a value on the 160-bit grid, when its place is certain within the guard. -/
def place (p : Nat) (a e : Int) : Option Val :=
  let m := a.natAbs
  if m = 0 then none
  else
    let top := Nat.log2 m
    if top < 400 then none
    else
      let k := top - 160
      let err := 2 ^ guardBits
      if k ≤ guardBits then none
      else if (m - err) >>> k = (m + err) >>> k then some (.num (decide (a < 0)) (m >>> k) (e - p + k) true) else none

/-- Raise the precision until the place is certain. -/
def refine (f : Nat → Option Val) : Nat → Nat → Val
  | 0, _ => .nan
  | n + 1, p => match f p with
    | some v => v
    | none => refine f n (2 * p)

/-- Precisions tried: 512 bits and six doublings. -/
def evalAt (f : Nat → Option Val) : Val := refine f 7 512

/-- A value of tiny magnitude: strictly between zero and 2^−2000. -/
def tiny (neg : Bool) : Val := .num neg 0 (-2000) true

/-- A value of huge magnitude. -/
def huge (neg : Bool) : Val := .num neg 1 2000 true

/-- Just below a magnitude: within one part in 2^159 of it. -/
def justBelow (neg : Bool) (m : Nat) (e : Int) : Val :=
  let k := 160 - Nat.log2 m
  .num neg ((m <<< k) - 1) (e - k) true

/-- The magnitude lies below 2^k. -/
def Val.below (v : Val) (k : Int) : Bool := v.abs.lt (.num false 1 k false)

/-- The exact quotient of two fixed-point numbers at p bits, floored. -/
def fdiv (p : Nat) (a b : Int) : Int := if b = 0 then 0 else (a * fone p) / b

/-- e^v. -/
def vExp (v : Val) : Val :=
  match v with
  | .nan => .nan
  | .inf n => if n then Val.zero else .inf false
  | .num neg m _ _ =>
    if m = 0 then Val.one
    else if !v.below 11 then (if neg then tiny false else huge false)
    else evalAt (fun p => let r := expAt p (v.fixed p)
                          place p r.1 r.2)

/-- ln v. -/
def vLog (v : Val) : Val :=
  match v with
  | .nan => .nan
  | .inf n => if n then .nan else .inf false
  | .num neg m e _ =>
    if m = 0 then .inf true
    else if neg then .nan
    else if v.eqv Val.one then Val.zero
    else
      let k := magExp m e
      -- f = m × 2^(e − k) in [1, 2), taken to (0.7, 1.42)
      let k' := if Val.lt (.num false 181 (-7) false) (.num false m (e - k) false) then k + 1 else k
      let f : Val := .num false m (e - k') false
      evalAt (fun p =>
        let x := f.fixed p
        let z := fdiv p (x - fone p) (x + fone p)
        place p (2 * atanhTerms p (fmul p z z) (p / 4 + 4) 0 z + k' * ln2At p) 0)

/-- The fixed-point logistic function at p bits. -/
def sigmoidAt (p : Nat) (v : Val) : Int :=
  let r := expAt p (v.negate.fixed p)
  let ex := if 0 ≤ r.2 then r.1 * (2 ^ r.2.toNat : Nat) else r.1 / (2 ^ (-r.2).toNat : Nat)
  fdiv p (fone p) (fone p + ex)

/-- 1 ÷ (1 + e^−v). -/
def vSigmoid (v : Val) : Val :=
  match v with
  | .nan => .nan
  | .inf n => if n then Val.zero else Val.one
  | .num neg m _ _ =>
    if m = 0 then .num false 1 (-1) false
    else if !v.below 11 then (if neg then tiny false else justBelow false 1 0)
    else if !v.below 7 && !neg then justBelow false 1 0
    else if !v.below 7 then
      -- 1 ÷ (1 + e^−v) = e^v ÷ (1 + e^v), far below one
      evalAt (fun p => let r := expAt p (v.fixed p)
                       place p (fdiv p r.1 (fone p + r.1 / (2 ^ (-r.2).toNat : Nat))) r.2)
    else evalAt (fun p => place p (sigmoidAt p v) 0)

/-- tanh v. -/
def vTanh (v : Val) : Val :=
  match v with
  | .nan => .nan
  | .inf n => .num n 1 0 false
  | .num neg m e _ =>
    if m = 0 then .num neg 0 0 false
    else if v.below (-90) then justBelow neg m e
    else if !v.below 7 then justBelow neg 1 0
    else evalAt (fun p =>
      let r := expAt p (2 * v.abs.fixed p)
      let ex := r.1 * (2 ^ r.2.toNat : Nat)
      let t := fdiv p (ex - fone p) (ex + fone p)
      place p (if neg then -t else t) 0)

/-- v ÷ (1 + e^−v). -/
def vSilu (v : Val) : Val :=
  match v with
  | .nan => .nan
  | .inf n => if n then .num true 0 0 false else .inf false
  | .num neg m e _ =>
    if m = 0 then .num neg 0 0 false
    else if !v.below 11 then (if neg then tiny true else justBelow false m e)
    else if !v.below 7 && !neg then justBelow false m e
    else if !v.below 7 then
      evalAt (fun p => let r := expAt p (v.fixed p)
                       place p (-(fdiv p r.1 (fone p + r.1 / (2 ^ (-r.2).toNat : Nat))) * m) (r.2 + e))
    else evalAt (fun p => let x := sigmoidAt p v * m
                          place p (if neg then -x else x) e)

/-- Σ t_n with t_(n+1) = t_n × x² ÷ (2n + 3): the series of Φ over its density. -/
def erfTerms (p : Nat) (x2 : Int) : Nat → Nat → Int → Int
  | 0, _, _ => 0
  | n + 1, k, t => t + erfTerms p x2 n (k + 1) (fmul p t x2 / (2 * (k : Int) + 3))

/-- The square root at p bits. -/
def fsqrt (p : Nat) (x : Int) : Int :=
  let w := (x * fone p).toNat
  ((isqrt (Nat.log2 (w + 1) / 2 + 1) w : Nat) : Int)

/-- Φ(v), the standard normal distribution function, at p bits: ½ ± φ(v) × Σ v^(2n+1) ÷ (2n + 1)!!. -/
def phiAt (p : Nat) (v : Val) : Int :=
  let x := v.abs.fixed p
  let x2 := fmul p x x
  let s := erfTerms p x2 (4 * p + 4000) 0 x
  let r := expAt p (-(x2 / 2))
  let g := fmul p r.1 (fdiv p (fone p) (fsqrt p (2 * piAt p)))
  let h := (fmul p g s) / (2 ^ (-r.2).toNat : Nat)
  if v.neg then fone p / 2 - h else fone p / 2 + h

/-- v × Φ(v). -/
def vGelu (v : Val) : Val :=
  match v with
  | .nan => .nan
  | .inf n => if n then .num true 0 0 false else .inf false
  | .num neg m e _ =>
    if m = 0 then .num neg 0 0 false
    else if !v.below 6 then (if neg then tiny true else justBelow false m e)
    else refine (fun p => let x := phiAt p v * m
                          place p (if neg then -x else x) e) 5 4096

/-- Σ (−1)^k x^(2k) ÷ (2k)! and its odd companion: from term `t` of degree `d`. -/
def trigTerms (p : Nat) (x2 : Int) : Nat → Nat → Int → Int
  | 0, _, _ => 0
  | n + 1, d, t => t - trigTerms p x2 n (d + 2) (fmul p t x2 / (((d : Int) + 1) * ((d : Int) + 2)))

/-- sin or cos of a finite value, its argument reduced exactly: quadrant n and rest r, both from π at a precision that covers the
argument's magnitude. -/
def trigAt (cosine : Bool) (v : Val) (p : Nat) : Option Val :=
  let big := p + (max v.exponent 0).toNat + 8
  let half := piAt big / 2
  let x := v.floorUnits (-(big : Int))
  let n := (2 * x + half) / (2 * half)
  let r := (x - n * half) / (2 ^ (big - p) : Nat)
  let r2 := fmul p r r
  let quad := (n + (if cosine then 1 else 0)) % 4
  let sine := trigTerms p r2 (p / 8 + 4) 1 r
  let cos := trigTerms p r2 (p / 8 + 4) 0 (fone p)
  place p (if quad = 0 then sine else if quad = 1 then cos else if quad = 2 then -sine else -cos) 0

/-- sin v. -/
def vSin (v : Val) : Val :=
  match v with
  | .num neg m e _ =>
    if m = 0 then .num neg 0 0 false else if v.below (-90) then justBelow neg m e else evalAt (trigAt false v)
  | _ => .nan

/-- cos v. -/
def vCos (v : Val) : Val :=
  match v with
  | .num _ m _ _ => if m = 0 then Val.one else if v.below (-90) then justBelow false 1 0 else evalAt (trigAt true v)
  | _ => .nan

/-! ### The functions of VEC_MAP (07 R210, R211) -/

/-- 1 ÷ √v, exact up to the mark; a zero gives an infinity of its sign. -/
def vRsqrt (v : Val) : Val :=
  match v with
  | .nan => .nan
  | .inf n => if n then .nan else Val.zero
  | .num neg m e _ =>
    if m = 0 then .inf neg
    else if neg then .nan
    else
      -- √(2^(2k) ÷ m') with m' = m or 2m, so that the exponent is even
      let m' := if e % 2 = 0 then m else 2 * m
      let e' := if e % 2 = 0 then e else e - 1
      let k := 400 + Nat.log2 m'
      let w := 2 ^ (2 * k) / m'
      let r := isqrt (k + 1) w
      .num false r (-e' / 2 - k) (r * r * m' != 2 ^ (2 * k))

/-- Order with −0 below +0. -/
def Val.ltZ (a b : Val) : Bool := a.lt b || (a.isZero && b.isZero && a.neg && !b.neg)

/-- The lesser or the greater of two values. -/
def vMin (a b : Val) : Val := if a == .nan || b == .nan then .nan else if b.ltZ a then b else a
def vMax (a b : Val) : Val := if a == .nan || b == .nan then .nan else if a.ltZ b then b else a

/-- A truth value. -/
def vBool (b : Bool) : Val := if b then Val.one else Val.zero

/-- A value is an integer. -/
def Val.isInt (v : Val) : Bool := v.finite && v.eqv (.ofInt v.toInt)

/-- A bitwise operation on two integers in two's complement of 1,100 bits, wider than every format and constant. -/
def vBits (f : BitVec 1100 → BitVec 1100 → BitVec 1100) (a b : Val) : Val := .ofInt (f (BitVec.ofInt 1100 a.toInt) (BitVec.ofInt 1100 b.toInt)).toInt

/-- AND, OR and XOR; with a constant that is no integer the result is a free value. -/
def mapBits (fn : Nat) (a b : Val) : Val :=
  if b.isInt then
    if fn = 0x30 then vBits (· &&& ·) a b else if fn = 0x31 then vBits (· ||| ·) a b else vBits (· ^^^ ·) a b
  else match b with
    | .num neg m e _ => .ofInt (Config.bitwiseUnstated fn a.toInt neg m e)
    | .inf neg => .ofInt (Config.bitwiseUnstated fn a.toInt neg 1 5000)
    | .nan => .nan

/-- A function of VEC_MAP on exact values. -/
def mapValue (fn : Nat) (a b c : Val) : Val :=
  if fn = 0x23 then (if c.isZero then b else a)
  else if fn = 0x20 then vBool (a.lt b)
  else if fn = 0x21 then vBool (a.lt b || a.eqv b)
  else if fn = 0x22 then vBool (a.eqv b)
  else if a == .nan || (2 ≤ fnArgs fn && b == .nan) || (fn = 0x04 && c == .nan) then .nan
  else if fn = 0x01 then a.add b
  else if fn = 0x02 then a.sub b
  else if fn = 0x03 then a.mul b
  else if fn = 0x04 then (a.mul b).add c
  else if fn = 0x05 then a.div b
  else if fn = 0x06 then vMin a b
  else if fn = 0x07 then vMax a b
  else if fn = 0x08 then a.abs
  else if fn = 0x09 then a.negate
  else if fn = 0x0A then a.sqrt
  else if fn = 0x0B then vRsqrt (a.add b)
  else if fn = 0x0C then Val.one.div a
  else if fn = 0x10 then vExp a
  else if fn = 0x11 then vLog a
  else if fn = 0x12 then vTanh a
  else if fn = 0x13 then vSigmoid a
  else if fn = 0x14 then vSilu a
  else if fn = 0x15 then vGelu a
  else if fn = 0x16 then vSin a
  else if fn = 0x17 then vCos a
  else mapBits fn a b
where
  /-- Functions with a second source that a NaN passes through. -/
  fnArgs (fn : Nat) : Nat := if fn ≤ 0x07 ∨ fn = 0x0B then 2 else 1

/-! ### Reductions and scans (07 R216 to R218) -/

/-- A term of SUM or SUMSQ. -/
def sumTerm (kind : Nat) (wide : Bool) (v : Val) : Val :=
  if kind = 0 then (if !wide && v.finite && fp32Max.lt v.abs then .inf v.neg else v)
  else if wide then v.mul v else term v v

/-- The exact sum of a block, rounded once to FP64. -/
def blockSum64 (ts : List Val) : Val := rne64 (ts.foldl Val.add (.num true 0 0 false))

/-- A block sum: exact for FP64 sources, in the reference order for the others. -/
def blockOf (wide : Bool) (ts : List Val) : Val := if wide then blockSum64 ts else blockSum ts

/-- One rounded addition to a running sum. -/
def joinSum (wide : Bool) (r : Option Val) (s : Val) : Val :=
  match r with
  | none => s
  | some x => if wide then rne64 (x.add s) else sum32 (x.add s)

/-- The running sum over whole blocks of 64. -/
def runSums (wide : Bool) : Nat → List Val → Option Val → Option Val
  | 0, _, r => r
  | n + 1, ts, r =>
    let blk := ts.take 64
    runSums wide n (ts.drop 64) (if blk.isEmpty then r else some (joinSum wide r (blockOf wide blk)))

/-- SUM or SUMSQ before the division. -/
def sumValue (kind : Nat) (wide : Bool) (start : Option Val) (vs : List Val) : Val :=
  (runSums wide ((vs.length + 63) / 64) (vs.map (sumTerm kind wide)) start).getD Val.zero

/-- The greatest, the least or the greatest magnitude; none when there is no element. -/
def extreme (kind : Nat) (vs : List Val) : Option Val :=
  if vs.contains .nan then some .nan
  else match vs with
    | [] => none
    | v :: rest =>
      some (if kind = 2 then rest.foldl vMax v else if kind = 3 then rest.foldl vMin v else (rest.map Val.abs).foldl vMax v.abs)

/-- The least or the greatest value of a format (07 R217). -/
def leastOf (fmt : Nat) (greatest : Bool) : Val :=
  if isIntFmt fmt then .ofInt (if greatest then (2 : Int) ^ (fmtBits fmt - 1) - 1 else -(2 : Int) ^ (fmtBits fmt - 1))
  else if fmt = 0x02 then .scaled (if greatest then 448 else -448) 0
  else .inf (!greatest)

/-- ARGMAX or ARGMIN; zeros of both signs count as equal, so the lower index wins: DESIGN CHOICE (log 130). -/
def argExtreme (greatest : Bool) (vs : List Val) : Int :=
  match vs.findIdx? (· == .nan) with
  | some i => i
  | none => match extreme (if greatest then 2 else 3) vs with
    | none => -1
    | some x => ((vs.findIdx? (fun v => v.eqv x)).getD 0 : Nat)

/-- A reduction's value; `fmt` is the destination format. -/
def reduceValue (kind fmt : Nat) (wide : Bool) (start : Option Val) (divisor : Val) (vs : List Val) : Val :=
  if kind ≤ 1 then (sumValue kind wide start vs).div divisor
  else if kind = 5 ∨ kind = 6 then .ofInt (argExtreme (kind == 5) vs)
  else match extreme kind vs with
    | some v => v
    | none => if kind = 4 then Val.zero else leastOf fmt (kind == 3)

/-- A scan at the position that `n` elements precede in its direction: what VEC_REDUCE gives over the elements covered, blocks aligned to
the first of them; the first position of an exclusive scan holds +0. -/
def scanValue (kind fmt : Nat) (wide exclusive reverse : Bool) (start : Option Val) (divisor : Val) (vs : List Val) (n : Nat) : Val :=
  let xs := if reverse then vs.reverse else vs
  if exclusive && n == 0 then Val.zero
  else reduceValue kind fmt wide start divisor (xs.take (if exclusive then n else n + 1))

/-! ### The optimiser's element (08 R245) -/

/-- The parameters of OPT_UPDATE. -/
structure OptPar where
  momentum : Bool
  correct : Bool
  lr : Val
  beta1 : Val
  beta2 : Val
  eps : Val
  decay : Val
  t : Nat

/-- beta^t, exact. -/
def Val.pow (v : Val) (t : Nat) : Val :=
  match v with
  | .num neg m e _ => .num (neg && t % 2 == 1) (m ^ t) (e * t) false
  | w => w

/-- The new first and second moments before their roundings. -/
def optMoments (p : OptPar) (m v gh : Val) : Val × Val :=
  let one1 := Val.one.sub p.beta1
  let one2 := Val.one.sub p.beta2
  if p.momentum then ((p.beta1.mul m).add gh, Val.zero)
  else ((p.beta1.mul m).add (one1.mul gh), (p.beta2.mul v).add ((one2.mul gh).mul gh))

/-- The new weight before its rounding, from the stored moments. -/
def optWeight (p : OptPar) (w m1 v1 : Val) : Val :=
  if p.momentum then w.sub (p.lr.mul (m1.add (p.decay.mul w)))
  else
    let c := fun b : Val => rne64 (Val.one.sub (rne64 (b.pow p.t)))
    let mh := if p.correct then rne64 (m1.div (c p.beta1)) else m1
    let vh := if p.correct then rne64 (v1.div (c p.beta2)) else v1
    let u := rne64 (mh.div (rne64 ((rne64 vh.sqrt).add p.eps)))
    w.sub (p.lr.mul (u.add (p.decay.mul w)))

end Sys2Proof.Machine
end

