-- ==== Sys2Proof/Machine/Patterns.lean ====
section
/-! DEFINITION. Pattern images: header, slots, operation records, constants (03 R89 to R94), the checks of every operation
(05 R153 to R162, R168, R169; 06 R179, R198, R205; 07 R210 to R223; 08 R229, R239, R244; 09 R281, R282; 10 R305; 11 R316 to R318,
R330), and PATTERN_LOAD. -/

namespace Sys2Proof.Machine

/-! ### The image (03 R90 to R93) -/

/-- A slot field that names no slot. -/
def noSlot : Nat := 0xFFFF

/-- An operation record. -/
structure OpRec where
  index : Nat
  op : Nat
  flags : Nat
  dst : Nat
  a : Nat
  b : Nat
  c : Nat
  constRef : Nat
  params : List Byte

/-- A slot of the table: role, format, rank. -/
structure SlotRec where
  role : Nat
  format : Nat
  rank : Nat

/-- Header fields. -/
def imgTarget (i : List Byte) : Nat := field i 6 1
def imgMode (i : List Byte) : Nat := field i 7 1
def imgOps (i : List Byte) : Nat := field i 12 2
def imgSlots (i : List Byte) : Nat := field i 14 2
def imgOpsAt (i : List Byte) : Nat := field i 16 4
def imgSlotsAt (i : List Byte) : Nat := field i 20 4
def imgConstAt (i : List Byte) : Nat := field i 24 4
def imgConstLen (i : List Byte) : Nat := field i 28 4
def imgTag (i : List Byte) : Nat := field i 32 8

/-- The constants region. -/
def imgConst (i : List Byte) : List Byte := if imgConstAt i = 0 then [] else (i.drop (imgConstAt i)).take (imgConstLen i)

/-- A record of the image. -/
def opRec (i : List Byte) (k : Nat) : OpRec :=
  let r := (i.drop (imgOpsAt i + 64 * k)).take 64
  { index := k, op := field r 0 2, flags := field r 2 2, dst := field r 4 2, a := field r 6 2, b := field r 8 2, c := field r 10 2
    constRef := field r 12 4, params := slice r 16 48 }

/-- Every record, in order. -/
def opRecs (i : List Byte) : List OpRec := (List.range (imgOps i)).map (opRec i)

/-- A slot of the image. -/
def slotRec (i : List Byte) (k : Nat) : SlotRec :=
  let r := (i.drop (imgSlotsAt i + 8 * k)).take 8
  { role := field r 0 1, format := field r 1 1, rank := field r 2 1 }

/-- A parameter of a record. -/
def OpRec.par (r : OpRec) (off n : Nat) : Nat := field r.params off n

/-- The dimension that divides the iteration space. -/
def OpRec.split (r : OpRec) : Nat := r.flags % 4

/-- The output is rounded stochastically. -/
def OpRec.stochastic (r : OpRec) : Bool := bitOf r.flags 2

/-- Random bits of a stochastic output. -/
def OpRec.bits (r : OpRec) : Nat := [8, 12, 16, 16].getD (r.flags / 8 % 4) 8

/-! ### Formats -/

/-- Outputs of the short-format pairs. -/
def shortOuts : List Nat := [0x07, 0x05, 0x06, 0x02, 0x03]

/-- The output formats of a pair of array inputs; none for a pair the array does not take (05 R155). -/
def pairOuts (a b : Nat) : List Nat :=
  if a = 0x05 ∧ b = 0x05 ∨ a = 0x06 ∧ b = 0x06 ∨ a = 0x01 ∧ b = 0x01 then shortOuts
  else if (a = 0x02 ∨ a = 0x03) ∧ (b = 0x02 ∨ b = 0x03) then shortOuts
  else if a = 0x04 ∧ b = 0x04 then [0x0A]
  else if a = 0x07 ∧ b = 0x07 then [0x07]
  else if a = 0x08 ∧ b = 0x08 then [0x08] else []

/-- Formats of the vector units (06 R179). -/
def vecFormat (f : Nat) : Bool := [0x08, 0x07, 0x05, 0x06, 0x02, 0x03, 0x04, 0x09, 0x0A].contains f

/-- A slot's format allows what a predicate asks; any format is checked at COURSE_SUBMIT. -/
def fmtIs (f : Nat) (p : Nat → Bool) : Bool := f == 0xFF || p f

/-- Finite FP64 parameters that meet a predicate. -/
def f64Is (code : Nat) (p : Val → Bool) : Bool := let v := fp64.decode code; v.finite && p v

/-- A value is above zero. -/
def Val.pos (v : Val) : Bool := Val.lt Val.zero v

/-- An FP64 parameter is 1. -/
def isOne (code : Nat) : Bool := code == 0x3FF0000000000000

/-- Sources of a vector function (07 R210); 0 for an undefined code. -/
def fnArity (fn : Nat) : Nat :=
  if fn = 0x04 ∨ fn = 0x23 then 3
  else if [0x08, 0x09, 0x0A, 0x0C].contains fn || (decide (0x10 ≤ fn) && decide (fn ≤ 0x17)) then 1
  else if [0x01, 0x02, 0x03, 0x05, 0x06, 0x07, 0x0B, 0x20, 0x21, 0x22, 0x30, 0x31, 0x32].contains fn then 2 else 0

/-- Formats of a vector function, the destination's first (07 R210); a slot of any format breaks nothing by itself. -/
def fnFormats (fn : Nat) (fs : List Nat) : Bool :=
  let d := fs.headD 0
  let ints := fs.all (fmtIs · isIntFmt)
  let floatDst := fmtIs d (fun f => !isIntFmt f)
  if [0x30, 0x31, 0x32].contains fn then ints
  else if [0x05, 0x0A, 0x0B, 0x0C].contains fn then floatDst
  else if 0x10 ≤ fn ∧ fn ≤ 0x17 then floatDst && fmtIs d (fun f => decide (fmtBits f ≤ 32))
  else ints || floatDst

/-! ### Checks of the records -/

/-- What is wrong with a record: its flags, slots and const_ref, its params by offset, and its tables in the constants region by
offset within the image. -/
structure OpCheck where
  flags : Bool := false
  dst : Bool := false
  a : Bool := false
  b : Bool := false
  c : Bool := false
  constRef : Bool := false
  params : List (Nat × Bool) := []
  tables : List Nat := []

/-- A slot field breaks its use: needed and absent, bound and not allowed, or past the table. -/
def badSlot (count slot : Nat) (need may : Bool) : Bool :=
  if slot = noSlot then need else !may || decide (count ≤ slot)

/-- An array product of a pair cannot give a format; where the second source's slot takes any format, the first one's own pair decides (06 R179). -/
def badProductOut (a b out : Nat) : Bool :=
  let outs := pairOuts a (if b = 0xFF then a else b)
  !outs.isEmpty && !outs.contains out

/-- Reserved params bytes. -/
def reservedAt (r : OpRec) (off n : Nat) : Nat × Bool := (off, !zeroBytes r.params off n)

/-- Offsets of what fails. -/
def failing (base : Nat) (l : List (Nat × Bool)) : List Nat := (l.filter (·.2)).map (fun e => base + e.1)

/-- A stochastic output needs a floating-point format of 16 bits or fewer (06 R198). -/
def badStochastic (r : OpRec) (out : Nat) : Bool := r.stochastic && out != 0xFF && (isIntFmt out || decide (16 < fmtBits out))

/-- The pair of an array product, by the offsets of the fields. -/
def pairFaults (a b offA offB : Nat) : List (Nat × Bool) :=
  let known := [0x01, 0x02, 0x03, 0x04, 0x05, 0x06, 0x07, 0x08].contains a
  [(offA, !known), (offB, known && (pairOuts a b).isEmpty)]

/-- The pair and the output format of an array product. -/
def productFaults (a b out offA offB offOut : Nat) : List (Nat × Bool) :=
  pairFaults a b offA offB ++ [(offOut, !(pairOuts a b).isEmpty && !(pairOuts a b).contains out)]

/-- A motif of a group table (05 R159). -/
structure Motif where
  rowBlock : Nat
  colBlock : Nat
  rowBlocks : Nat
  colBlocks : Nat
  a : Nat
  b : Nat
  c : Nat
  dst : Nat
  m : Nat
  n : Nat
  k : Nat
  flags : Nat
  batch : Nat
  group : Nat
  entry : Nat

/-- A motif of an operation. -/
def motifAt (cs : List Byte) (ref g e : Nat) : Motif :=
  let r := (cs.drop (ref + 512 * g + 32 * e)).take 32
  { rowBlock := field r 0 1, colBlock := field r 1 1, rowBlocks := field r 2 1, colBlocks := field r 3 1, a := field r 4 2
    b := field r 6 2, c := field r 8 2, dst := field r 10 2, m := field r 12 4, n := field r 16 4, k := field r 20 4
    flags := field r 24 1, batch := field r 28 4, group := g, entry := e }

/-- The valid motifs of an operation in table order. -/
def motifs (cs : List Byte) (ref groups : Nat) : List Motif :=
  (List.range groups).flatMap (fun g => ((List.range 16).map (motifAt cs ref g)).filter (fun x => bitOf x.flags 0))

/-- Two motifs of a group share a block. -/
def Motif.touches (x y : Motif) : Bool :=
  decide (x.rowBlock < y.rowBlock + y.rowBlocks) && decide (y.rowBlock < x.rowBlock + x.rowBlocks) &&
  decide (x.colBlock < y.colBlock + y.colBlocks) && decide (y.colBlock < x.colBlock + x.colBlocks)

/-- The faults of one entry (05 R159, R160). -/
def motifFaults (cs : List Byte) (at0 ref count : Nat) (all : List Motif) (x : Motif) : List Nat :=
  let base := at0 + ref + 512 * x.group + 32 * x.entry
  let raw := (cs.drop (ref + 512 * x.group + 32 * x.entry)).take 32
  if !bitOf x.flags 0 then (if raw.all (· == 0) then [] else [base])
  else
    let before := all.filter (fun y => decide (y.group < x.group) || (y.group == x.group && decide (y.entry < x.entry)))
    failing base
      [(0, decide (3 < x.rowBlock) || before.any (fun y => y.group == x.group && x.touches y)), (1, decide (3 < x.colBlock)),
       (2, x.rowBlocks == 0 || decide (4 < x.rowBlock + x.rowBlocks)), (3, x.colBlocks == 0 || decide (4 < x.colBlock + x.colBlocks)),
       (4, badSlot count x.a true true), (6, badSlot count x.b true true), (8, badSlot count x.c false true),
       (10, badSlot count x.dst true true || before.any (fun y => y.dst == x.dst && y.batch == x.batch)), (12, x.m == 0),
       (16, x.n == 0), (20, x.k == 0), (24, decide (8 ≤ x.flags)), (25, !zeroBytes raw 25 3)]

/-- The faults of a group table. -/
def groupFaults (i : List Byte) (ref groups : Nat) : List Nat :=
  let cs := imgConst i
  let all := motifs cs ref groups
  (List.range groups).flatMap (fun g =>
    (if all.any (·.group == g) then [] else [imgConstAt i + ref + 512 * g]) ++
    (List.range 16).flatMap (fun e => motifFaults cs (imgConstAt i) ref (imgSlots i) all (motifAt cs ref g e)))

/-- MATMUL (05 R153, R155, R156, R160, R162). -/
def checkMatmul (i : List Byte) (r : OpRec) : OpCheck :=
  let n := imgSlots i
  let g := r.par 16 2
  let plain := g == 0
  let fa := r.par 12 1
  let fl := r.par 15 1
  let inside := decide (r.constRef + 512 * g ≤ (imgConst i).length)
  { flags := badStochastic r (r.par 14 1) || (if plain then r.split == 3 else r.split != 3)
    dst := badSlot n r.dst plain plain, a := badSlot n r.a plain plain, b := badSlot n r.b plain plain, c := badSlot n r.c false plain
    constRef := !plain && !inside
    params := [(0, (r.par 0 4 == 0) == plain), (4, (r.par 4 4 == 0) == plain), (8, (r.par 8 4 == 0) == plain)] ++
      (if imgMode i != 0 && !([0x05, 0x06, 0x04].contains fa) then [(12, true)] else []) ++
      productFaults fa (r.par 13 1) (r.par 14 1) 12 13 14 ++
      [(15, decide (8 ≤ fl) || (bitOf fl 2 && fa != 0x07 && fa != 0x08) || (!plain && fl % 4 != 0)),
       (16, !plain && imgMode i != 0), reservedAt r 18 2, (20, if plain then r.par 20 4 == 0 else r.par 20 4 != 1), reservedAt r 24 24]
    tables := if plain || !inside then [] else groupFaults i r.constRef g }

/-! ### CONV (05 R166 to R169) -/

/-- A level of a generator: count, dimension, step. -/
structure Level where
  count : Nat
  dim : Nat
  step : Int

/-- A generator: sets P and Q, and the origin. -/
structure Gen where
  p : List Level
  q : List Level
  origin : List Int

/-- A generator of a constants region. -/
def genAt (cs : List Byte) (at0 : Nat) : Gen :=
  let r := (cs.drop at0).take 96
  let level := fun o => Level.mk (field r o 2) (field r (o + 2) 1) (signed 32 (field r (o + 4) 4))
  { p := (List.range 4).map (fun l => level (8 * l)), q := (List.range 4).map (fun l => level (32 + 8 * l))
    origin := (List.range 4).map (fun d => signed 32 (field r (64 + 4 * d) 4)) }

/-- Product of the counts of a set. -/
def levelProduct (l : List Level) : Nat := (l.map (·.count)).foldl (· * ·) 1

/-- Faults of a generator block. -/
def genFaults (cs : List Byte) (at0 ref : Nat) : List Nat :=
  let r := (cs.drop ref).take 96
  (List.range 8).flatMap (fun l => failing (at0 + ref + 8 * l)
    [(0, field r (8 * l) 2 == 0), (2, decide (3 < field r (8 * l + 2) 1)), (3, field r (8 * l + 3) 1 != 0)]) ++
  failing (at0 + ref) [(80, !zeroBytes r 80 16)]

/-- CONV. -/
def checkConv (i : List Byte) (r : OpRec) : OpCheck :=
  let n := imgSlots i
  let cs := imgConst i
  let inside := decide (r.constRef + 288 ≤ cs.length)
  let ga := genAt cs r.constRef
  let gb := genAt cs (r.constRef + 96)
  let go := genAt cs (r.constRef + 192)
  let fa := r.par 0 1
  { flags := badStochastic r (r.par 2 1) || decide (1 < r.split)
    dst := badSlot n r.dst true true, a := badSlot n r.a true true, b := badSlot n r.b true true, c := badSlot n r.c false true
    constRef := !inside || levelProduct ga.q != levelProduct gb.q || levelProduct ga.p != levelProduct go.p ||
      levelProduct gb.p != levelProduct go.q
    params := productFaults fa (r.par 1 1) (r.par 2 1) 0 1 2 ++
      [(3, decide (2 ≤ r.par 3 1) || (bitOf (r.par 3 1) 0 && fa != 0x07 && fa != 0x08)), (4, r.par 4 4 != levelProduct ga.p),
       (8, r.par 8 4 != levelProduct gb.p), (12, r.par 12 4 != levelProduct ga.q), reservedAt r 16 32]
    tables := if inside then genFaults cs (imgConstAt i) r.constRef ++ genFaults cs (imgConstAt i) (r.constRef + 96) ++
      genFaults cs (imgConstAt i) (r.constRef + 192) else [] }

/-! ### Vector operations -/

/-- VEC_MAP (07 R210, R212); `f` gives a slot's format. Of an undefined function only its code offends, whatever slots are bound. -/
def checkMap (n : Nat) (f : Nat → Nat) (r : OpRec) : OpCheck :=
  let fn := r.par 0 2
  let mf := r.par 2 2
  let ar := fnArity fn
  let pred := bitOf mf 2
  let useB := decide (2 ≤ ar) && !bitOf mf 0
  let useC := ar == 3 && !bitOf mf 1
  let fs := [f r.dst, f r.a] ++ (if useB then [f r.b] else []) ++ (if useC then [f r.c] else [])
  { flags := badStochastic r (f r.dst) || (r.stochastic && [0x30, 0x31, 0x32].contains fn)
    dst := badSlot n r.dst true true || !fmtIs (f r.dst) vecFormat, a := badSlot n r.a true true || !fmtIs (f r.a) vecFormat
    b := badSlot n r.b useB (useB || ar == 0) || (useB && !fmtIs (f r.b) vecFormat)
    c := badSlot n r.c (useC || pred) (useC || pred || ar == 0) || (useC && !fmtIs (f r.c) vecFormat)
    params := [(0, ar == 0 || !fnFormats fn fs),
      (2, decide (8 ≤ mf) || (bitOf mf 0 && decide (ar < 2)) || (bitOf mf 1 && ar != 3) || (pred && (ar == 3 || bitOf mf 1))),
      reservedAt r 4 4, reservedAt r 24 24] }

/-- VEC_REDUCE and VEC_SCAN (07 R215). -/
def checkReduce (n : Nat) (f : Nat → Nat) (scan : Bool) (r : OpRec) : OpCheck :=
  let kind := r.par 0 1
  let arg := kind == 5 || kind == 6
  { flags := badStochastic r (f r.dst) || (r.stochastic && arg) || r.split == r.par 1 1
    dst := badSlot n r.dst true true || !fmtIs (f r.dst) (fun x => if arg then x == 0x0A else vecFormat x)
    a := badSlot n r.a true true || !fmtIs (f r.a) vecFormat, b := badSlot n r.b false false
    c := badSlot n r.c false (kind == 0) || (r.c != noSlot && !fmtIs (f r.c) vecFormat)
    params := [(0, if scan then !([0, 2, 3].contains kind) else decide (6 < kind)), (1, decide (3 < r.par 1 1)),
      (2, decide ((if scan then 4 else 1) ≤ r.par 2 1)), reservedAt r 3 5,
      (8, !f64Is (r.par 8 8) (fun v => !v.isZero) || (decide (2 ≤ kind) && !isOne (r.par 8 8))), reservedAt r 16 32] }

/-- A slot that an operation of the vector units reads or writes, when it is bound: past the table, or of a format they do not take. -/
def badVecSlot (n : Nat) (f : Nat → Nat) (slot : Nat) (need may : Bool) : Bool :=
  badSlot n slot need may || (may && slot != noSlot && !fmtIs (f slot) vecFormat)

/-- FUSED_NORM (06 R179; 07 R220, R222).  In PRE forward the vector unit reads a_format and writes mid_format, and the array writes the
destination; in every other form the vector unit writes it.  m, n or k of 0 is BAD_FIELD: DESIGN CHOICE (log 130). -/
def checkNorm (n : Nat) (f : Nat → Nat) (r : OpRec) : OpCheck :=
  let rms := r.par 0 1 == 1
  let preFwd := r.par 1 1 == 0 && r.par 2 1 == 0
  let bwd := r.par 2 1 == 1
  { flags := badStochastic r (r.par 19 1) || r.split != 0
    dst := badSlot n r.dst true true, a := badSlot n r.a true true, b := badSlot n r.b true true, c := badVecSlot n f r.c bwd bwd
    params := [(0, decide (1 < r.par 0 1)), (1, decide (1 < r.par 1 1)), (2, decide (1 < r.par 2 1)), (3, decide (4 ≤ r.par 3 1)),
      (4, r.par 4 4 == 0), (8, r.par 8 4 == 0), (12, r.par 12 4 == 0)] ++
      pairFaults (r.par 16 1) (r.par 17 1) 16 17 ++
      [(16, preFwd && r.par 16 1 == 0x01),
       (18, if preFwd then !vecFormat (r.par 18 1) || (pairOuts (r.par 18 1) (r.par 17 1)).isEmpty else r.par 18 1 != 0),
       (19, if preFwd then badProductOut (r.par 18 1) (r.par 17 1) (r.par 19 1) else !vecFormat (r.par 19 1)),
       (20, badVecSlot n f (r.par 20 2) true true), (22, badVecSlot n f (r.par 22 2) (!rms && !bwd) (!rms)), (24, badSlot n (r.par 24 2) false true),
       (26, badSlot n (r.par 26 2) false bwd), (28, badSlot n (r.par 28 2) false bwd), reservedAt r 30 2,
       (32, !f64Is (r.par 32 8) (fun v => v.isZero || !v.neg)), reservedAt r 40 8] }

/-- FUSED_SOFTMAX (06 R179; 07 R223): the array writes O, the vector unit dS.  m, n, k or dv of 0 is BAD_FIELD: DESIGN CHOICE (log 130). -/
def checkSoftmax (n : Nat) (f : Nat → Nat) (r : OpRec) : OpCheck :=
  let bwd := r.par 0 1 == 1
  let p := r.par 22 1
  { flags := badStochastic r (r.par 23 1) || r.split != 0
    dst := badSlot n r.dst true true, a := badSlot n r.a true true, b := badSlot n r.b true true
    c := badSlot n r.c true true || !fmtIs (f r.c) (fun v => !(pairOuts p v).isEmpty)
    params := [(0, decide (1 < r.par 0 1)), (1, decide (16 ≤ r.par 1 1)), reservedAt r 2 2, (4, r.par 4 4 == 0), (8, r.par 8 4 == 0),
      (12, r.par 12 4 == 0), (16, r.par 16 4 == 0)] ++ pairFaults (r.par 20 1) (r.par 21 1) 20 21 ++
      [(22, !([0x05, 0x06, 0x02].contains p)), (23, if bwd then !vecFormat (r.par 23 1) else badProductOut p (f r.c) (r.par 23 1)), (28, badSlot n (r.par 28 2) false true),
       (30, badVecSlot n f (r.par 30 2) bwd bwd), (32, badVecSlot n f (r.par 32 2) bwd bwd), (34, badSlot n (r.par 34 2) false bwd),
       reservedAt r 36 4, (40, !f64Is (r.par 40 8) Val.pos)] }

/-- COPY and CONVERT (03 R93, R94; 06 R179, R186, R205).  COPY moves the bits of any format that needles carry: FX64 is the cable engines'
alone (DEDUCED, log 125). -/
def checkCopy (n : Nat) (f : Nat → Nat) (convert : Bool) (r : OpRec) : OpCheck :=
  { flags := badStochastic r (f r.dst)
    dst := badSlot n r.dst true true || !fmtIs (f r.dst) (fun x => if convert then vecFormat x else x != 0x0C)
    a := badSlot n r.a true true || !fmtIs (f r.a) (fun x => if convert then vecFormat x else x != 0x0C) ||
      (!convert && f r.dst != 0xFF && f r.a != 0xFF && f r.dst != f r.a)
    b := badSlot n r.b false false, c := badSlot n r.c false false, params := [reservedAt r 0 48] }

/-- ACCUMULATE (08 R229, R239). -/
def checkAccum (n : Nat) (f : Nat → Nat) (r : OpRec) : OpCheck :=
  { flags := !r.stochastic || badStochastic r (f r.dst), dst := badSlot n r.dst true true || !fmtIs (f r.dst) (· == 0x05)
    a := badSlot n r.a true true || !fmtIs (f r.a) (fun x => [0x08, 0x07, 0x05, 0x03].contains x)
    b := badSlot n r.b false false, c := badSlot n r.c false false, params := [(2, decide (2 ≤ r.par 2 1)), reservedAt r 3 45] }

/-- OPT_UPDATE (08 R229, R244); `role` gives a slot's role. Of an undefined kind only its code offends, whatever src_c is. -/
def checkOpt (n : Nat) (f role : Nat → Nat) (r : OpRec) : OpCheck :=
  let adam := r.par 0 1 == 0
  let unit := fun v : Val => (v.isZero || !v.neg) && v.lt Val.one
  let bf := fun s => !fmtIs (f s) (· == 0x05)
  { flags := !r.stochastic || badStochastic r (f r.dst) || badStochastic r (f r.b) || (adam && badStochastic r (f r.c))
    dst := badSlot n r.dst true true || role r.dst != 2 || bf r.dst
    a := badSlot n r.a true true || !fmtIs (f r.a) (fun x => x == 0x05 || x == 0x03)
    b := badSlot n r.b true true || role r.b != 2 || bf r.b
    c := badSlot n r.c adam (adam || decide (1 < r.par 0 1)) || (adam && (role r.c != 2 || bf r.c))
    params := [(0, decide (1 < r.par 0 1)), (1, decide (2 ≤ r.par 1 1) || (!adam && r.par 1 1 != 0)),
      (2, badSlot n (r.par 2 2) false true), reservedAt r 4 4, (8, !f64Is (r.par 8 8) Val.pos), (16, !f64Is (r.par 16 8) unit),
      (24, if adam then !f64Is (r.par 24 8) unit else r.par 24 8 != 0), (32, if adam then !f64Is (r.par 32 8) Val.pos else r.par 32 8 != 0),
      (40, !f64Is (r.par 40 8) (fun v => v.isZero || !v.neg))] }

/-- MARK (03 R93, R94). -/
def checkMark (n : Nat) (r : OpRec) : OpCheck :=
  { dst := badSlot n r.dst false false, a := badSlot n r.a false false, b := badSlot n r.b false false, c := badSlot n r.c false false
    params := [(0, decide (1 < r.par 0 1)), reservedAt r 1 47] }

/-- SOLVE_STEP (09 R281, R282). -/
def checkSolve (j : Job) (n : Nat) (role : Nat → Nat) (r : OpRec) : OpCheck :=
  let x := j.structures.find? (·.handle == r.par 0 4)
  let ph := r.par 4 1
  let dk := r.par 6 1
  let delta := bitOf ph 0
  let solve := bitOf ph 2
  let adj := bitOf ph 3
  { flags := r.split != 0 || r.stochastic
    dst := badSlot n r.dst (solve || adj) (solve || adj) || ((solve || adj) && role r.dst != 2), a := badSlot n r.a solve solve
    b := badSlot n r.b delta delta, c := badSlot n r.c delta delta
    params := [(0, x.isNone), (4, ph == 0 || decide (16 ≤ ph)),
      (5, decide (4 ≤ r.par 5 1) || (bitOf (r.par 5 1) 0 && !(x.any (·.fixedMode)))), (6, decide (3 < dk)),
      (7, decide (3 < r.par 7 1) && r.par 7 1 != 0xFF), (8, if dk = 1 then r.par 8 8 == 0 else r.par 8 8 != 0),
      (16, badSlot n (r.par 16 2) false delta), (18, badSlot n (r.par 18 2) adj adj), (20, badSlot n (r.par 20 2) adj adj),
      (22, badSlot n (r.par 22 2) false adj), (24, badSlot n (r.par 24 2) (dk == 2 || dk == 3) (dk == 2 || dk == 3)),
      (26, badSlot n (r.par 26 2) false true), reservedAt r 28 20] }

/-! ### COLLECTIVE (10 R305; 11 R316 to R318, R330) -/

/-- An entry of a slot plan: slot, link, frames, stream, offset. -/
structure PlanEntry where
  slot : Nat
  link : Nat
  frames : Nat
  stream : Nat
  offset : Nat
  deriving DecidableEq, Repr

/-- The entries of the plan at an offset of the constants region. -/
def planEntries (cs : List Byte) (ref : Nat) : List PlanEntry :=
  (List.range (field cs (ref + 8) 4)).map (fun i =>
    let b := ref + 32 + 16 * i
    { slot := field cs b 4, link := field cs (b + 4) 1, frames := field cs (b + 6) 2, stream := field cs (b + 8) 4, offset := field cs (b + 12) 4 })

/-- Faults of a plan. -/
def planFaults (i : List Byte) (ref : Nat) : List Nat :=
  let cs := imgConst i
  let at0 := imgConstAt i + ref
  let es := planEntries cs ref
  let key := fun (e : PlanEntry) => e.slot * 256 + e.link
  failing at0 [(0, field cs ref 4 != 0x50535850), (4, field cs (ref + 4) 2 != 1), (6, !zeroBytes cs (ref + 6) 2), (8, es.isEmpty),
    (12, field cs (ref + 12) 4 != (es.map (·.slot)).foldl max 0 + 1), (16, !zeroBytes cs (ref + 16) 16)] ++
  (es.zipIdx.flatMap (fun (p : PlanEntry × Nat) => failing (at0 + 32 + 16 * p.2)
    [(0, decide (0 < p.2) && (match es[p.2 - 1]? with
        | some q => decide (key p.1 ≤ key q)
        | none => false)),
     (4, decide (31 < p.1.link)), (5, field cs (ref + 32 + 16 * p.2 + 5) 1 != 0), (6, p.1.frames == 0 || decide (760 < p.1.frames)),
     (8, decide (0x100000 ≤ p.1.stream)), (12, p.1.offset / 0x1000000 % 4 != 0)]))

/-- A run of a permutation table. -/
structure PermRun where
  src : Nat
  dst : Nat
  length : Nat
  srcIndex : Nat
  dstIndex : Nat
  deriving DecidableEq, Repr

/-- The runs of the permutation table at an offset of the constants region. -/
def permRuns (cs : List Byte) (ref : Nat) : List PermRun :=
  (List.range (field cs (ref + 8) 4)).map (fun i =>
    let b := ref + 16 + 24 * i
    { src := field cs b 2, dst := field cs (b + 2) 2, length := field cs (b + 4) 4, srcIndex := field cs (b + 8) 8, dstIndex := field cs (b + 16) 8 })

/-- Faults of a permutation table. -/
def permFaults (i : List Byte) (ref : Nat) : List Nat :=
  let cs := imgConst i
  let at0 := imgConstAt i + ref
  let rs := permRuns cs ref
  failing at0 [(0, field cs ref 4 != 0x4D505850), (4, field cs (ref + 4) 2 != 1), (6, !zeroBytes cs (ref + 6) 2), (8, rs.isEmpty),
    (12, !zeroBytes cs (ref + 12) 4)] ++
  rs.zipIdx.flatMap (fun (p : PermRun × Nat) => failing (at0 + 16 + 24 * p.2)
    [(4, p.1.length == 0),
     (16, (rs.take p.2).any (fun q => q.dst == p.1.dst && decide (q.dstIndex < p.1.dstIndex + p.1.length) &&
        decide (p.1.dstIndex < q.dstIndex + q.length)))])

/-- A table of a record lies within the constants region: its header, then all of it. -/
def tableInside (cs : List Byte) (ref header entry : Nat) : Bool :=
  decide (ref + header ≤ cs.length) && decide (ref + header + entry * field cs (ref + 8) 4 ≤ cs.length)

/-- COLLECTIVE. -/
def checkCollective (j : Job) (i : List Byte) (f role : Nat → Nat) (r : OpRec) : OpCheck :=
  let n := imgSlots i
  let cs := imgConst i
  let kind := r.par 0 1
  let cf := r.par 1 1
  let plan := r.constRef != 0
  let planIn := tableInside cs r.constRef 32 16
  let table := r.par 12 4
  let tableIn := tableInside cs table 16 24
  let recv := bitOf cf 2
  let useA := if kind = 3 then !recv else kind != 2
  let useD := if kind = 3 then recv else true
  let shift := signed 16 (r.par 4 2)
  let res := signed 8 (r.par 6 1)
  let fa := f r.a
  let fd := f r.dst
  { flags := r.stochastic != (kind == 0) || r.split != 0 || badStochastic r fd
    dst := badSlot n r.dst useD useD || (kind == 0 && !fmtIs fd (· == 0x05)) || (kind == 2 && role r.dst != 2)
    a := badSlot n r.a useA useA || (kind == 0 && !fmtIs fa (fun x => x == 0x05 || x == 0x03)) ||
      (kind == 1 && fa != 0xFF && fd != 0xFF && fa != fd) || (kind == 1 && bitOf cf 1 && (!fmtIs fa (· == 0x05) || !fmtIs fd (· == 0x05)))
    b := badSlot n r.b false false, c := badSlot n r.c false false
    constRef := plan && (kind == 3 || !planIn)
    params := [(0, decide (3 < kind)),
      (1, cf != 0 && !(kind == 0 && cf == 1) && !(kind == 1 && cf == 2) && !(kind == 3 && cf == 4)), (2, (r.par 2 2 == 0) != (kind == 3)),
      (4, if kind = 0 ∧ j.reduceFormat = 1 then decide (shift < -100) || decide (140 < shift) else r.par 4 2 != 0),
      (6, if kind = 0 then decide (res < -16) || decide (16 < res) else r.par 6 1 != 0),
      (7, if kind = 3 then decide (31 < r.par 7 1) else r.par 7 1 != 0), (8, kind != 3 && r.par 8 2 != 0), reservedAt r 10 2,
      (12, if kind = 2 then table % 8 != 0 || !tableIn else table != 0), reservedAt r 16 32]
    tables := (if plan && kind != 3 && planIn then planFaults i r.constRef else []) ++
      (if kind = 2 ∧ tableIn then permFaults i table else []) }

/-! ### PATTERN_LOAD (03 R89, R94) -/

/-- The unit of an operation (03 R93). -/
def opUnit (op : Nat) : Nat :=
  if op = 0x0020 then 2 else if op = 0x0030 then 4
  else if (decide (0x0001 ≤ op) && decide (op ≤ 0x0007)) || (decide (0x0010 ≤ op) && decide (op ≤ 0x0013)) || op = 0x0040 then 1 else 0

/-- The checks of one operation, with the formats that `f` gives its slots. -/
def checkOp (j : Job) (i : List Byte) (f : Nat → Nat) (r : OpRec) : OpCheck :=
  let n := imgSlots i
  let role := fun k => (slotRec i k).role
  if r.op = 0x0001 then checkMatmul i r
  else if r.op = 0x0002 then checkConv i r
  else if r.op = 0x0003 then checkMap n f r
  else if r.op = 0x0004 then checkReduce n f false r
  else if r.op = 0x0005 then checkReduce n f true r
  else if r.op = 0x0006 then checkNorm n f r
  else if r.op = 0x0007 then checkSoftmax n f r
  else if r.op = 0x0010 then checkCopy n f false r
  else if r.op = 0x0011 then checkCopy n f true r
  else if r.op = 0x0012 then checkAccum n f r
  else if r.op = 0x0013 then checkOpt n f role r
  else if r.op = 0x0020 then checkSolve j n role r
  else if r.op = 0x0030 then checkCollective j i f role r
  else checkMark n r

/-- The format a slot states; any for a slot that is absent. -/
def slotFormat (i : List Byte) (k : Nat) : Nat := if k < imgSlots i then (slotRec i k).format else 0xFF

/-- The offsets of what is wrong with one record: an operation the unit has not, else its fields, then its tables. -/
def opFaults (j : Job) (i : List Byte) (r : OpRec) : List Nat :=
  let base := imgOpsAt i + 64 * r.index
  if opUnit r.op != imgTarget i || (r.op = 0x0002 && imgMode i != 0) then [base]
  else
    let k := checkOp j i (slotFormat i) r
    failing base [(2, k.flags || decide (32 ≤ r.flags) || r.flags / 8 % 4 == 3), (4, k.dst), (6, k.a), (8, k.b), (10, k.c), (12, k.constRef)] ++
    failing (base + 16) k.params ++ k.tables

/-- The offsets of what is wrong with the header and the slot table.  A const_offset beside a const_length of 0 is checked for its place only:
DESIGN CHOICE (log 130). -/
def headerFaults (i : List Byte) (len : Nat) : List Nat :=
  let t := imgTarget i
  let size := i.length
  failing 0
    [(0, field i 0 4 != 0x54505850), (4, field i 4 2 != 1), (6, t != 1 && t != 2 && t != 4),
     (7, decide (2 < imgMode i) || (t != 1 && imgMode i != 0)), (8, field i 8 4 != len || decide (len < 64)), (12, imgOps i == 0),
     (14, imgSlots i == 0 || decide (64 < imgSlots i)), (16, imgOpsAt i % 64 != 0 || decide (size < imgOpsAt i + 64 * imgOps i)),
     (20, imgSlotsAt i % 8 != 0 || decide (size < imgSlotsAt i + 8 * imgSlots i)),
     (24, imgConstAt i % 64 != 0 || (imgConstAt i == 0 && imgConstLen i != 0)), (28, decide (size < imgConstAt i + imgConstLen i)),
     (44, !zeroBytes i 44 20)] ++
  (List.range (min (imgSlots i) 64)).flatMap (fun k =>
    let b := imgSlotsAt i + 8 * k
    failing b [(0, decide (2 < (slotRec i k).role)), (1, (slotRec i k).format != 0xFF && fmtBits (slotRec i k).format == 0),
      (2, decide (4 < (slotRec i k).rank)), (3, !zeroBytes i (b + 3) 5)])

/-- The first failure of an image: a code and a result (03 R94). -/
def imageFailure (j : Job) (i : List Byte) (len : Nat) : Option (Nat × Nat) :=
  match headerFaults i len with
  | off :: _ => some (stBadField, off)
  | [] =>
    if crc32cZeroed i 40 != field i 40 4 then some (stBlockCheckFail, 0)
    else match (opRecs i).flatMap (opFaults j i) with
      | off :: _ => some (stBadField, off)
      | [] => none

/-- An image's bytes at most: 16 MiB. -/
def imageMax : Nat := 16777216

/-- Action 0. -/
def State.patternIn (s : State) (c : Cmd) (j : Job) : State :=
  let i := c.data
  if c.badPayload 64 then s.finish c.tag [stBadField] 0
  else match imageFailure j i c.payloadLen with
    | some (k, off) => s.finish c.tag [k] off
    | none =>
      if 4096 ≤ j.patterns.length ∨ imageMax < i.length then s.finish c.tag [stNoResource] 0
      else (s.updJob j.id (fun k => { k with patterns := k.patterns ++ [Pattern.mk k.nextPattern i], nextPattern := k.nextPattern + 1 })).finish
        c.tag [stDone] j.nextPattern

/-- Action 1: a handle that a queued or running course names stays. -/
def State.patternOut (s : State) (c : Cmd) (j : Job) (h : Nat) : State :=
  if j.patterns.all (·.handle != h) then s.finish c.tag [stBadField] 0
  else if s.courses.any (fun x => x.job == j.id && x.kind == .course && x.live && x.pattern == h) then s.finish c.tag [stNoResource] 0
  else (s.updJob j.id (fun k => { k with patterns := k.patterns.filter (·.handle != h) })).finish c.tag [stDone] 0

/-- PATTERN_LOAD. -/
def State.patternLoad (s : State) (c : Cmd) : State :=
  match s.openJob? c.tag.jobId with
  | none => s.finish c.tag [stBadField] 0
  | some j =>
    let a := c.actionId
    if c.badLayout || c.actionReserved || decide (1 < a.1) then s.finish c.tag [stBadField] 0
    else if a.1 = 0 then s.patternIn c j
    else s.patternOut c j a.2

def execPatternLoad (t : Stitch) (src : Src) (io : HostIo) (s : State) : Host.Outcome State Fault Refusal :=
  s.host t src io 0x0022 false State.patternLoad

end Sys2Proof.Machine
end

