-- ==== Sys2Proof/Machine/Exec.lean ====
section
/-! DEFINITION. The operations of needles on tensors: reading elements, the values of every operation of 03 R93 on needles, output
tiles with their flags and maxima, and the writes to staging (03 R82, R95, R99, R104; chapters 05 to 08). -/

namespace Sys2Proof.Machine

/-! ### Reading elements -/

/-- What a launch executes with: the view its course reads, the job, the bindings, the lane, the exponent of the gradient scale,
what of the course's own writes no marker orders yet (03 R104), the base of the free values such reads give, the logical needles of
the course, and those of the panel that executes now. -/
structure Ctx where
  view : View
  job : Job
  image : List Byte
  bindings : List (Nat × Word)
  lane : Lane
  inStep : Bool
  implicitStep : Bool
  g : Int
  wrote : List (Nat × Nat × Nat)
  adds : List AddEl
  freeBase : Nat
  needles : List Nat
  mine : List Nat
  panelOf : Nat → Nat

/-- The tensor bound to a slot. -/
def Ctx.tensor? (x : Ctx) (slot : Nat) : Option Tensor :=
  (x.bindings.lookup slot).bind (fun id => x.job.tensors.find? (·.id == id))

/-- A needle of the course sees an earlier write of the course: it marked the write itself at NEEDLE scope, or the panel did
(03 R105). -/
def Ctx.sees (x : Ctx) (n : Nat) (w : Nat × Nat × Nat) : Bool :=
  (w.2.2 == 1 && w.2.1 == n) || (w.2.2 == 2 && x.panelOf w.2.1 == x.panelOf n)

/-- One byte as a needle reads it in an operation: a byte that the course wrote and no marker orders is a free value. -/
def Ctx.byte (x : Ctx) (op n a : Nat) : Byte :=
  if x.wrote.any (fun w => w.1 == a && !x.sees n w) then (Config.freeBits (x.freeBase + op * 2 ^ 64 + n * 2 ^ 48 + a)).setWidth 8
  else x.view.read a

/-- Bit address of an element (03 R96). -/
def Tensor.bitAt (t : Tensor) (coord : List Nat) : Nat := t.base * 8 + t.elemIndex coord * fmtBits t.format

/-- The byte addresses of an element. -/
def elemBytes (a w : Nat) : List Nat := (List.range (max 1 (w / 8))).map (fun i => a / 8 + i)

/-- The bits of an element as a needle reads it. -/
def Ctx.bits (x : Ctx) (op n : Nat) (t : Tensor) (coord : List Nat) : Nat :=
  let a := t.bitAt coord
  let w := fmtBits t.format
  if w < 8 then (x.byte op n (a / 8)).toNat / 2 ^ (a % 8) % 2 ^ w
  else leVal ((List.range (w / 8)).map (fun i => x.byte op n (a / 8 + i)))

/-- A source element: its value, whether it is not finite, whether its scale made it so, and its own coordinates. -/
structure Elem where
  v : Val
  bad : Bool
  scale : Bool
  coord : List Nat
  deriving DecidableEq, Repr

/-- The scale tensor of an element's tensor (06 R184, R185). -/
def Ctx.scaleOf (x : Ctx) (t : Tensor) : Option Tensor :=
  if t.scaleId != 0 && [0x01, 0x02, 0x03].contains t.format then x.job.tensors.find? (·.id == t.scaleId) else none

/-- The block dimension of a BS4 tensor (06 R184). -/
def blockDim (t sc : Tensor) : Nat := ((List.range 4).find? (fun d => t.ext d != sc.ext d)).getD 0

/-- The E8 code that scales an element; 0x7F for none. -/
def Ctx.scaleCode (x : Ctx) (op n : Nat) (t : Tensor) (coord : List Nat) : Nat :=
  match x.scaleOf t with
  | none => 0x7F
  | some sc =>
    let at0 := if t.format = 0x01 then coord.modify (blockDim t sc) (· / 32) else [0, 0, 0, 0]
    x.bits op n sc at0

/-- A dimension of extent 1 is read at 0: a broadcast (07 R213). -/
def Tensor.clip (t : Tensor) (coord : List Nat) : List Nat :=
  (List.range 4).map (fun d => if t.ext d = 1 then 0 else coord.getD d 0)

/-- Read, decode, flush and scale one element. -/
def Ctx.read (x : Ctx) (op n : Nat) (t : Tensor) (coord : List Nat) : Elem :=
  let c := t.clip coord
  let k := x.scaleCode op n t c
  let bits := x.bits op n t c
  let v := decodeElem t.format bits k
  { v := v, bad := !v.finite, scale := k == 0xFF, coord := c }

/-! ### Writing elements -/

/-- One element that an operation writes: the needle, the tile that records its flags, its place in the tile, its bits, whether it
saturated, the exact value, its first non-finite input, and whether it raises no flag. -/
structure OutEl where
  needle : Nat
  tile : Nat × Nat × Nat
  pos : Nat
  coord : List Nat
  bits : Nat
  sat : Bool
  v : Val
  input : Option (Nat × List Nat × Bool)
  quiet : Bool
  wide : Option Nat := none

/-- The slots whose tensors an operation reads (08 R231). -/
def inputSlots (i : List Byte) (r : OpRec) : List Nat :=
  (if r.op = 0x0001 ∧ r.par 16 2 ≠ 0 then (motifs (imgConst i) r.constRef (r.par 16 2)).flatMap (fun m => [m.a, m.b, m.c])
   else [r.a, r.b, r.c]) ++
  (if r.op = 0x0006 then [r.par 20 2, r.par 22 2] ++ (if r.par 2 1 = 1 then [r.par 24 2] else [])
   else if r.op = 0x0007 ∧ r.par 0 1 = 1 then [r.par 28 2, r.par 30 2, r.par 32 2]
   else if r.op = 0x0013 then [r.par 2 2]
   else if r.op = 0x0020 then [r.par 16 2, r.par 18 2, r.par 24 2] else [])

/-- A write into a tensor is a seed write. -/
def Ctx.seeds (x : Ctx) (r : OpRec) (t : Tensor) : Bool :=
  x.inStep && t.kind == 4 && !(inputSlots x.image r).any (fun k => match x.tensor? k with
    | some u => u.kind == 4
    | none => false)

/-- How an operation rounds into a tensor. -/
def Ctx.rounding (x : Ctx) (r : OpRec) (t : Tensor) (salt : Nat) : Rounding :=
  if r.stochastic && !isIntFmt t.format && decide (fmtBits t.format ≤ 16) then .stochastic r.bits (x.lane.key t.id.toNat salt) else .nearest

/-- Round a value into an element: the bits, the saturation, and the exact value that was rounded. -/
def Ctx.write (x : Ctx) (r : OpRec) (n : Nat) (t : Tensor) (salt : Nat) (coord : List Nat) (v : Val) : Nat × Bool × Val :=
  let w := if x.seeds r t then v.shift x.g else v
  let b := writeElem t.format (x.scaleCode r.index n t coord) (x.rounding r t salt) coord w
  (b.1, b.2, w)

/-- An output element. -/
def Ctx.out (x : Ctx) (r : OpRec) (n : Nat) (t : Tensor) (salt : Nat) (tile : Nat × Nat × Nat) (pos : Nat) (coord : List Nat) (v : Val)
    (input : Option (Nat × List Nat × Bool)) : OutEl :=
  let b := x.write r n t salt coord v
  { needle := n, tile := tile, pos := pos, coord := coord, bits := b.1, sat := b.2.1, v := b.2.2, input := input, quiet := false }

/-- The first of the inputs that is not finite, with its operand number. -/
def firstBad (es : List (Nat × Elem)) : Option (Nat × List Nat × Bool) :=
  (es.find? (·.2.bad)).map (fun e => (e.1, e.2.coord, e.2.scale))

/-! ### Shards and tiles (03 R95, 06 R203, 07 R214) -/

/-- The length of a shard. -/
def shardSpan (extent units : Nat) : Nat := max 1 ((extent + units - 1) / max units 1)

/-- The needle whose shard holds an index of the split dimension. -/
def Ctx.owner (x : Ctx) (extent i : Nat) : Nat :=
  x.needles.getD (min (i / shardSpan extent x.needles.length) (x.needles.length - 1)) 0

/-- The indices of one needle's shard. -/
def Ctx.shard (x : Ctx) (extent n : Nat) : List Nat := (List.range extent).filter (fun i => x.owner extent i == n)

/-- Every coordinate of a tensor, dimension 0 fastest. -/
def Tensor.coords (t : Tensor) : List (List Nat) :=
  (List.range (t.ext 3)).flatMap (fun i3 => (List.range (t.ext 2)).flatMap (fun i2 => (List.range (t.ext 1)).flatMap (fun i1 =>
    (List.range (t.ext 0)).map (fun i0 => [i0, i1, i2, i3]))))

/-- The 64 × 64 block of dimensions 1 and 0 that holds a coordinate, at its index of dimensions 2 and 3, and the place in it.  The
third part of a tile holds a record's batch field in its low 32 bits, 0 here, and those indices above. -/
def blockTile (c : List Nat) : (Nat × Nat × Nat) × Nat :=
  ((c.getD 1 0 / 64 * 64, c.getD 0 0 / 64 * 64, 2 ^ 32 * (c.getD 2 0 + 2 ^ 32 * c.getD 3 0)), 64 * (c.getD 1 0 % 64) + c.getD 0 0 % 64)

/-- The flag record of a group of elements of one tile on one needle, when it is flagged (06 R203, R204); a CONVERT of a NaN into an integer
flags its tile by the input alone (06 R205). -/
def Ctx.flagOf (x : Ctx) (r : OpRec) (t : Tensor) (batch : Nat) (first : Option (Nat × List Nat × Bool)) (es : List OutEl) : Option FlagRec :=
  match es with
  | [] => none
  | e :: _ =>
    let live := es.filter (fun e => !e.quiet)
    let bad := live.filter (fun e => nonFiniteBits t.format e.bits)
    let sat := live.any (·.sat)
    let inp := match first with
      | some f => some f
      | none => if x.scaleCode r.index e.needle t [0, 0, 0, 0] = 0xFF ∧ t.format ≠ 0x01 then some (3, [0, 0, 0, 0], true) else none
    let lost := r.op == 0x0011 && isIntFmt t.format && live.any (fun e => e.v == .nan)
    if bad.isEmpty && !sat && !lost then none
    else
      some { needle := e.needle, tensor := t.id, op := r.index
             bits := bitsOf 8 (fun i => if i = 0 then !bad.isEmpty else if i = 1 then inp.isSome else if i = 2 then sat
               else if i = 3 then (inp.map (·.2.2)).getD false else false)
             operand := (inp.map (·.1)).getD 0xFF, row := e.tile.1, col := e.tile.2.1, batch := batch
             first := if bad.isEmpty then 0xFFFF else bad.foldl (fun m e => min m e.pos) 0xFFFF
             count := min bad.length 0xFFFF, coord := (inp.map (·.2.1)).getD (List.replicate 4 0xFFFFFFFF) }

/-- The elements of one tile on one needle. -/
def tileGroup (es : List OutEl) (n : Nat) (k : Nat × Nat × Nat) : List OutEl := es.filter (fun e => e.needle == n && e.tile == k)

/-- The distinct tiles of a list of elements with their needles, in order of first appearance. -/
def tileKeys (es : List OutEl) : List (Nat × (Nat × Nat × Nat)) := (es.map (fun e => (e.needle, e.tile))).dedup

/-- What an operation does: the elements it writes by tensor, the ACCUMULATEs on each element it updates, its flag records, and the tiles that a
swatch may compare. -/
structure OpOut where
  writes : List (Tensor × List OutEl) := []
  adds : List (List AddEl) := []
  flags : List FlagRec := []
  tiles : List TileRec := []

/-- An element as a swatch sees it. -/
def tileEl (t : Tensor) (e : OutEl) : TileEl := { pos := e.pos, addr := t.bitAt e.coord, width := fmtBits t.format, bits := e.bits, wide := e.wide }

/-- A tile as a swatch sees it. -/
def tileRec (r : OpRec) (t : Tensor) (eligible : Bool) (k : Nat × Nat × Nat × Nat) (flag : Option FlagRec) (es : List OutEl) : TileRec :=
  { op := r.index, needle := k.1, tensor := t.id, row := k.2.1, col := k.2.2.1, batch := k.2.2.2 % 2 ^ 32, elems := es.map (tileEl t)
    flag := flag, eligible := eligible }

/-- The output of an operation whose flags and swatches share tiles; `first` finds a tile's first non-finite input. -/
def Ctx.tiled (x : Ctx) (r : OpRec) (t : Tensor) (eligible flagged : Bool) (es : List OutEl)
    (first : Nat → Nat × Nat × Nat → List OutEl → Option (Nat × List Nat × Bool)) : OpOut :=
  let tiles := (tileKeys es).map (fun k =>
    let g := tileGroup es k.1 k.2
    tileRec r t eligible k (if flagged then x.flagOf r t (k.2.2.2 % 2 ^ 32) (first k.1 k.2 g) g else none) g)
  { writes := [(t, es)], flags := tiles.filterMap (·.flag), tiles := tiles }

/-- The first non-finite input of a tile whose elements each know their own, by position. -/
def firstByPos (es : List OutEl) : Option (Nat × List Nat × Bool) :=
  (es.foldl (fun (m : Option OutEl) e => if e.input.isSome then (match m with
    | some f => if e.pos < f.pos then some e else m
    | none => some e) else m) none).bind (·.input)

/-- The output of a vector operation over its destination. -/
def Ctx.vector (x : Ctx) (r : OpRec) (t : Tensor) (eligible flagged : Bool) (es : List OutEl) : OpOut :=
  x.tiled r t eligible flagged es (fun _ _ g => firstByPos g)

/-- Outputs one after the other. -/
def OpOut.join (a b : OpOut) : OpOut := { writes := a.writes ++ b.writes, adds := a.adds ++ b.adds, flags := a.flags ++ b.flags, tiles := a.tiles ++ b.tiles }

/-- The needle of a destination coordinate, when it executes now. -/
def Ctx.needleAt (x : Ctx) (r : OpRec) (t : Tensor) (c : List Nat) : Option Nat :=
  let n := x.owner (t.ext r.split) (c.getD r.split 0)
  if x.mine.contains n then some n else none

/-- Coordinates of a destination with their needles. -/
def Ctx.space (x : Ctx) (r : OpRec) (t : Tensor) : List (Nat × List Nat) :=
  t.coords.filterMap (fun c => (x.needleAt r t c).map (fun n => (n, c)))

/-! ### Products (05 R153 to R169; 06 R188 to R197) -/

/-- A product: its sources by index (none when masked), the destination's coordinates (none when masked), the tile's rows and
columns, and the record's batch field. -/
structure Product where
  k : Nat
  fmt : Nat
  faithful : Bool
  a : Nat → Nat → Nat → Option Elem
  b : Nat → Nat → Nat → Option Elem
  c : Option (Nat → List Nat → Elem)
  dst : Nat → Nat → Option (List Nat)
  rows : Nat
  cols : Nat
  batch : Nat

/-- A product is short-format, integer or sliced by its first input. -/
def isSliced (f : Nat) : Bool := f == 0x07 || f == 0x08

/-- The value of one element: before the output rounding, and whether the integer sum saturated. -/
def productValue (fmt : Nat) (faithful : Bool) (c : Option Val) (ps : List (Option (Val × Val))) : Val × Bool :=
  if fmt = 0x04 then
    let s := satInt32 (((c.map Val.toInt).getD 0) + (ps.filterMap id).foldl (fun a p => a + p.1.toInt * p.2.toInt) 0)
    (.ofInt s.1, s.2)
  else if isSliced fmt then (slicedSum fmt faithful c (ps.filterMap id), false)
  else (refSum c (ps.map (fun p => p.map (fun q => term q.1 q.2))), false)

/-- The wide value of an element: C plus every unmasked term exactly, rounded once to FP64 (08 R249). -/
def wideValue (c : Option Val) (ps : List (Option (Val × Val))) : Nat :=
  (fp64.round ((ps.filterMap id).foldl (fun (a : Val) p => a.add (p.1.mul p.2)) (c.getD Val.zero))).1

/-- The factor pairs of one element. -/
def Product.pairs (p : Product) (n i j : Nat) : List (Option (Val × Val)) :=
  (List.range p.k).map (fun k => (p.a n i k).bind (fun u => (p.b n j k).map (fun w => (u.v, w.v))))

/-- One element of a product. -/
def Ctx.productEl (x : Ctx) (r : OpRec) (t : Tensor) (p : Product) (n r0 c0 i j : Nat) : Option OutEl :=
  (p.dst i j).map (fun coord =>
    let v := productValue p.fmt p.faithful (p.c.map (fun f => (f n coord).v)) (p.pairs n i j)
    let e := x.out r n t 0 (r0, c0, p.batch) (64 * (i - r0) + (j - c0)) coord v.1 none
    { e with sat := e.sat || v.2, wide := if p.fmt = 0x04 || isSliced p.fmt then none else some (wideValue (p.c.map (fun f => (f n coord).v)) (p.pairs n i j)) })

/-- The first non-finite input of a product's tile: by k, A before B, then C in row-major order (06 R203). -/
def Product.first (p : Product) (n : Nat) (rows cols : List Nat) : Option (Nat × List Nat × Bool) :=
  let ab := (List.range p.k).flatMap (fun k =>
    (rows.filterMap (fun i => (p.a n i k).map (fun e => (0, e)))) ++ (cols.filterMap (fun j => (p.b n j k).map (fun e => (1, e)))))
  let c := match p.c with
    | some f => rows.flatMap (fun i => cols.filterMap (fun j => (p.dst i j).map (fun d => (2, f n d))))
    | none => []
  firstBad (ab ++ c)

/-- The tiles of a needle's shard of rows and columns, from the shard's start. -/
def chunksOf (w : Nat) : Nat → List Nat → List (List Nat)
  | 0, _ => []
  | f + 1, l => if l.isEmpty then [] else l.take w :: chunksOf w f (l.drop w)

/-- One tile of a product on a needle. -/
def Ctx.productTile (x : Ctx) (r : OpRec) (t : Tensor) (p : Product) (n : Nat) (rows cols : List Nat) : OpOut :=
  let es := rows.flatMap (fun i => cols.filterMap (fun j => x.productEl r t p n (rows.headD 0) (cols.headD 0) i j))
  x.tiled r t true true es (fun n _ _ => p.first n rows cols)

/-- A product over a shard. -/
def Ctx.product (x : Ctx) (r : OpRec) (t : Tensor) (p : Product) (n : Nat) (rows cols : List Nat) : OpOut :=
  ((chunksOf p.rows rows.length rows).flatMap (fun rs => (chunksOf p.cols cols.length cols).map (fun cs => x.productTile r t p n rs cs))).foldl
    OpOut.join {}

/-- A two-dimensional operand: the reduction index runs along dimension 0 when natural (05 R154). -/
def Ctx.operand (x : Ctx) (op : Nat) (t : Tensor) (transposed : Bool) (batch n i k : Nat) : Option Elem :=
  some (x.read op n t (if transposed then [i, k, batch, 0] else [k, i, batch, 0]))

/-- A plain product or a motif of bound tensors. -/
def Ctx.matrix (x : Ctx) (r : OpRec) (a b : Tensor) (c : Option Tensor) (k fmt fl batch tileR tileC : Nat) : Product :=
  { k := k, fmt := fmt, faithful := bitOf fl 2, a := x.operand r.index a (bitOf fl 0) batch, b := x.operand r.index b (bitOf fl 1) batch
    c := c.map (fun t n d => x.read r.index n t d), dst := fun i j => some [j, i, batch, 0], rows := tileR, cols := tileC, batch := batch }

/-- The rows and columns of a tile: the array's, or the forerunner engine's in a legacy image (05 R161). -/
def tileSide (mode : Nat) : Nat := if mode = 1 then 16 else if mode = 2 then 32 else 64

/-- A plain MATMUL. -/
def Ctx.matmulPlain (x : Ctx) (r : OpRec) : OpOut :=
  match x.tensor? r.dst, x.tensor? r.a, x.tensor? r.b with
  | some d, some a, some b =>
    let m := r.par 0 4
    let n := r.par 4 4
    let nb := r.par 20 4
    let side := tileSide (imgMode x.image)
    (x.mine.flatMap (fun u =>
      let rows := if r.split = 0 then x.shard m u else List.range m
      let cols := if r.split = 1 then x.shard n u else List.range n
      (if r.split = 2 then x.shard nb u else List.range nb).map (fun q =>
        x.product r d (x.matrix r a b (x.tensor? r.c) (r.par 8 4) (r.par 12 1) (r.par 15 1) q side side) u rows cols))).foldl OpOut.join {}
  | _, _, _ => {}

/-- One motif (05 R157, R159). -/
def Ctx.motif (x : Ctx) (r : OpRec) (n : Nat) (q : Motif) : OpOut :=
  match x.tensor? q.dst, x.tensor? q.a, x.tensor? q.b with
  | some d, some a, some b =>
    x.product r d (x.matrix r a b (x.tensor? q.c) q.k (r.par 12 1) (q.flags / 2 + 4 * (r.par 15 1 / 4)) q.batch (16 * q.rowBlocks) (16 * q.colBlocks))
      n (List.range q.m) (List.range q.n)
  | _, _, _ => {}

/-- MATMUL: plain, or in motif groups divided as whole groups. -/
def Ctx.matmul (x : Ctx) (r : OpRec) : OpOut :=
  let g := r.par 16 2
  if g = 0 then x.matmulPlain r
  else ((motifs (imgConst x.image) r.constRef g).filterMap (fun q =>
    let n := x.owner g q.group
    if x.mine.contains n then some (x.motif r n q) else none)).foldl OpOut.join {}

/-- The contribution of a set's levels to a dimension. -/
def levelSum (d : Nat) : List Level → Nat → Int
  | [], _ => 0
  | l :: ls, i => (if l.dim = d then ((i % max l.count 1 : Nat) : Int) * l.step else 0) + levelSum d ls (i / max l.count 1)

/-- The coordinate that a generator addresses, none when it lies outside the tensor (05 R166, R167). -/
def Gen.coord (g : Gen) (t : Tensor) (p q : Nat) : Option (List Nat) :=
  let c := (List.range 4).map (fun d => g.origin.getD d 0 + levelSum d g.p p + levelSum d g.q q)
  if c.zipIdx.all (fun e => decide (0 ≤ e.1) && decide (e.1 < (t.ext e.2 : Int))) then some (c.map Int.toNat) else none

/-- CONV. -/
def Ctx.conv (x : Ctx) (r : OpRec) : OpOut :=
  match x.tensor? r.dst, x.tensor? r.a, x.tensor? r.b with
  | some d, some a, some b =>
    let cs := imgConst x.image
    let ga := genAt cs r.constRef
    let gb := genAt cs (r.constRef + 96)
    let go := genAt cs (r.constRef + 192)
    let p : Product :=
      { k := r.par 12 4, fmt := r.par 0 1, faithful := bitOf (r.par 3 1) 0
        a := fun n i k => (ga.coord a i k).map (x.read r.index n a), b := fun n j k => (gb.coord b j k).map (x.read r.index n b)
        c := (x.tensor? r.c).map (fun t n e => x.read r.index n t e), dst := fun i j => go.coord d i j, rows := 64, cols := 64, batch := 0 }
    (x.mine.map (fun u => x.product r d p u (if r.split = 0 then x.shard (r.par 4 4) u else List.range (r.par 4 4))
      (if r.split = 1 then x.shard (r.par 8 4) u else List.range (r.par 8 4)))).foldl OpOut.join {}
  | _, _, _ => {}

/-! ### Vector operations (07 R209 to R218) -/

/-- VEC_MAP. -/
def Ctx.map (x : Ctx) (r : OpRec) : OpOut :=
  match x.tensor? r.dst with
  | none => {}
  | some d =>
    let fn := r.par 0 2
    let mf := r.par 2 2
    let ar := fnArity fn
    let src := fun (k slot : Nat) (const : Bool) (code : Nat) (n : Nat) (c : List Nat) =>
      if ar < k then Elem.mk Val.zero false false [] else if const then Elem.mk (fp64.decode code) false false []
      else match x.tensor? slot with
        | some t => x.read r.index n t c
        | none => Elem.mk Val.zero false false []
    let es := (x.space r d).filterMap (fun u =>
      let a := src 1 r.a false 0 u.1 u.2
      let b := src 2 r.b (bitOf mf 0) (r.par 8 8) u.1 u.2
      let c := src 3 r.c (bitOf mf 1) (r.par 16 8) u.1 u.2
      let pred := if bitOf mf 2 then (x.tensor? r.c).map (fun t => x.read r.index u.1 t u.2) else none
      match pred with
      | some e => if e.v.isZero then none else
          some (x.out r u.1 d 0 (blockTile u.2).1 (blockTile u.2).2 u.2 (mapValue fn a.v b.v c.v) (firstBad [(0, a), (1, b), (2, e)]))
      | none => some (x.out r u.1 d 0 (blockTile u.2).1 (blockTile u.2).2 u.2 (mapValue fn a.v b.v c.v) (firstBad [(0, a), (1, b), (2, c)])))
    x.vector r d true true es

/-- The source elements along a dimension through a coordinate. -/
def Ctx.line (x : Ctx) (op n : Nat) (t : Tensor) (dim : Nat) (c : List Nat) : List Elem :=
  (List.range (t.ext dim)).map (fun i => x.read op n t (c.set dim i))

/-- VEC_REDUCE. -/
def Ctx.reduce (x : Ctx) (r : OpRec) : OpOut :=
  match x.tensor? r.dst, x.tensor? r.a with
  | some d, some a =>
    let kind := r.par 0 1
    let es := (x.space r d).map (fun u =>
      let xs := x.line r.index u.1 a (r.par 1 1) u.2
      let start := (x.tensor? r.c).map (fun t => x.read r.index u.1 t u.2)
      let v := reduceValue kind d.format (a.format == 0x08) (start.map (·.v)) (fp64.decode (r.par 8 8)) (xs.map (·.v))
      let e := x.out r u.1 d 0 (blockTile u.2).1 (blockTile u.2).2 u.2 v (firstBad (xs.map (fun e => (0, e)) ++ start.toList.map (fun e => (2, e))))
      { e with quiet := xs.isEmpty && (kind == 2 || kind == 3 || kind == 4) })
    x.vector r d true true es
  | _, _ => {}

/-- VEC_SCAN: an exclusive scan gives at a position the inclusive value of the position before it, that one's starting sum included. -/
def Ctx.scan (x : Ctx) (r : OpRec) : OpOut :=
  match x.tensor? r.dst, x.tensor? r.a with
  | some d, some a =>
    let dim := r.par 1 1
    let excl := bitOf (r.par 2 1) 0
    let rev := bitOf (r.par 2 1) 1
    let es := (x.space r d).map (fun u =>
      let xs := x.line r.index u.1 a dim u.2
      let j := u.2.getD dim 0
      let from_ := if excl then u.2.set dim (if rev then j + 1 else j - 1) else u.2
      let start := (x.tensor? r.c).map (fun t => x.read r.index u.1 t from_)
      let v := scanValue (r.par 0 1) d.format (a.format == 0x08) excl rev (start.map (·.v)) (fp64.decode (r.par 8 8)) (xs.map (·.v))
        (if rev then xs.length - 1 - j else j)
      let used := if rev then xs.drop (if excl then j + 1 else j) else xs.take (if excl then j else j + 1)
      -- the first position of an exclusive scan reads nothing
      let begin := if used.isEmpty then [] else start.toList
      x.out r u.1 d 0 (blockTile u.2).1 (blockTile u.2).2 u.2 v (firstBad (used.map (fun e => (0, e)) ++ begin.map (fun e => (2, e)))))
    x.vector r d true true es
  | _, _ => {}

/-- COPY: bits move unchanged; the exact value is what the destination's element stands for. -/
def Ctx.copy (x : Ctx) (r : OpRec) : OpOut :=
  match x.tensor? r.dst, x.tensor? r.a with
  | some d, some a =>
    let es := (x.space r d).map (fun u =>
      let bits := x.bits r.index u.1 a (a.clip u.2)
      { needle := u.1, tile := (blockTile u.2).1, pos := (blockTile u.2).2, coord := u.2, bits := bits, sat := false
        v := decodeElem d.format bits (x.scaleCode r.index u.1 d u.2), input := none, quiet := true : OutEl })
    x.vector r d true false es
  | _, _ => {}

/-- CONVERT (06 R205). -/
def Ctx.convert (x : Ctx) (r : OpRec) : OpOut :=
  match x.tensor? r.dst, x.tensor? r.a with
  | some d, some a =>
    let es := (x.space r d).map (fun u =>
      let e := x.read r.index u.1 a u.2
      x.out r u.1 d 0 (blockTile u.2).1 (blockTile u.2).2 u.2 e.v (firstBad [(0, e)]))
    x.vector r d true true es
  | _, _ => {}

/-- A needle of the course sees an earlier ACCUMULATE of the course. -/
def Ctx.seesAdd (x : Ctx) (n : Nat) (e : AddEl) : Bool := x.sees n (e.addr / 8, e.needle, e.level)

/-- One ACCUMULATE on an element whose bits are `d`: the bits after it, the saturation, and the exact value rounded (08 R240). -/
def Ctx.addStep (x : Ctx) (t : Tensor) (coord : List Nat) (d : Nat) (e : AddEl) : Nat × Bool × Val :=
  let src := decodeElem e.fmt e.code e.scale
  let v := if e.fresh then src else (decodeElem t.format d 0x7F).add src
  let w := if e.seed then v.shift x.g else v
  let b := writeElem t.format 0x7F (.stochastic e.rbits (x.lane.key t.id.toNat e.salt)) coord w
  (b.1, b.2, w)

/-- The bits of an element after some ACCUMULATEs on it. -/
def Ctx.addAll (x : Ctx) (t : Tensor) (coord : List Nat) (d : Nat) (es : List AddEl) : Nat := es.foldl (fun d e => (x.addStep t coord d e).1) d

/-- The ACCUMULATEs on an element with one more, and its place among them.  Each is applied whole, in the order in which they reach the
controller; of those that no marker orders that order is a free value (08 R241).  Where another write of the course is not ordered either, the
element's bits are one too. -/
def Ctx.addIn (x : Ctx) (op n : Nat) (t : Tensor) (coord : List Nat) (e : AddEl) : List AddEl × Nat :=
  let before := x.adds.filter (·.addr == e.addr)
  let loose := before.filter (fun q => !x.seesAdd n q)
  let only := (elemBytes e.addr (fmtBits t.format)).all (fun b =>
    decide ((x.wrote.filter (fun w => w.1 == b && !x.sees n w)).length ≤ loose.length))
  if loose.isEmpty || !only then ([{ e with old := x.bits op n t coord }], 0)
  else
    let low := before.length - (before.reverse.takeWhile (fun q => !x.seesAdd n q)).length
    let k := low + (Config.freeBits (x.freeBase + op * 2 ^ 64 + n * 2 ^ 48 + e.addr)).toNat % (before.length - low + 1)
    let base := (before.head?.map (·.old)).getD 0
    ((before.take k ++ e :: before.drop k).map (fun q => { q with old := base }), k)

/-- ACCUMULATE (08 R239 to R241): the element takes what all the unordered updates on it leave, in an order that is free (log 119). -/
def Ctx.accumulate (x : Ctx) (r : OpRec) : OpOut :=
  match x.tensor? r.dst, x.tensor? r.a with
  | some d, some a =>
    let fresh := bitOf (r.par 2 1) 0
    let per := (x.space r d).map (fun u =>
      let c := a.clip u.2
      let e := x.read r.index u.1 a u.2
      let q := x.addIn r.index u.1 d u.2 { addr := d.bitAt u.2, needle := u.1, level := 0, old := 0, fmt := a.format, code := x.bits r.index u.1 a c
                                           scale := x.scaleCode r.index u.1 a c, fresh := fresh, seed := x.seeds r d
                                           salt := 0x00010000 + r.par 0 2, rbits := r.bits }
      let base := (q.1.head?.map (·.old)).getD 0
      let mine := decodeElem d.format (x.addAll d u.2 base (q.1.take q.2)) 0x7F
      let last := match q.1.getLast? with
        | some z => x.addStep d u.2 (x.addAll d u.2 base q.1.dropLast) z
        | none => (base, false, Val.zero)
      let o := Elem.mk mine (!mine.finite) false u.2
      ({ needle := u.1, tile := (blockTile u.2).1, pos := (blockTile u.2).2, coord := u.2, bits := last.1, sat := last.2.1, v := last.2.2
         input := firstBad ([(0, e)] ++ (if fresh then [] else [(1, o)])), quiet := false : OutEl }, q.1))
    { x.vector r d false true (per.map (·.1)) with adds := per.map (·.2) }
  | _, _ => {}

/-! ### OPT_UPDATE (08 R244, R245) -/

/-- The parameters of a record, `scale` the lr_scale element and `t` the commit count plus 1. -/
def optPar (r : OpRec) (scale : Option Val) (t : Nat) : OptPar :=
  let lr := fp64.decode (r.par 8 8)
  { momentum := r.par 0 1 == 1, correct := bitOf (r.par 1 1) 0, lr := match scale with
      | some s => rne64 (lr.mul s)
      | none => lr
    beta1 := fp64.decode (r.par 16 8), beta2 := fp64.decode (r.par 24 8), eps := fp64.decode (r.par 32 8), decay := fp64.decode (r.par 40 8), t := t }

/-- OPT_UPDATE: the moments are rounded, then the weight from the stored moments. -/
def Ctx.opt (x : Ctx) (r : OpRec) : OpOut :=
  match x.tensor? r.dst, x.tensor? r.a, x.tensor? r.b with
  | some w, some g, some m =>
    let v := x.tensor? r.c
    let per := (x.space r w).map (fun u =>
      let ge := x.read r.index u.1 g u.2
      let me := x.read r.index u.1 m u.2
      let ve := v.map (fun t => x.read r.index u.1 t u.2)
      let scale := (x.tensor? (r.par 2 2)).map (fun t => (x.read r.index u.1 t [0, 0, 0, 0]).v)
      let p := optPar r scale (x.job.scale.commits + 1)
      let ms := optMoments p me.v ((ve.map (·.v)).getD Val.zero) (ge.v.shift (-x.g))
      let inp := firstBad ([(0, ge), (1, me)] ++ ve.toList.map (fun e => (2, e)))
      let tile := (blockTile u.2).1
      let pos := (blockTile u.2).2
      let m1 := x.out r u.1 m 0x00020002 tile pos u.2 ms.1 inp
      let v1 := v.map (fun t => x.out r u.1 t 0x00020003 tile pos u.2 ms.2 inp)
      let stored := fun (e : OutEl) => bf16.decode e.bits
      let w1 := optWeight p (x.read r.index u.1 w u.2).v (stored m1) ((v1.map stored).getD Val.zero)
      (x.out r u.1 w 0x00020001 tile pos u.2 w1 inp, m1, v1))
    let rest := (x.vector r w true true (per.map (·.1))).join (x.vector r m true true (per.map (·.2.1)))
    match v with
    | some t => rest.join (x.vector r t true true (per.filterMap (·.2.2)))
    | none => rest
  | _, _, _ => {}

/-! ### FUSED_NORM (07 R220 to R222) -/

/-- The reduction of R216 over values, and the FP32 rounding. -/
def sigmaRef (vs : List Val) : Val := sumValue 0 false none vs

/-- Flags of a fused operation stand on the destination's tiles; its swatches compare blocks of 64 rows with their statistics
(13 R367). -/
def Ctx.fused (x : Ctx) (r : OpRec) (d : Tensor) (es : List OutEl) (stats : Option (Tensor × List OutEl)) (others : List (Tensor × List OutEl)) :
    OpOut :=
  let base := x.vector r d true true es
  let st := stats.toList
  let blocks := (es.map (fun e => (e.needle, e.coord.getD 1 0 / 64))).dedup
  { writes := base.writes ++ st ++ others
    flags := base.flags
    tiles := blocks.map (fun k =>
      let of := fun (t : Tensor) (l : List OutEl) =>
        (l.filter (fun e => e.needle == k.1 && e.coord.getD 1 0 / 64 == k.2)).map (tileEl t)
      { op := r.index, needle := k.1, tensor := d.id, row := 64 * k.2, col := 0, batch := 0, elems := of d es ++ st.flatMap (fun s => of s.1 s.2)
        flag := none, eligible := true }) }

/-- What FUSED_NORM knows of one row: the needle, the norm input, the upstream gradient, the mean and the reciprocal deviation, and
the inputs of its elements in order. -/
structure NormRow where
  n : Nat
  i : Nat
  u : List Val
  g : List Val
  mu : Val
  rd : Val
  inputs : Nat → List (Nat × Elem)

/-- The mean and the reciprocal deviation of a row. -/
def rowStats (rms : Bool) (eps : Val) (u : List Val) : Val × Val :=
  let L := Val.ofInt u.length
  let mu := if rms then Val.zero else rne32 ((sigmaRef u).div L)
  let v := rne32 ((sigmaRef (u.map (fun e => (e.sub mu).mul (e.sub mu)))).div L)
  (mu, rne32 (vRsqrt (v.add eps)))

/-- A product row's values as FUSED_NORM and FUSED_SOFTMAX take them: the result before the output rounding, a sliced one rounded to its
format. -/
def rowValue (fmt : Nat) (ps : List (Option (Val × Val))) : Val :=
  let v := (productValue fmt false none ps).1
  if fmt = 0x07 then fp32.rne v else if fmt = 0x08 then fp64.rne v else v

/-- A normalised value rounded to nearest even into mid_format before the product (07 R220, R221).  A BS4 value is an E2M1 code whose scale is 1,
since the params name no scale for it (DESIGN CHOICE, log 118). -/
def midValue (fmt : Nat) (v : Val) : Val :=
  if fmt = 0x01 then
    match v with
    | .num neg m e st =>
      let n := gridNearest m e (e2m1Fmt.quantum (max m 1) e) st
      e2m1 (if e2m1Fmt.beyond n (e2m1Fmt.quantum (max m 1) e) then (Config.bs4Beyond neg m e).toNat
        else e2m1Fmt.encodeGrid neg n (e2m1Fmt.quantum (max m 1) e))
    | .inf neg => e2m1 (Config.bs4Beyond neg 0 0).toNat
    | .nan => e2m1 (Config.bs4Beyond false 0 1).toNat
  else decodeElem fmt (writeElem fmt 0x7F .nearest [] v).1 0x7F

/-- The values of one row before its statistics. -/
def Ctx.normRow (x : Ctx) (r : OpRec) (a b : Tensor) (c stats : Option Tensor) (n i : Nat) : NormRow :=
  let k := r.par 12 4
  let fl := r.par 3 1
  let rms := r.par 0 1 == 1
  let post := r.par 1 1 == 1
  let bwd := r.par 2 1 == 1
  let ae := (List.range k).map (fun q => x.read r.index n a (if bitOf fl 0 then [i, q, 0, 0] else [q, i, 0, 0]))
  let be := fun j => (List.range k).map (fun q => x.read r.index n b (if bitOf fl 1 then [j, q, 0, 0] else [q, j, 0, 0]))
  let prod := (List.range (r.par 8 4)).map (fun j => rowValue (r.par 16 1) ((ae.zip (be j)).map (fun p => some (p.1.v, p.2.v))))
  let ce := match c with
    | some t => (List.range (r.par 8 4)).map (fun j => x.read r.index n t [j, i, 0, 0])
    | none => []
  let u := if !bwd then (if post then prod else ae.map (·.v)) else if post then prod else ce.map (·.v)
  let g := if !bwd then [] else if post then ce.map (·.v) else prod
  let st := if bwd then match stats with
      | some t => ((x.read r.index n t [0, i, 0, 0]).v, (x.read r.index n t [1, i, 0, 0]).v)
      | none => (Val.zero, Val.zero)
    else rowStats rms (fp64.decode (r.par 32 8)) u
  { n := n, i := i, u := u, g := g, mu := st.1, rd := st.2
    inputs := fun j => ae.map (fun e => (0, e)) ++ (be j).map (fun e => (1, e)) ++ (ce.map (fun e => (2, e))) }

/-- xh of a row. -/
def NormRow.xh (q : NormRow) : List Val := q.u.map (fun e => (e.sub q.mu).mul q.rd)

/-- A rank-1 tensor's element, or a default. -/
def Ctx.vec (x : Ctx) (op n slot : Nat) (dflt : Val) (j : Nat) : Val :=
  match x.tensor? slot with
  | some t => (x.read op n t [j, 0, 0, 0]).v
  | none => dflt

/-- The forward values of a row: normalised, scaled and shifted. -/
def Ctx.normY (x : Ctx) (r : OpRec) (q : NormRow) : List Val :=
  q.xh.zipIdx.map (fun e => (e.1.mul (x.vec r.index q.n (r.par 20 2) Val.one e.2)).add
    (if r.par 0 1 = 1 then Val.zero else x.vec r.index q.n (r.par 22 2) Val.zero e.2))

/-- The backward values of a row. -/
def Ctx.normDx (x : Ctx) (r : OpRec) (q : NormRow) : List Val :=
  let L := Val.ofInt q.u.length
  let h := q.g.zipIdx.map (fun e => e.1.mul (x.vec r.index q.n (r.par 20 2) Val.one e.2))
  let a := if r.par 0 1 = 1 then Val.zero else rne32 ((sigmaRef h).div L)
  let b := rne32 ((sigmaRef ((h.zip q.xh).map (fun p => p.1.mul p.2))).div L)
  (h.zip q.xh).map (fun p => q.rd.mul ((p.1.sub a).sub (p.2.mul b)))

/-- A row reduction's gradient output (07 R221 round_G). -/
def Ctx.normSum (x : Ctx) (r : OpRec) (slot : Nat) (rows : List NormRow) (f : NormRow → List Val) : List (Tensor × List OutEl) :=
  match x.tensor? slot with
  | none => []
  | some t =>
    let n := x.needles.headD 0
    let vals := rows.map f
    [(t, (List.range (t.ext 0)).map (fun j =>
      x.out r n t 0 (blockTile [j]).1 (blockTile [j]).2 [j, 0, 0, 0] (sigmaRef (vals.map (fun l => l.getD j Val.zero))) none))]

/-- FUSED_NORM. -/
def Ctx.norm (x : Ctx) (r : OpRec) : OpOut :=
  match x.tensor? r.dst, x.tensor? r.a, x.tensor? r.b with
  | some d, some a, some b =>
    let m := r.par 4 4
    let post := r.par 1 1 == 1
    let bwd := r.par 2 1 == 1
    let stats := x.tensor? (r.par 24 2)
    let rows := (List.range m).filterMap (fun i =>
      let n := x.owner m i
      if x.mine.contains n then some (x.normRow r a b (x.tensor? r.c) stats n i) else none)
    let values := fun (q : NormRow) =>
      if bwd then x.normDx r q
      else if post then x.normY r q
      else
        let y := (x.normY r q).map (midValue (r.par 18 1))
        (List.range (r.par 8 4)).map (fun j => rowValue (r.par 18 1)
          (y.zipIdx.map (fun e => some (e.1, (x.read r.index q.n b (if bitOf (r.par 3 1) 1 then [j, e.2, 0, 0] else [e.2, j, 0, 0])).v))))
    let es := rows.flatMap (fun q => (values q).zipIdx.map (fun e =>
      x.out r q.n d 0 (blockTile [e.2, q.i]).1 (blockTile [e.2, q.i]).2 [e.2, q.i, 0, 0] e.1 (firstBad (q.inputs e.2))))
    let st := if bwd then none else stats.map (fun t => (t, rows.flatMap (fun q =>
      [x.out r q.n t 0 (0, 0, 0) 0 [0, q.i, 0, 0] q.mu none, x.out r q.n t 0 (0, 0, 0) 0 [1, q.i, 0, 0] q.rd none])))
    let sums := if bwd then
        x.normSum r (r.par 26 2) rows (fun q => (q.g.zip q.xh).map (fun p => p.1.mul p.2)) ++ x.normSum r (r.par 28 2) rows (·.g)
      else []
    x.fused r d es st sums
  | _, _, _ => {}

/-! ### FUSED_SOFTMAX (07 R223 to R225) -/

/-- One row of the soft-maximum: the scores, the mask, the statistics, the narrow probabilities. -/
structure SoftRow where
  n : Nat
  i : Nat
  t : List (Option Val)
  none : Bool
  mx : Val
  l : Val
  p : List Val
  pBits : List Nat
  /-- Q's row and the rows of K at some keys: the inputs of the scores there. -/
  inputs : List Nat → List (Nat × Elem)

/-- A scaled score is −Inf. -/
def isNegInf (v : Val) : Bool := v == .inf true

/-- The row i of Q·Kᵀ, scaled, masked where causal says so; then its probabilities. -/
def Ctx.softRow (x : Ctx) (r : OpRec) (a b : Tensor) (stats : Option Tensor) (n i : Nat) : SoftRow :=
  let fl := r.par 1 1
  let k := r.par 12 4
  let ae := (List.range k).map (fun q => x.read r.index n a (if bitOf fl 1 then [i, q, 0, 0] else [q, i, 0, 0]))
  let be := fun j => (List.range k).map (fun q => x.read r.index n b (if bitOf fl 2 then [j, q, 0, 0] else [q, j, 0, 0]))
  let masked := fun (j : Nat) => bitOf fl 0 && decide ((i : Int) + signed 32 (r.par 24 4) < (j : Int))
  let t := (List.range (r.par 8 4)).map (fun j => if masked j then Option.none else
    some ((rowValue (r.par 20 1) ((ae.zip (be j)).map (fun p => some (p.1.v, p.2.v)))).mul (fp64.decode (r.par 40 8))))
  let seen := t.filterMap id
  let empty := seen.all isNegInf
  let st := if r.par 0 1 = 1 then stats.map (fun u => ((x.read r.index n u [0, i, 0, 0]).v, (x.read r.index n u [1, i, 0, 0]).v)) else Option.none
  let mx := if empty then .inf true else match st with
    | some q => q.1
    | Option.none => rne32 ((extreme 2 seen).getD Val.zero)
  let e := t.map (fun o => match o with
    | some v => rne32 (vExp (v.sub mx))
    | Option.none => Val.zero)
  let l := if empty then Val.zero else match st with
    | some q => q.2
    | Option.none => sigmaRef e
  let bits := e.map (fun v => if empty then 0 else ((fmtOf (r.par 22 1)).map (fun f => (f.round (v.div l)).1)).getD 0)
  { n := n, i := i, t := t, none := empty, mx := mx, l := l, pBits := bits, p := bits.map (fun c => decodeElem (r.par 22 1) c 0x7F)
    inputs := fun js => ae.map (fun e => (0, e)) ++ js.flatMap (fun j => (be j).map (fun e => (1, e))) }

/-- The unmasked keys of a row. -/
def SoftRow.keys (q : SoftRow) : List Nat := (List.range q.t.length).filter (fun j => (q.t.getD j Option.none).isSome)

/-- V's element of key j and feature c. -/
def Ctx.softV (x : Ctx) (r : OpRec) (v : Tensor) (n j c : Nat) : Elem :=
  x.read r.index n v (if bitOf (r.par 1 1) 3 then [c, j, 0, 0] else [j, c, 0, 0])

/-- The inputs of one element of a row: forward, the scores of every unmasked key and V's column, which each p multiplies; backward, the score
of its own key and V's features there, and nothing at a masked key (07 R214, R224). -/
def Ctx.softInputs (x : Ctx) (r : OpRec) (v : Tensor) (q : SoftRow) (bwd : Bool) (j : Nat) : List (Nat × Elem) :=
  if !bwd then q.inputs q.keys ++ (List.range (r.par 8 4)).map (fun i => (2, x.softV r v q.n i j))
  else if q.keys.contains j then q.inputs [j] ++ (List.range (r.par 16 4)).map (fun c => (2, x.softV r v q.n j c))
  else []

/-- The forward outputs of a row. -/
def Ctx.softO (x : Ctx) (r : OpRec) (v : Tensor) (q : SoftRow) : List Val :=
  (List.range (r.par 16 4)).map (fun c => if q.none then Val.zero else
    refSum Option.none (q.p.zipIdx.map (fun e => some (term e.1 (x.softV r v q.n e.2 c).v))))

/-- The backward outputs of a row. -/
def Ctx.softDs (x : Ctx) (r : OpRec) (v dO o : Tensor) (q : SoftRow) : List Val :=
  let dv := List.range (r.par 16 4)
  let d := dv.map (fun c => (x.read r.index q.n dO [c, q.i, 0, 0]).v)
  let D := rne32 (sigmaRef (d.zipIdx.map (fun e => e.1.mul (x.read r.index q.n o [e.2, q.i, 0, 0]).v)))
  (q.t.zip q.p).zipIdx.map (fun e =>
    if q.none || e.1.1.isNone then Val.zero
    else
      let dP := refSum Option.none (d.zipIdx.map (fun c => some (term c.1 (x.softV r v q.n e.2 c.2).v)))
      (e.1.2.mul (dP.sub D)).mul (fp64.decode (r.par 40 8)))

/-- FUSED_SOFTMAX. -/
def Ctx.softmax (x : Ctx) (r : OpRec) : OpOut :=
  match x.tensor? r.dst, x.tensor? r.a, x.tensor? r.b, x.tensor? r.c with
  | some d, some a, some b, some v =>
    let m := r.par 4 4
    let bwd := r.par 0 1 == 1
    let stats := x.tensor? (r.par 28 2)
    let rows := (List.range m).filterMap (fun i =>
      let n := x.owner m i
      if x.mine.contains n then some (x.softRow r a b stats n i) else none)
    let values := fun (q : SoftRow) =>
      if bwd then match x.tensor? (r.par 30 2), x.tensor? (r.par 32 2) with
        | some dO, some o => x.softDs r v dO o q
        | _, _ => []
      else x.softO r v q
    let es := rows.flatMap (fun q => (values q).zipIdx.map (fun e =>
      let inp := firstBad (x.softInputs r v q bwd e.2)
      let o := x.out r q.n d 0 (blockTile [e.2, q.i]).1 (blockTile [e.2, q.i]).2 [e.2, q.i, 0, 0] e.1 inp
      { o with quiet := q.none }))
    let st := if bwd then none else stats.map (fun t => (t, rows.flatMap (fun q =>
      [x.out r q.n t 0 (0, 0, 0) 0 [0, q.i, 0, 0] q.mx none, x.out r q.n t 0 (0, 0, 0) 0 [1, q.i, 0, 0] q.l none])))
    let ps := match (if bwd then x.tensor? (r.par 34 2) else none) with
      | some t => [(t, rows.flatMap (fun q => (q.pBits.zip q.p).zipIdx.map (fun e =>
          { needle := q.n, tile := (0, 0, 0), pos := 0, coord := [e.2, q.i, 0, 0], bits := e.1.1, sat := false, v := e.1.2, input := Option.none
            quiet := true : OutEl })))]
      | none => []
    x.fused r d es st ps
  | _, _, _, _ => {}

/-! ### A launch -/

/-- One operation. -/
def Ctx.exec (x : Ctx) (r : OpRec) : OpOut :=
  if r.op = 0x0001 then x.matmul r
  else if r.op = 0x0002 then x.conv r
  else if r.op = 0x0003 then x.map r
  else if r.op = 0x0004 then x.reduce r
  else if r.op = 0x0005 then x.scan r
  else if r.op = 0x0006 then x.norm r
  else if r.op = 0x0007 then x.softmax r
  else if r.op = 0x0010 then x.copy r
  else if r.op = 0x0011 then x.convert r
  else if r.op = 0x0012 then x.accumulate r
  else if r.op = 0x0013 then x.opt r
  else {}

/-- Store the bits of one element in the outermost overlay. -/
def View.putBits (v : View) (e : Nat × Nat × Nat) : View :=
  if e.2.1 < 8 then
    let old := (v.read (e.1 / 8)).toNat
    let sh := 2 ^ (e.1 % 8)
    v.write (e.1 / 8) (BitVec.ofNat 8 (old - old / sh % 2 ^ e.2.1 * sh + e.2.2 % 2 ^ e.2.1 * sh))
  else v.writeBytes (e.1 / 8) (le (e.2.1 / 8) e.2.2)

/-- The bits of one element in a view. -/
def View.getBits (v : View) (a w : Nat) : Nat :=
  if w < 8 then (v.read (a / 8)).toNat / 2 ^ (a % 8) % 2 ^ w else leVal ((elemBytes a w).map v.read)

/-- What a launch of one panel leaves: the staging, the unordered writes, the elements written, the ACCUMULATEs on them, flags and tiles. -/
structure Done where
  view : View
  wrote : List (Nat × Nat × Nat)
  els : List WroteEl
  adds : List AddEl
  flags : List FlagRec
  tiles : List TileRec

/-- Store what an operation writes into one tensor. -/
def Done.put (d : Done) (w : Tensor × List OutEl) : Done :=
  let t := w.1
  w.2.foldl (fun d e =>
    let a := t.bitAt e.coord
    { d with
      view := d.view.putBits (a, fmtBits t.format, e.bits)
      wrote := d.wrote ++ (elemBytes a (fmtBits t.format)).map (fun b => (b, e.needle, 0))
      els := d.els ++ [{ addr := a, width := fmtBits t.format, tensor := t.id, format := t.format
                         mag := if e.v.finite then some (ceil32 e.v) else none }] }) d

/-- The ACCUMULATEs on some elements take the place of those known of them. -/
def replaceAdds (old : List AddEl) (new : List (List AddEl)) : List AddEl :=
  let at0 := new.filterMap (fun l => l.head?.map (·.addr))
  old.filter (fun e => !at0.contains e.addr) ++ new.flatten

/-- One record: a MARK orders the earlier writes; another operation computes from the view before it and then writes. -/
def Ctx.run (x : Ctx) (d : Done) (r : OpRec) : Done :=
  if r.op = 0x0040 then
    let lvl := r.par 0 1 + 1
    { d with
      wrote := d.wrote.map (fun w => if x.mine.contains w.2.1 then (w.1, w.2.1, max w.2.2 lvl) else w)
      adds := d.adds.map (fun e => if x.mine.contains e.needle then { e with level := max e.level lvl } else e) }
  else
    let o := ({ x with view := d.view, wrote := d.wrote, adds := d.adds }).exec r
    let d1 := o.writes.foldl Done.put d
    { d1 with adds := replaceAdds d1.adds o.adds, flags := d1.flags ++ o.flags, tiles := d1.tiles ++ o.tiles }

/-- Every record of the image in order. -/
def Ctx.runAll (x : Ctx) (d : Done) : Done := (opRecs x.image).foldl x.run d

/-- Free values a launch may draw. -/
def launchDraws : Nat := 2 ^ 80

end Sys2Proof.Machine
end

