-- ==== Sys2Proof/Machine/Solver.lean ====
section
/-! DEFINITION. The numerics of the cable engines: the filled pattern and its partition, factorisation, solves, refinement, fixed-point
tree sweeps, position gradients, and one whole operation (09 R253, R257, R258, R265 to R280, R284 to R288). -/

namespace Sys2Proof.Machine

/-! ### Positions and the filled pattern (09 R253, R254, R265) -/

/-- Row and column of every position, in position order. -/
def Structure.pairs (x : Structure) : List (Nat × Nat) :=
  (List.range x.n).flatMap (fun j =>
    let a := x.colptr.getD j 0
    ((x.rowidx.drop a).take (x.colptr.getD (j + 1) 0 - a)).map (fun i => (i, j)))

/-- Matrix entries that a list of positions stands for; a symmetric position stands for its mirror image too. -/
def mirrored (kind : Nat) (p : (Nat × Nat) × Val) : List (Nat × Nat × Val) :=
  if kind = 1 ∧ p.1.1 ≠ p.1.2 then [(p.1.1, p.1.2, p.2), (p.1.2, p.1.1, p.2)] else [(p.1.1, p.1.2, p.2)]

/-- Every entry of the matrix with its value. -/
def Structure.matrix (x : Structure) (vs : List Dword) : List (Nat × Nat × Val) :=
  (x.pairs.zip (vs.map (fun v => fp64.decode v.toNat))).flatMap (mirrored x.kind)

/-- Columns of each row of the pattern before fill, ascending. -/
def Structure.rows0 (x : Structure) : List (List Nat) :=
  let es := x.pairs.flatMap (fun p => (mirrored x.kind (p, Val.zero)).map (fun e => (e.1, e.2.1)))
  (List.range x.n).map (fun i => (List.range x.n).filter (fun j => es.contains (i, j)))

/-- Eliminating unknown k fills every row below it that holds column k. -/
def fillStep (n : Nat) (rows : List (List Nat)) (k : Nat) : List (List Nat) :=
  let up := (rows.getD k []).filter (fun j => decide (k < j))
  rows.zipIdx.map (fun (p : List Nat × Nat) =>
    if k < p.2 ∧ p.1.contains k then (List.range n).filter (fun j => p.1.contains j || up.contains j) else p.1)

/-- Columns of each row after fill. -/
def Structure.rows (x : Structure) : List (List Nat) := (List.range x.n).foldl (fillStep x.n) x.rows0

/-- Rows below the diagonal of a column of the filled pattern. -/
def belowOf (rows : List (List Nat)) (k : Nat) : List Nat :=
  (List.range rows.length).filter (fun i => decide (k < i) && (rows.getD i []).contains k)

/-- Entries of the factor (09 R257). -/
def factorEntries (kind : Nat) (rows : List (List Nat)) : Nat :=
  if kind = 1 then (rows.zipIdx.map (fun (p : List Nat × Nat) => (p.1.filter (fun j => decide (j ≤ p.2))).length)).sum
  else (rows.map List.length).sum

/-- Fused multiply-adds that eliminating unknown k takes. -/
def fmasOf (kind : Nat) (rows : List (List Nat)) (k : Nat) : Nat :=
  let b := (belowOf rows k).length
  if kind = 1 then b * (b + 1) / 2 else b * ((rows.getD k []).filter (fun j => decide (k < j))).length

/-- Bytes the structure needs (09 R257). -/
def Structure.need (x : Structure) : Nat :=
  let c := if x.stepWritten then 3 else 2
  let n := 4096 + 4 * (x.n + 1) + 4 * x.nnz + c * 8 * x.nnz + c * 12 * factorEntries x.kind x.rows + (if x.fixedMode then 4 * x.n else 0)
  (n + 2047) / 2048 * 2048

/-! ### Supernodes and the partition (09 R286, R288) -/

/-- A supernode: its first and last column. -/
abbrev Super := Nat × Nat

/-- Column j joins the supernode before it: the rows of column j − 1 are j and then column j's (the usual chain). -/
def addColumn (rows : List (List Nat)) (acc : List Super) (j : Nat) : List Super :=
  match acc with
  | s :: ss => if decide (j - s.1 < 64) && belowOf rows (j - 1) == j :: belowOf rows j then (s.1, j) :: ss else (j, j) :: acc
  | [] => [(j, j)]

/-- The supernodes, ascending. -/
def superNodes (rows : List (List Nat)) : List Super := ((List.range rows.length).foldl (addColumn rows) []).reverse

/-- The supernode that holds a column. -/
def superOf (ss : List Super) (j : Nat) : Nat := (ss.findIdx? (fun s => decide (s.1 ≤ j) && decide (j ≤ s.2))).getD 0

/-- The parent of each supernode in the elimination forest. -/
def superParents (rows : List (List Nat)) (ss : List Super) : List (Option Nat) :=
  ss.map (fun s => (belowOf rows s.2).head?.map (superOf ss))

/-- Weights of the subtrees: parents stand after their children. -/
def subtreeWeights (kind : Nat) (rows : List (List Nat)) (ss : List Super) : List Nat :=
  let own := ss.map (fun s => ((List.range (s.2 + 1 - s.1)).map (fun i => fmasOf kind rows (s.1 + i))).sum)
  (superParents rows ss).zipIdx.foldl (fun w p => match p.1 with
    | some q => w.set q (w.getD q 0 + w.getD p.2 0)
    | none => w) own

/-- The least-loaded engine, ties to the lowest number. -/
def leastLoaded (loads : List (Nat × Nat)) : Nat :=
  match loads with
  | [] => 0
  | l :: ls => (ls.foldl (fun m e => if e.2 < m.2 then e else m) l).1

/-- How the structure is divided: the engine of each supernode given whole to one, none for the top. -/
structure Partition where
  supers : List Super
  owner : List (Option Nat)

/-- Insert a subtree root by weight, heaviest first, ties in ascending order. -/
def insertHeavy (w : List Nat) (r : Nat) : List Nat → List Nat
  | [] => [r]
  | x :: xs => if w.getD x 0 < w.getD r 0 then r :: x :: xs else x :: insertHeavy w r xs

/-- The engine of a supernode follows its ancestors up to a root. -/
def ownerOf (parents : List (Option Nat)) (roots : List (Nat × Nat)) : Nat → Nat → Option Nat
  | 0, _ => none
  | f + 1, s => match roots.lookup s with
    | some e => some e
    | none => (parents.getD s none).bind (ownerOf parents roots f)

/-- The partition over a mask. -/
def Structure.partition (x : Structure) : Partition :=
  let rows := x.rows
  let ss := superNodes rows
  let ps := superParents rows ss
  let w := subtreeWeights x.kind rows ss
  let total := ((List.range x.n).map (fmasOf x.kind rows)).sum
  let es := (List.range 8).filter x.mask.getLsbD
  let light := fun s => decide (2 * es.length * w.getD s 0 ≤ total)
  let roots := (List.range ss.length).filter (fun s => light s && (match ps.getD s none with
    | some p => !light p
    | none => true))
  let given := (roots.foldl (fun l r => insertHeavy w r l) []).foldl (fun (a : List (Nat × Nat) × List (Nat × Nat)) r =>
    let e := leastLoaded a.1
    (a.1.map (fun l => if l.1 = e then (e, l.2 + w.getD r 0) else l), a.2 ++ [(r, e)])) (es.map (fun e => (e, 0)), [])
  { supers := ss, owner := (List.range ss.length).map (fun s => ownerOf ps given.2 (ss.length + 1) s) }

/-- Columns that every engine shares. -/
def Partition.top (p : Partition) : List Nat :=
  ((p.supers.zip p.owner).filter (fun q => q.2.isNone)).flatMap (fun q => (List.range (q.1.2 + 1 - q.1.1)).map (· + q.1.1))

/-- The engine that holds an unknown's column: its subtree's, or the round-robin of the top's blocks of 64. -/
def Partition.engineOf (p : Partition) (es : List Nat) (j : Nat) : Nat :=
  match p.owner.getD (superOf p.supers j) none with
  | some e => e
  | none => es.getD ((p.top.idxOf j) / 64 % max es.length 1) 0

/-- Bytes of an engine's cache (01 R20). -/
def cacheBytes : Nat := 24 * 2 ^ 20

/-- One value copy and one factor copy fit the caches, an entry lying with the unknown that is eliminated first (09 R288). -/
def Structure.cached (x : Structure) : Bool :=
  let p := x.partition
  let es := (List.range 8).filter x.mask.getLsbD
  let fs := x.rows.zipIdx.flatMap (fun (q : List Nat × Nat) => (q.1.filter (fun j => x.kind != 1 || decide (j ≤ q.2))).map (fun j => min j q.2))
  es.all (fun e =>
    decide (8 * (x.pairs.filter (fun q => p.engineOf es (min q.1 q.2) == e)).length +
      12 * (fs.filter (fun j => p.engineOf es j == e)).length ≤ cacheBytes))

/-- Predicted core cycles of one factorisation (09 R287; the exchange is not given). -/
def Structure.predFactor (x : Structure) : Nat := Config.predictedFactor x.kind x.colptr x.rowidx x.mask

/-- Predicted core cycles of one solve. -/
def Structure.predSolve (x : Structure) : Nat := Config.predictedSolve x.kind x.colptr x.rowidx x.mask

/-- The structure report (09 R258). -/
def Structure.report (x : Structure) : List Byte :=
  let rows := x.rows
  let p := x.partition
  record 64 [(0, 4, 0x52535850), (4, 4, x.handle), (8, 8, x.need), (16, 8, factorEntries x.kind rows), (24, 4, p.supers.length),
    (28, 4, p.top.length), (32, 8, ((List.range x.n).map (fmasOf x.kind rows)).sum), (40, 8, x.predFactor), (48, 8, x.predSolve),
    (56, 1, x.mask.toNat), (57, 1, if x.cached then 1 else 0)]

/-! ### Factorisation (09 R265 to R268) -/

/-- a × b + c rounded once. -/
def fma64 (a b c : Val) : Val := rne64 ((a.mul b).add c)

/-- A factor while it is computed: its entries, the replaced pivots, and whether everything so far is finite. -/
structure Fac where
  es : List (Nat × Nat × Val)
  rep : List Nat
  ok : Bool

/-- An entry of the factor. -/
def facGet (es : List (Nat × Nat × Val)) (i j : Nat) : Option Val := (es.find? (fun e => e.1 == i && e.2.1 == j)).map (·.2.2)

/-- A value of the matrix; a filled entry starts at zero. -/
def matGet (a : List (Nat × Nat × Val)) (i j : Nat) : Val := (facGet a i j).getD Val.zero

/-- The largest magnitude of a list of finite values. -/
def maxAbs (vs : List Val) : Val := vs.foldl (fun m v => if m.lt v.abs then v.abs else m) Val.zero

/-- The norm that a pivot is held against (09 R267). -/
def pivotNorm (a : List (Nat × Nat × Val)) (j : Nat) : Val :=
  let r := maxAbs ((a.filter (·.1 == j)).map (·.2.2))
  if r.isZero then maxAbs (a.map (·.2.2)) else r

/-- Add an entry; a non-finite one, or a non-finite intermediate, fails the factorisation. -/
def Fac.put (f : Fac) (i j : Nat) (v : Val) (fine : Bool) : Fac :=
  { f with es := (i, j, v) :: f.es, ok := f.ok && fine && v.finite }

/-- A chain t := fma(−l, u, t) over pairs, and whether every step is finite. -/
def chain (start : Val) (ps : List (Val × Val)) : Val × Bool :=
  ps.foldl (fun t p => let v := fma64 p.1.negate p.2 t.1
                       (v, t.2 && v.finite)) (start, start.finite)

/-- The pairs l[i][k], u[k][j] for the k below a bound at which both stand. -/
def Fac.terms (f : Fac) (i j bound : Nat) : List (Val × Val) :=
  (List.range bound).filterMap (fun k => (facGet f.es i k).bind (fun l => (facGet f.es k j).map (fun u => (l, u))))

/-- The pairs l[i][k], w[j][k] of a symmetric structure. -/
def Fac.symTerms (f : Fac) (i j : Nat) : List (Val × Val) :=
  (List.range j).filterMap (fun k => (facGet f.es i k).bind (fun l => (facGet f.es j k).bind (fun lj =>
    (facGet f.es k k).map (fun d => (l, rne64 (d.mul lj))))))

/-- Put a pivot, replaced when it is too small. -/
def Fac.pivot (f : Fac) (tau : Int) (a : List (Nat × Nat × Val)) (j : Nat) (p : Val) (fine : Bool) : Fac :=
  let norm := pivotNorm a j
  let limit := norm.shift tau
  if fine && p.finite && (p.isZero || p.abs.lt limit) then
    let q := rne64 limit
    { (f.put j j (if p.neg && !p.isZero then q.negate else q) fine) with rep := f.rep ++ [j] }
  else f.put j j p fine

/-- One column; after a failure nothing more is computed. -/
def facColumn (kind : Nat) (tau : Int) (a : List (Nat × Nat × Val)) (rows : List (List Nat)) (f : Fac) (j : Nat) : Fac :=
  if !f.ok then f
  else
    let has := fun i => (rows.getD i []).contains j
    let f1 := if kind = 1 then f else ((List.range j).filter has).foldl (fun g i =>
      let t := chain (matGet a i j) (g.terms i j i)
      g.put i j t.1 t.2) f
    let t := chain (matGet a j j) (if kind = 1 then f1.symTerms j j else f1.terms j j j)
    let wOk := kind != 1 || (f1.symTerms j j).all (fun p => p.2.finite)
    let f2 := f1.pivot tau a j t.1 (t.2 && wOk)
    if !f2.ok then f2
    else
      let d := (facGet f2.es j j).getD Val.zero
      ((List.range rows.length).filter (fun i => decide (j < i) && has i)).foldl (fun g i =>
        let t := chain (matGet a i j) (if kind = 1 then g.symTerms i j else g.terms i j j)
        g.put i j (rne64 (t.1.div d)) t.2) f2

/-- The factorisation of values; failure is `ok = false`. -/
def Structure.factorise (x : Structure) (tau : Int) (vs : List Dword) : Fac :=
  let a := x.matrix vs
  if a.any (fun e => !e.2.2.finite) || a.all (fun e => e.2.2.isZero) then { es := [], rep := [], ok := false }
  else (List.range x.n).foldl (facColumn x.kind tau a x.rows) { es := [], rep := [], ok := true }

/-- The factor as the structure holds it, before the range analysis. -/
def Fac.factor (f : Fac) (gen : Nat) : Factor :=
  { entries := f.es.reverse.map (fun e => FEntry.mk e.1 e.2.1 (BitVec.ofNat 64 (fp64.round e.2.2).1)), perturbed := f.rep, ofGen := gen
    sweepPoints := [], entryPoints := [] }

/-! ### Solves (09 R270) -/

/-- A value of a factor. -/
def Factor.get? (f : Factor) (i j : Nat) : Option Val :=
  (f.entries.find? (fun e => e.row == i && e.col == j)).map (fun e => fp64.decode e.value.toNat)

/-- A factor's value on the diagonal. -/
def Factor.diag (f : Factor) (j : Nat) : Val := (f.get? j j).getD Val.zero

/-- One element of a sweep: a chain over the others that stand in it, then a division when there is one. -/
def sweepAt (coef : Nat → Nat → Option Val) (div : Nat → Option Val) (n : Nat) (x : List Val) (i : Nat) : List Val :=
  let t := (List.range n).foldl (fun t k => match coef i k with
    | some c => fma64 c.negate (x.getD k Val.zero) t
    | none => t) (x.getD i Val.zero)
  x.set i (match div i with
    | some d => rne64 (t.div d)
    | none => t)

/-- A sweep over the unknowns in an order. -/
def sweep (coef : Nat → Nat → Option Val) (div : Nat → Option Val) (n : Nat) (order : List Nat) (x : List Val) : List Val :=
  order.foldl (sweepAt coef div n) x

/-- Forward or transposed solve. -/
def Factor.solve (f : Factor) (kind n : Nat) (transposed : Bool) (b : List Val) : List Val :=
  let up := List.range n
  let down := up.reverse
  let low := fun i k => if k < i then f.get? i k else none
  let lowT := fun i k => if i < k then f.get? k i else none
  let upp := fun i k => if i < k then f.get? i k else none
  let uppT := fun i k => if k < i then f.get? k i else none
  let no := fun _ => (none : Option Val)
  let d := fun i => some (f.diag i)
  if kind = 1 then
    let z := sweep low no n up b
    sweep lowT no n down (z.zipIdx.map (fun p => rne64 (p.1.div (f.diag p.2))))
  else if transposed then sweep lowT no n down (sweep uppT d n up b)
  else sweep upp d n down (sweep low no n up b)

/-! ### Refinement (09 R271, R280) -/

/-- The infinity norm of a vector; NaN when an element is. -/
def infNorm (v : List Val) : Val := if v.contains .nan then .nan else v.foldl (fun m e => if m.lt e.abs then e.abs else m) Val.zero

/-- The residual b − A·x, each element exact and then rounded once. -/
def residual (a : List (Nat × Nat × Val)) (b x : List Val) : List Val :=
  b.zipIdx.map (fun p => rne64 ((a.filter (·.1 == p.2)).foldl (fun t e => t.sub (e.2.2.mul (x.getD e.2.1 Val.zero))) p.1))

/-- The largest row sum of magnitudes, rounded once. -/
def rowSumNorm (a : List (Nat × Nat × Val)) (n : Nat) : Val :=
  infNorm ((List.range n).map (fun i => rne64 (((a.filter (·.1 == i)).map (fun e => e.2.2.abs)).foldl Val.add Val.zero)))

/-- An iterate with what is measured of it. -/
structure Iterate where
  x : List Val
  omega : Val
  rnorm : Val
  deriving Repr

/-- Measure an iterate. -/
def measure (a : List (Nat × Nat × Val)) (normA : Val) (b x : List Val) : Iterate :=
  let rn := infNorm (residual a b x)
  let den := rne64 ((rne64 (normA.mul (infNorm x))).add (rne64 (infNorm b)))
  { x := x, omega := if den.isZero then Val.zero else rne64 (rn.div den), rnorm := rn }

/-- What a refined solve gives: the iterate kept, the steps taken, the deadline tests left, and whether the deadline cut it. -/
structure Refined where
  it : Iterate
  steps : Nat
  tests : Option Nat
  cut : Bool

/-- A test of the deadline: it passes while tests are left; none stands for no deadline reached. -/
def passes (tests : Option Nat) : Bool := tests != some 0

/-- One test less. -/
def useTest (tests : Option Nat) : Option Nat := tests.map (· - 1)

/-- The loop of R271: at most `fuel` further steps. -/
def refineLoop (a : List (Nat × Nat × Val)) (normA : Val) (b : List Val) (solve : List Val → List Val) :
    Nat → Nat → Option Iterate → Iterate → Option Nat → Refined
  | fuel, steps, prev, it, tests =>
    let fine := it.omega.finite && !(Val.lt (.num false 1 (-50) false) it.omega)
    if !it.omega.finite || fine then { it := it, steps := steps, tests := tests, cut := false }
    else match fuel with
      | 0 => { it := it, steps := steps, tests := tests, cut := false }
      | f + 1 =>
        let worse := match prev with
          | some p => (p.omega.shift (-1)).lt it.omega
          | none => false
        if worse then
          let keep := match prev with
            | some p => if it.omega.lt p.omega then it else p
            | none => it
          { it := keep, steps := steps, tests := tests, cut := false }
        else if !passes tests then { it := it, steps := steps, tests := tests, cut := true }
        else
          let d := solve (residual a b it.x)
          let x := (it.x.zip d).map (fun p => rne64 (p.1.add p.2))
          refineLoop a normA b solve f (steps + 1) (some it) (measure a normA b x) (useTest tests)

/-- A first iterate, refined under a limit of steps. -/
def refined (a : List (Nat × Nat × Val)) (n limit : Nat) (b first : List Val) (solve : List Val → List Val) (tests : Option Nat) : Refined :=
  let na := rowSumNorm a n
  refineLoop a na b solve limit 0 none (measure a na b first) tests

/-! ### Fixed-point tree sweeps (09 R272 to R275) -/

/-- ceil(log2 v) of a positive exact value. -/
def ceilLog2 (v : Val) : Int :=
  match v with
  | .num _ m e st => (Nat.log2 m : Int) + e + (if 2 ^ Nat.log2 m = m ∧ !st then 0 else 1)
  | _ => 0

/-- A positive value rounded to binary64 toward +Inf. -/
def ceil64 (v : Val) : Val :=
  match v with
  | .num neg m e st =>
    if m = 0 then v
    else
      let q := fp64.quantum m e
      .num neg (gridCeil m e q st) q false
  | w => w

/-- Y_i, ascending: the bound of what the forward sweep can reach. -/
def sweepBounds (f : Factor) (ranges : List (Int × Int)) : List Val :=
  ranges.zipIdx.foldl (fun (ys : List Val) (p : (Int × Int) × Nat) =>
    ys ++ [(List.range p.2).foldl (fun t c => match f.get? p.2 c with
      | some l => ceil64 (t.add (ceil64 (l.abs.mul (ys.getD c Val.zero))))
      | none => t) (.num false 1 (p.1.2 + 1) false)]) []

/-- The binary point of a magnitude: 62 − ceil(log2 |v|), 62 for zero. -/
def pointOf (v : Val) : Int := if v.isZero then 62 else 62 - ceilLog2 v.abs

/-- The range analysis of a factor, whose points are held with it: f_y of every unknown, and the point of every multiplier and u entry, a replaced
pivot's from its replacement (09 R273, R290). -/
def Factor.analysed (f : Factor) (fixedMode : Bool) (ranges : List (Int × Int)) : Factor :=
  if fixedMode then
    { f with sweepPoints := (sweepBounds f ranges).map pointOf, entryPoints := f.entries.map (fun e => pointOf (fp64.decode e.value.toNat)) }
  else f

/-- An exact value rounded to an integer at a binary point; none when it does not fit 63 bits. -/
def toFixed (v : Val) (point : Int) : Option Int :=
  match v with
  | .num neg m e st =>
    let n := gridNearest m (e + point) 0 st
    if n < 2 ^ 63 then some (if neg then -(n : Int) else n) else none
  | _ => none

/-- The value of an integer at a binary point. -/
def fromFixed (i point : Int) : Val := .scaled i (-point)

/-- The points of the solution and the right-hand side. -/
def xPoint (ranges : List (Int × Int)) (i : Nat) : Int := 62 - (ranges.getD i (0, 0)).1
def bPoint (ranges : List (Int × Int)) (i : Nat) : Int := 62 - (ranges.getD i (0, 0)).2

/-- The forward sweep L⁻¹ at the points that the factor holds: the values so far, or the unknown that saturated. -/
def fixedForward (f : Factor) (ranges : List (Int × Int)) : List (Val × Nat) → List Val → Except Nat (List Val)
  | [], acc => .ok acc
  | (b, i) :: bs, acc =>
    let fy := f.sweepPoints.getD i 62
    match toFixed b (bPoint ranges i) with
    | none => .error i
    | some bi =>
      let t := (List.range i).foldl (fun t c => match f.get? i c with
        | some l => t.sub (l.mul (acc.getD c Val.zero))
        | none => t) (fromFixed bi (bPoint ranges i))
      match toFixed t fy with
      | none => .error i
      | some y => fixedForward f ranges bs (acc ++ [fromFixed y fy])

/-- The backward sweep U⁻¹ from the last unknown down. -/
def fixedBackward (f : Factor) (ranges : List (Int × Int)) (n : Nat) (y : List Val) : Nat → List Val → Except Nat (List Val)
  | 0, x => .ok x
  | i + 1, x =>
    let t := (List.range n).foldl (fun t p => match (if i < p then f.get? i p else none) with
      | some u => t.sub (u.mul (x.getD (p - i - 1) Val.zero))
      | none => t) (y.getD i Val.zero)
    match toFixed (t.div (f.diag i)) (xPoint ranges i) with
    | none => .error i
    | some v => fixedBackward f ranges n y i (fromFixed v (xPoint ranges i) :: x)

/-- A fixed sweep of a right-hand side. -/
def fixedSweep (f : Factor) (ranges : List (Int × Int)) (n : Nat) (b : List Val) : Except Nat (List Val) :=
  match fixedForward f ranges b.zipIdx [] with
  | .error i => .error i
  | .ok y => fixedBackward f ranges n y n []

/-! ### One operation (09 R263, R276, R277, R280, R284, R285) -/

/-- What an operation asks for. -/
structure SolveReq where
  handle : Nat
  phases : Nat
  flags : Nat
  limit : Nat
  deltas : List (Int × Dword)
  b : List Val
  x : List Val
  g : List Val
  wantA : Bool
  keepX : List Val → List Val
  start : Nat
  stop : Nat
  deadline : Option Nat
  cutoff : Bool
  tests : Option Nat
  spent : Nat

/-- What it gives: the version after it, whether a factor was computed, the outputs (none where nothing is written), and the record
with its conditions. -/
structure SolveRes where
  version : SVersion
  made : Bool
  x : Option (List Val)
  lam : Option (List Val)
  gradA : Option (List Val)
  codes : List Nat
  bytes : List Byte

/-- The delta phase: the values, the entries applied, and whether a position was skipped. -/
def deltaPhase (nnz : Nat) (vs : List Dword) (ds : List (Int × Dword)) : List Dword × Nat × Bool :=
  ds.foldl (fun (r : List Dword × Nat × Bool) (d : Int × Dword) =>
    if 0 ≤ d.1 ∧ d.1 < (nnz : Int) then (r.1.set d.1.toNat d.2, r.2.1 + 1, r.2.2) else (r.1, r.2.1, true)) (vs, 0, false)

/-- The gradient of every position. -/
def Structure.gradients (x : Structure) (lam xs : List Val) : List Val :=
  let l := fun i => lam.getD i Val.zero
  let v := fun j => xs.getD j Val.zero
  x.pairs.map (fun p =>
    if x.kind = 1 ∧ p.1 ≠ p.2 then rne64 (((l p.1).mul (v p.2)).add ((l p.2).mul (v p.1))).negate
    else rne64 (((l p.1).negate).mul (v p.2)))

/-- The bits of a binary64 value. -/
def bits64 (v : Val) : Nat := (fp64.round v).1

/-- How the factor phase ends: the version, the replaced pivots of the attempt, and whether it failed, was cut, or made a factor. -/
structure FacEnd where
  version : SVersion
  rep : Nat
  failed : Bool
  cut : Bool
  made : Bool

/-- The factor phase. -/
def Structure.facPhase (x : Structure) (tau : Int) (q : SolveReq) (v : SVersion) : FacEnd :=
  if !bitOf q.phases 1 then { version := v, rep := 0, failed := false, cut := false, made := false }
  else
    let f := x.factorise tau v.values
    if q.cutoff then { version := v, rep := min q.spent f.rep.length, failed := false, cut := true, made := false }
    else if f.ok then
      { version := { v with factor := some ((f.factor v.valueGen).analysed x.fixedMode x.ranges) }, rep := f.rep.length, failed := false, cut := false, made := true }
    else { version := v, rep := f.rep.length, failed := true, cut := false, made := false }

/-- How a solve phase ends. -/
structure PhaseEnd where
  out : Option Refined
  noFactor : Bool
  late : Bool
  fixed : Bool
  saturated : Option Nat

/-- A solve phase with a factor: first the iterate, by a fixed sweep where it is asked for, then refinement, also with a previous factor that a
cut-off leaves in use (09 R271, R280). -/
def Structure.solvePhase (x : Structure) (q : SolveReq) (v : SVersion) (abandoned transposed : Bool) (rhs : List Val) (tests : Option Nat) : PhaseEnd :=
  match v.factor with
  | none => { out := none, noFactor := true, late := false, fixed := false, saturated := none }
  | some f =>
    if !passes tests then { out := none, noFactor := false, late := true, fixed := false, saturated := none }
    else
      let a := (x.matrix v.values).map (fun e => if transposed then (e.2.1, e.1, e.2.2) else e)
      let go := f.solve x.kind x.n transposed
      let limit := if f.perturbed ≠ [] ∨ f.ofGen < v.valueGen ∨ bitOf q.flags 1 ∨ abandoned then q.limit else 0
      let run := fun first => some (refined a x.n limit rhs first go (useTest tests))
      let plain := go (rhs.map rne64)
      if bitOf q.flags 0 && !transposed then
        match fixedSweep f x.ranges x.n rhs with
        | .ok y => { out := run y, noFactor := false, late := false, fixed := true, saturated := none }
        | .error i => { out := run plain, noFactor := false, late := false, fixed := true, saturated := some i }
      else { out := run plain, noFactor := false, late := false, fixed := false, saturated := none }

/-- A vector of canonical NaN. -/
def nans (n : Nat) : List Val := List.replicate n .nan

/-- The tests left after a phase. -/
def PhaseEnd.left (p : PhaseEnd) (tests : Option Nat) : Option Nat := (p.out.map (·.tests)).getD tests

/-- A whole operation on a version of a structure. -/
def Structure.operate (x : Structure) (tau : Int) (q : SolveReq) (v0 : SVersion) (factorGen : Nat) : SolveRes :=
  let d := if bitOf q.phases 0 then deltaPhase x.nnz v0.values q.deltas else (v0.values, 0, false)
  let v1 := { v0 with values := d.1, valueGen := if d.2.1 = 0 then v0.valueGen else v0.valueGen + 1 }
  let fe := x.facPhase tau q v1
  let v := fe.version
  let fwd := bitOf q.phases 2
  let adj := bitOf q.phases 3
  let ps := x.solvePhase q v fe.cut false q.b q.tests
  let t1 := if fwd then ps.left q.tests else q.tests
  let xOut := if fwd then some (((ps.out.map (·.it.x))).getD (nans x.n)) else none
  let xUsed := match xOut with
    | some y => q.keepX y
    | none => q.x
  let pa := x.solvePhase q v fe.cut true q.g t1
  let lam := if adj then some (((pa.out.map (·.it.x))).getD (nans x.n)) else none
  let ga := if adj && q.wantA then some (match pa.out with
    | some r => x.gradients r.it.x xUsed
    | none => nans x.nnz) else none
  let bad := fun (o : Option (List Val)) => (o.getD []).any (fun e => !e.finite)
  let nonFinite := bad xOut || bad lam || bad ga
  let noSol := (fwd && ps.noFactor) || (adj && pa.noFactor)
  let cut := fun (on : Bool) (p : PhaseEnd) => on && (p.late || (p.out.map (·.cut)).getD false)
  let pert := (v.factor.map (·.perturbed)).getD []
  let ran := (fwd && ps.out.isSome) || (adj && pa.out.isSome)
  let stale := (v.factor.map (fun f => decide (f.ofGen < v.valueGen))).getD false
  let codes := (if fe.cut || cut fwd ps || cut adj pa then [stSolveDeadline] else []) ++ (if fe.failed || noSol then [stFactorFailed] else []) ++
    (if fwd && ps.saturated.isSome then [stRangeSaturated] else []) ++ (if fe.rep ≠ 0 ∨ pert ≠ [] then [stPivotPerturbed] else []) ++
    (if nonFinite then [stFlagged] else []) ++ [stDone]
  let steps := fun (on : Bool) (p : PhaseEnd) => if on then (p.out.map (·.steps)).getD 0 else 0
  let om := fun (on : Bool) (p : PhaseEnd) => if on then (p.out.map (fun r => bits64 r.it.omega)).getD 0 else 0
  let flags := [stale, (fe.failed || fe.cut) && v.factor.isSome && ran, fwd && ps.fixed, fwd && ps.saturated.isSome, noSol, fe.cut, d.2.2, nonFinite]
  let done := [bitOf q.phases 0, bitOf q.phases 1 && !fe.cut, fwd && ps.out.isSome, adj && pa.out.isSome]
  let bitsNat := fun (l : List Bool) => (l.zipIdx.map (fun p => if p.1 then 2 ^ p.2 else 0)).sum
  { version := v, made := fe.made, x := xOut, lam := lam, gradA := ga, codes := codes
    bytes := record 128 ([(0, 4, 0x56535850), (4, 2, primaryStatus codes), (8, 4, secondaryMask codes), (12, 4, q.handle), (16, 1, q.phases),
      (17, 1, bitsNat done), (18, 1, bitsNat flags), (19, 1, steps fwd ps + 16 * steps adj pa), (20, 4, pert.length),
      (24, 8, factorGen + (if fe.made then 1 else 0)), (32, 8, om fwd ps), (40, 8, om adj pa),
      (48, 8, if fwd then (ps.out.map (fun r => bits64 r.it.rnorm)).getD 0 else 0),
      (56, 4, if fwd then ps.saturated.getD 0xFFFFFFFF else 0xFFFFFFFF), (60, 4, d.2.1), (64, 8, q.start), (72, 8, q.stop),
      (80, 8, q.deadline.getD counterMax), (88, 4, fe.rep)] ++
      (List.range 9).map (fun i => (92 + 4 * i, 4, pert.getD i 0xFFFFFFFF))) }

end Sys2Proof.Machine
end

