-- ==== Sys2Proof/Machine/Coll.lean ====
section
/-! DEFINITION. Collectives: chunks and shards, the parts that a member sends and expects, the words of their frames, and what a
COLLECTIVE record writes (11 R315 to R333). -/

namespace Sys2Proof.Machine

/-! ### Chunks, shards, neighbours (11 R319, R323) -/

/-- Chunk c of p of a range. -/
def chunk (r : Nat × Nat) (p c : Nat) : Nat × Nat :=
  let len := r.2 - r.1
  let L := (len + p - 1) / max p 1
  (r.1 + min (c * L) len, r.1 + min ((c + 1) * L) len)

/-- The + half or the − half of a range. -/
def halfOf (r : Nat × Nat) (minus : Bool) : Nat × Nat :=
  let m := r.1 + (r.2 - r.1 + 1) / 2
  if minus then (m, r.2) else (r.1, m)

/-- An extent and a coordinate of this member. -/
def Skein.ext (w : Skein) (d : Nat) : Nat := max (w.extents.getD d 1) 1
def Skein.coord (w : Skein) (d : Nat) : Nat := w.coords.getD d 0

/-- The range left to the member in a torus after d dimensions, of n elements. -/
def Skein.range (w : Skein) (n : Nat) : Nat → Nat × Nat
  | 0 => (0, n)
  | d + 1 => chunk (w.range n d) (w.ext d) (w.coord d)

/-- The member's shard of n elements. -/
def Skein.shard (w : Skein) (n : Nat) : Nat × Nat :=
  if w.topology = 2 then chunk (0, n) w.members w.device.toNat else w.range n w.dims

/-- The neighbour in a direction of the torus. -/
def Skein.neighbour (w : Skein) (d : Nat) (minus : Bool) : BitVec 16 :=
  let a := w.ext d
  let x := w.coords.set d ((w.coord d + (if minus then a - 1 else 1)) % a)
  BitVec.ofNat 16 (x.getD 0 0 + w.ext 0 * (x.getD 1 0 + w.ext 1 * (x.getD 2 0 + w.ext 2 * x.getD 3 0)))

/-! ### A record with all it works on -/

/-- A COLLECTIVE record of a course on this member. -/
structure Coll where
  x : Ctx
  c : Course
  r : OpRec
  net : Skein
  index : Nat
  exact : Bool
  src : Option Tensor
  dst : Option Tensor
  data : SrcData
  forerunner : Bool
  peer : BitVec 16

/-- Fields of the record (11 R316). -/
def Coll.kind (k : Coll) : Nat := k.r.par 0 1
def Coll.scatter (k : Coll) : Bool := k.kind == 0 && bitOf (k.r.par 1 1) 0
def Coll.fp8 (k : Coll) : Bool := k.kind == 1 && bitOf (k.r.par 1 1) 1
def Coll.receives (k : Coll) : Bool := bitOf (k.r.par 1 1) 2
def Coll.tag (k : Coll) : Nat := if k.kind = 3 then k.r.par 8 2 else k.r.par 2 2
def Coll.sumShift (k : Coll) : Int := signed 16 (k.r.par 4 2)
def Coll.resultShift (k : Coll) : Int := signed 8 (k.r.par 6 1)
def Coll.runs (k : Coll) : List PermRun := permRuns (imgConst k.x.image) (k.r.par 12 4)

/-- Elements of a tensor, and the coordinates of a flat index, dimension 0 fastest. -/
def Tensor.count (t : Tensor) : Nat := t.ext 0 * t.ext 1 * t.ext 2 * t.ext 3
def Tensor.coordAt (t : Tensor) (i : Nat) : List Nat :=
  [i % max (t.ext 0) 1, i / max (t.ext 0) 1 % max (t.ext 1) 1, i / max (t.ext 0 * t.ext 1) 1 % max (t.ext 2) 1,
   i / max (t.ext 0 * t.ext 1 * t.ext 2) 1]

/-- Elements of the whole sequence; bytes for TRANSFER. -/
def Coll.n (k : Coll) : Nat :=
  if k.kind = 0 then (k.src.map Tensor.count).getD 0
  else if k.kind = 3 then ((if k.receives then k.dst else k.src).map (·.length)).getD 0
  else (k.dst.map Tensor.count).getD 0

def Coll.shard (k : Coll) : Nat × Nat := k.net.shard k.n
def Coll.range (k : Coll) (d : Nat) : Nat × Nat := k.net.range k.n d

/-- Bits of an element in a gather phase or a permutation. -/
def Coll.width (k : Coll) : Nat := if k.kind = 3 then 8 else (k.dst.map (fun t => fmtBits t.format)).getD 16

/-- Bits of a word on the wire, by stage. -/
def Coll.wireBits (k : Coll) (stage : Nat) : Nat :=
  if k.kind = 0 ∧ stage < 8 then (if k.exact then 64 else 32) else k.width

/-- Elements per frame, by stage (11 R320). -/
def Coll.per (k : Coll) (stage : Nat) : Nat := if k.fp8 then 216 else 1792 / max (k.wireBits stage) 1

/-! ### Parts (11 R320, R323, R324, R330) -/

/-- A part of a stream that the member sends to or expects from another: its stage, its number, its elements, the index of its first
frame, and the receiver of a part that is sent. -/
structure Part where
  stage : Nat
  num : Nat
  lo : Nat
  hi : Nat
  base : Nat
  dest : BitVec 16

/-- Frames of a part. -/
def Coll.frames (k : Coll) (p : Part) : Nat := (p.hi - p.lo + k.per p.stage - 1) / k.per p.stage

/-- The chunk that a ring step sends or expects, away from the member's own coordinate. -/
def ringChunk (a x t : Nat) (gather send minus : Bool) : Nat :=
  let back := (if gather then 0 else 1) + (if send then 0 else 1) + t
  if minus then (x + back) % a else (x + 2 * a - back % a) % a

/-- The parts of one phase of a torus, both directions. -/
def Coll.ring (k : Coll) (d : Nat) (gather send : Bool) : List Part :=
  let a := k.net.ext d
  [false, true].flatMap (fun minus => (List.range (a - 1)).map (fun t =>
    let h := halfOf (chunk (k.range d) a (ringChunk a (k.net.coord d) t gather send minus)) minus
    { stage := (if gather then 8 else 0) + d, num := (if minus then 32 else 0) + t, lo := h.1, hi := h.2, base := 0, dest := k.net.neighbour d minus }))

/-- The other members of an all-to-all group. -/
def Coll.others (k : Coll) : List Nat := (List.range k.net.members).filter (· != k.net.device.toNat)

/-- The parts of one phase of an all-to-all group. -/
def Coll.direct (k : Coll) (gather send : Bool) : List Part :=
  k.others.map (fun m =>
    let h := chunk (0, k.n) k.net.members (if gather == send then k.net.device.toNat else m)
    { stage := if gather then 8 else 0, num := if send then k.net.device.toNat else m, lo := h.1, hi := h.2, base := 0, dest := BitVec.ofNat 16 m })

/-- The parts of a phase pair. -/
def Coll.phases (k : Coll) (gather send : Bool) : List Part :=
  if k.net.topology = 2 then k.direct gather send
  else (if gather then (List.range k.net.dims).reverse else List.range k.net.dims).flatMap (fun d => k.ring d gather send)

/-- Frames of a run, and the runs into a member from others before the i-th. -/
def Coll.runFrames (k : Coll) (q : PermRun) : Nat := (q.length + k.per 4 - 1) / k.per 4
def Coll.runBase (k : Coll) (i dst : Nat) : Nat := (((k.runs.take i).filter (fun q => q.dst == dst && q.src != dst)).map k.runFrames).sum

/-- The parts of a permutation: one per run between different members. -/
def Coll.permParts (k : Coll) (send : Bool) : List Part :=
  let me := k.net.device.toNat
  (k.runs.zipIdx.filter (fun (q : PermRun × Nat) => q.1.src != q.1.dst && (if send then q.1.src == me else q.1.dst == me))).map
    (fun (q : PermRun × Nat) =>
      let lo := if send then q.1.srcIndex else q.1.dstIndex
      { stage := 4, num := 0, lo := lo, hi := lo + q.1.length, base := k.runBase q.2 q.1.dst, dest := BitVec.ofNat 16 q.1.dst })

/-- The parts that the record sends, or those that it expects. -/
def Coll.parts (k : Coll) (send : Bool) : List Part :=
  if k.kind = 0 then k.phases false send ++ (if k.scatter then [] else k.phases true send)
  else if k.kind = 1 then k.phases true send
  else if k.kind = 2 then k.permParts send
  else if k.receives == send then []
  else [{ stage := 15, num := 0, lo := 0, hi := k.n, base := 0, dest := k.peer }]

/-- The stream and the offset of a frame; one from a forerunner carries the transfer number alone (11 R320, R331). -/
def Coll.streamOf (k : Coll) (stage : Nat) : Word :=
  BitVec.ofNat 32 (if k.forerunner && k.receives then k.tag
    else (if k.forerunner then 0 else k.index * 0x100000) + stage * 0x10000 + k.tag)
def Coll.offsetOf (k : Coll) (num i : Nat) : Word :=
  BitVec.ofNat 32 (if k.kind = 3 then i else num * 0x4000000 + k.c.attempt % 4 * 0x1000000 + i)

/-- The frames of a part: stream, offset, index. -/
def Coll.keys (k : Coll) (p : Part) : List (Word × Word × Nat) :=
  (List.range (k.frames p)).map (fun i => (k.streamOf p.stage, k.offsetOf p.num (p.base + i), p.base + i))

/-! ### Words -/

/-- The payload of a frame that has arrived. -/
def Coll.arrived (k : Coll) (stage num i : Nat) : Option (List Byte) :=
  (k.c.rx.find? (fun f => f.1 == k.streamOf stage && f.2.1 == k.offsetOf num i)).map (·.2.2)

/-- The bits of word j of a payload packed at a width (03 R96). -/
def wordAt (w : Nat) (p : List Byte) (j : Nat) : Nat := leVal p / 2 ^ (w * j) % 2 ^ w

/-- Words packed into a payload, zero-padded. -/
def packWords (w : Nat) (ws : List Nat) : List Byte := le 224 (ws.foldr (fun v acc => v % 2 ^ w + 2 ^ w * acc) 0)

/-- An E4M3 code under an E8 code, widened to BF16 (11 R329). -/
def widenFp8 (e code : Nat) : Nat := (bf16.round ((e4m3.decode code).shift ((e : Int) - 127))).1

/-- The E8 code of a frame of BF16 elements (11 R329). -/
def fp8Code (bits : List Nat) : Nat :=
  let m := bits.foldl (fun m b => let v := (bf16.decode b).abs; if v.finite && m.lt v then v else m) Val.zero
  if m.isZero then 127 else ((List.range 255).find? (fun (e : Nat) => !(Val.lt (.num false 448 ((e : Int) - 127) false) m))).getD 254

/-- A BF16 element narrowed under a code. -/
def narrowFp8 (e b : Nat) : Nat :=
  let v := bf16.decode b
  if v.finite then (e4m3.round (v.shift (127 - (e : Int)))).1 else 0x7F

/-- Element i of a part that is expected, as it arrived. -/
def Coll.rxWord (k : Coll) (p : Part) (i : Nat) : Option Nat :=
  let e := k.per p.stage
  (k.arrived p.stage p.num (p.base + (i - p.lo) / e)).map (fun b =>
    if k.fp8 then widenFp8 ((b.getD 0 0).toNat) ((b.getD (8 + (i - p.lo) % e) 0).toNat) else wordAt (k.wireBits p.stage) b ((i - p.lo) % e))

/-! ### Sums (11 R323 to R326) -/

/-- The mark of a non-finite contribution in exact sums, and the bound of a finite one. -/
def exactMark : Nat := 0x8000000000000000
def exactMax : Int := 2 ^ 47 - 1

/-- A decoded contribution as an exact word, and whether it saturated. -/
def exactWord (v : Val) (shift : Int) : Nat × Bool :=
  match v.shift shift with
  | .num neg m e st =>
    let q : Int := gridNearest m e 0 st
    let i := min q exactMax
    (unsigned 64 (if neg then -i else i), decide (exactMax < q))
  | _ => (exactMark, false)

/-- The contribution of this member to element i, decoded exactly: the input flush is that of arrays and vector units (06 R187; 11 R325, R326). -/
def Coll.own (k : Coll) (i : Nat) : Val :=
  exactElem ((k.src.map (·.format)).getD 0x05) (k.data.bits.getD i 0) k.data.scale

/-- The contribution as a word of the wire. -/
def Coll.contribution (k : Coll) (i : Nat) : Nat := if k.exact then (exactWord (k.own i) k.sumShift).1 else (fp32.round (k.own i)).1

/-- One addition of partial sums. -/
def Coll.addWords (k : Coll) (a b : Nat) : Nat :=
  if k.exact then (if a = exactMark ∨ b = exactMark then exactMark else (a + b) % 2 ^ 64)
  else (fp32.round ((fp32.decode a).add (fp32.decode b))).1

/-- An index lies in the − half of a range. -/
def inMinus (r : Nat × Nat) (i : Nat) : Bool := decide ((halfOf r true).1 ≤ i)

/-- The ring sum along the dimensions before d, at this member, of an element of the range left to it. -/
def Coll.partialSum (k : Coll) : Nat → Nat → Option Nat
  | 0, i => some (k.contribution i)
  | d + 1, i =>
    let r := k.range (d + 1)
    let minus := inMinus r i
    let h := halfOf r minus
    let last : Part := { stage := d, num := (if minus then 32 else 0) + (k.net.ext d - 2), lo := h.1, hi := h.2, base := 0, dest := 0 }
    match k.rxWord last i, k.partialSum d i with
    | some s, some v => some (k.addWords s v)
    | _, _ => none

/-- The sum of an all-to-all group at the owner: in ascending device number from device 0's. -/
def Coll.directSum (k : Coll) (i : Nat) : Option Nat :=
  let h := k.shard
  let word := fun m => if m = k.net.device.toNat then some (k.contribution i)
    else k.rxWord { stage := 0, num := m, lo := h.1, hi := h.2, base := 0, dest := 0 } i
  ((List.range k.net.members).drop 1).foldl (fun s m => s.bind (fun a => (word m).map (k.addWords a))) (word 0)

/-- The final sum of an element that this member owns. -/
def Coll.sum (k : Coll) (i : Nat) : Option Nat := if k.net.topology = 2 then k.directSum i else k.partialSum k.net.dims i

/-- The exact result of a final sum (11 R328). -/
def Coll.resultVal (k : Coll) (s : Nat) : Val :=
  if k.exact then (if s = exactMark then .nan else .scaled (signed 64 s) (k.resultShift - k.sumShift)) else (fp32.decode s).shift k.resultShift

/-- Where an element stands in dst. -/
def Coll.dstIndex (k : Coll) (i : Nat) : Nat := if k.scatter then i - k.shard.1 else i

/-- The owner's rounding of an element of its shard: the bits, the saturation and the exact value. -/
def Coll.rounded (k : Coll) (i : Nat) : Option (Nat × Bool × Val) :=
  match k.dst with
  | none => none
  | some t => (k.sum i).map (fun s => k.x.write k.r 0 t (0x00030000 + k.tag) (t.coordAt (k.dstIndex i)) (k.resultVal s))

/-! ### Gathering (11 R323, R324, R329) -/

/-- The bits of an element of the own shard as the gather phases start from them. -/
def Coll.start (k : Coll) (i : Nat) : Option Nat :=
  if k.kind = 0 then (k.rounded i).map (·.1) else some (k.data.bits.getD (i - k.shard.1) 0)

/-- The elements that share a frame with element i in a range. -/
def Coll.frameOf (k : Coll) (r : Nat × Nat) (stage i : Nat) : List Nat :=
  let lo := r.1 + (i - r.1) / k.per stage * k.per stage
  (List.range (min (r.2 - lo) (k.per stage))).map (lo + ·)

/-- All of a list, or nothing. -/
def allSome {α : Type} : List (Option α) → Option (List α)
  | [] => some []
  | a :: as => match a, allSome as with
    | some x, some xs => some (x :: xs)
    | _, _ => none

/-- The bits of an element of a range, held by its sender, as every receiver of a phase writes them: with fp8_wire, as it widens them.  The
sender writes the same bits (11 R329). -/
def Coll.widened (k : Coll) (r : Nat × Nat) (stage : Nat) (hold : Nat → Option Nat) (i : Nat) : Option Nat :=
  if k.fp8 then
    match allSome ((k.frameOf r stage i).map hold), hold i with
    | some bits, some b => let e := fp8Code bits
                           some (widenFp8 e (narrowFp8 e b))
    | _, _ => none
  else hold i

/-- The bits of an element of the range left after the dimensions before `dims - q`, once q gather phases have run.  In each phase the
sender of a chunk encodes it anew and keeps what its receivers widen, so that all members hold the same (11 R323, R329; log 72). -/
def Coll.held (k : Coll) : Nat → Nat → Option Nat
  | 0, i => k.start i
  | q + 1, i =>
    let d := k.net.dims - 1 - q
    let a := k.net.ext d
    let x := k.net.coord d
    let r := k.range d
    let c := ((List.range a).find? (fun c => decide (i < (chunk r a c).2))).getD x
    let minus := inMinus (chunk r a c) i
    let h := halfOf (chunk r a c) minus
    if c = x then k.widened h (8 + d) (k.held q) i
    else
      let t := if minus then (c + a - x - 1) % a else (x + a - 1 - c) % a
      k.rxWord { stage := 8 + d, num := (if minus then 32 else 0) + t, lo := h.1, hi := h.2, base := 0, dest := 0 } i

/-- The bits of an element of the whole sequence at this member. -/
def Coll.gathered (k : Coll) (i : Nat) : Option Nat :=
  if k.net.topology = 2 then
    let c := ((List.range k.net.members).find? (fun c => decide (i < (chunk (0, k.n) k.net.members c).2))).getD 0
    let h := chunk (0, k.n) k.net.members c
    if c = k.net.device.toNat then k.widened h 8 k.start i else k.rxWord { stage := 8, num := c, lo := h.1, hi := h.2, base := 0, dest := 0 } i
  else k.held k.net.dims i

/-! ### Payloads -/

/-- Element i of a part that is sent, once it is known. -/
def Coll.txWord (k : Coll) (p : Part) (i : Nat) : Option Nat :=
  if k.kind = 2 ∨ k.kind = 3 then some (k.data.bits.getD i 0)
  else if p.stage < 8 then
    if k.net.topology = 2 then some (k.contribution i)
    else if p.num % 32 = 0 then k.partialSum p.stage i
    else match k.rxWord { p with num := p.num - 1 } i, k.partialSum p.stage i with
      | some s, some v => some (k.addWords s v)
      | _, _ => none
  else if k.net.topology = 2 ∨ p.stage = 7 + k.net.dims then k.start i
  else k.held (k.net.dims - 1 - (p.stage - 8)) i

/-- The payload of a frame of a part, once all its elements are known: a later step of a gather ring passes on what arrived. -/
def Coll.payload (k : Coll) (p : Part) (i : Nat) : Option (List Byte) :=
  if (k.kind = 0 ∨ k.kind = 1) ∧ 8 ≤ p.stage ∧ k.net.topology ≠ 2 ∧ p.num % 32 ≠ 0 then k.arrived p.stage (p.num - 1) i
  else
    let e := k.per p.stage
    let lo := p.lo + (i - p.base) * e
    (allSome ((List.range (min (p.hi - lo) e)).map (fun j => k.txWord p (lo + j)))).map (fun ws =>
      if k.fp8 then
        let c := fp8Code ws
        slice ([BitVec.ofNat 8 c, 0, 0, 0, 0, 0, 0, 0] ++ ws.map (fun b => BitVec.ofNat 8 (narrowFp8 c b))) 0 224
      else packWords (k.wireBits p.stage) ws)

/-! ### What a record writes -/

/-- One element of a sum, as this member writes it. -/
def Coll.sumEl (k : Coll) (t : Tensor) (i : Nat) (own : Bool) : Option OutEl :=
  let w := if own then k.rounded i else (k.gathered i).map (fun b => (b, false, decodeElem t.format b 0x7F))
  w.map (fun u =>
    let v := k.own i
    let c := t.coordAt (k.dstIndex i)
    { needle := 0, tile := (blockTile c).1, pos := (blockTile c).2, coord := c, bits := u.1
      sat := u.2.1 || (k.exact && (exactWord v k.sumShift).2), v := u.2.2
      input := if v.finite then none else some (0, ((k.src.map (fun s => s.coordAt i)).getD []), k.data.scale == 0xFF && (decodeElem ((k.src.map (·.format)).getD 0x05) (k.data.bits.getD i 0) 0x7F).finite)
      quiet := false })

/-- An element that is moved without arithmetic. -/
def Coll.moved (k : Coll) (t : Tensor) (i bits : Nat) : OutEl :=
  let c := t.coordAt i
  { needle := 0, tile := (blockTile c).1, pos := (blockTile c).2, coord := c, bits := bits, sat := false
    v := decodeElem t.format bits (k.x.scaleCode k.r.index 0 t c), input := none, quiet := true }

/-- The elements that a permutation writes here. -/
def Coll.permEls (k : Coll) (t : Tensor) : List OutEl :=
  let me := k.net.device.toNat
  k.runs.zipIdx.flatMap (fun (q : PermRun × Nat) =>
    if q.1.dst != me then []
    else (List.range q.1.length).filterMap (fun j =>
      (if q.1.src == me then some (k.data.bits.getD (q.1.srcIndex + j) 0)
       else k.rxWord { stage := 4, num := 0, lo := q.1.dstIndex, hi := q.1.dstIndex + q.1.length, base := k.runBase q.2 q.1.dst, dest := 0 } (q.1.dstIndex + j)).map
        (k.moved t (q.1.dstIndex + j))))

/-- What the record writes, all that it expects having arrived. -/
def Coll.output (k : Coll) : OpOut :=
  match k.dst with
  | none => {}
  | some t =>
    let h := k.shard
    if k.kind = 0 then
      let is := if k.scatter then (List.range (h.2 - h.1)).map (h.1 + ·) else List.range k.n
      { (k.x.vector k.r t false true (is.filterMap (fun i => k.sumEl t i (decide (h.1 ≤ i) && decide (i < h.2))))) with tiles := [] }
    else if k.kind = 1 then { writes := [(t, (List.range k.n).filterMap (fun i => (k.gathered i).map (k.moved t i)))] }
    else if k.kind = 2 then { writes := [(t, k.permEls t)] }
    else {}

/-- The bytes that a receiving TRANSFER writes from its tensor's base. -/
def Coll.bytes (k : Coll) : List Byte :=
  (List.range ((k.n + 223) / 224)).flatMap (fun i => (slice ((k.arrived 15 0 i).getD []) 0 (min 224 (k.n - 224 * i))))

/-! ### The records of a course -/

/-- The image of a course's pattern. -/
def Job.image (j : Job) (c : Course) : List Byte := ((j.patterns.find? (·.handle == c.pattern)).map (·.image)).getD []

/-- What a course computes with: the lane's step is its step, its committed view, or all ones on a revision-1 ring, and G is 1 outside a
step (06 R201, 08 R231). -/
def State.ctx (s : State) (c : Course) (j : Job) (mine : List Nat) : Ctx :=
  { view := s.courseView c, job := j, image := j.image c, bindings := c.bindings
    lane := { seed := j.seed.toNat, step := if c.implicitStep then counterMax else if c.inStep then c.step else c.viewNo.getD counterMax }
    inStep := c.inStep, implicitStep := c.implicitStep, g := if c.inStep then j.scale.g else 0, wrote := c.wrote, adds := c.adds
    freeBase := s.freeCtr, needles := c.needles, mine := mine, panelOf := c.place }

/-- A link leads to a forerunner (10 R312). -/
def State.toForerunner (s : State) (k : Nat) : Bool :=
  let l := s.link k
  l.state == 3 || (l.state != 2 && !s.skein.serials.any (·.1 == l.peerSerial))

/-- The member at the other end of a link, up or not; 0xFFFF for none. -/
def State.peerOf (s : State) (k : Nat) : BitVec 16 :=
  ((s.skein.serials.find? (·.1 == (s.link k).peerSerial)).map (·.2)).getD 0xFFFF

/-- A COLLECTIVE record of a course. -/
def State.coll (s : State) (c : Course) (j : Job) (r : OpRec) : Coll :=
  let x := s.ctx c j []
  let f := r.par 0 1 == 3 && s.toForerunner (r.par 7 1)
  { x := x, c := c, r := r, net := s.skein, index := if f then 0 else j.linkIndex, exact := j.reduceFormat == 1, src := x.tensor? r.a
    dst := x.tensor? r.dst, data := (c.srcs.find? (·.record == r.index)).getD (SrcData.mk r.index 0x7F []), forerunner := f
    peer := s.peerOf (r.par 7 1) }

/-- Every COLLECTIVE record of a course. -/
def State.colls (s : State) (c : Course) : List Coll :=
  match s.job? c.job with
  | none => []
  | some j => ((opRecs (j.image c)).filter (fun r => r.op == 0x0030)).map (s.coll c j)

/-- The frames that a course expects. -/
def State.expects (s : State) (c : Course) : List (Word × Word) :=
  (s.colls c).flatMap (fun k => (k.parts false).flatMap (fun p => (k.keys p).map (fun e => (e.1, e.2.1))))

/-- A frame of a send set: its record, its part, its index, and its receiver, stream and offset. -/
structure SendItem where
  k : Coll
  p : Part
  i : Nat
  key : BitVec 16 × Word × Word

/-- A course's send set, in order (11 R321). -/
def State.sends (s : State) (c : Course) : List SendItem :=
  (s.colls c).flatMap (fun k => (k.parts true).flatMap (fun p => (k.keys p).map (fun e => SendItem.mk k p e.2.2 (p.dest, e.1, e.2.1))))

end Sys2Proof.Machine
end

