-- ==== Sys2Proof/Machine/Submit.lean ====
section
/-! DEFINITION. COURSE_SUBMIT: descriptors of both revisions, the checks of bound tensors, and the entry into launch queues and the
hold (01 R19, R29, R36, R37; 03 R100 to R103, R107, R118; 04 R144; 05 R154, R170, R176; 06 R184; 07 R213 to R223; 08 R239, R244;
09 R261, R264, R282; 10 R306, R312; 11 R318, R330). -/

namespace Sys2Proof.Machine

/-! ### Descriptors (03 R100, R103) -/

/-- A course descriptor. -/
structure Desc where
  pattern : Nat
  inStep : Bool
  scope : Nat
  emit : Nat
  fill : Bool
  step : Nat
  launchKind : Nat
  after : List Word
  stitch : Nat
  point : Nat
  epoch : Nat
  needles : List Nat
  engines : List Nat
  links : List Nat
  batchWait : Nat
  bindings : List (Nat × Word)
  badBindings : Bool
  bad : Bool
  wrong : Bool

/-- The set bits of a field. -/
def bitsIn (v n : Nat) : List Nat := (List.range n).filter (bitOf v)

/-- The bindings at an offset: slots ascend from 0. -/
def bindingsAt (d : List Byte) (off n : Nat) : List (Nat × Word) :=
  (List.range n).map (fun i => (field d (off + 8 * i) 2, BitVec.ofNat 32 (field d (off + 4 + 8 * i) 4)))

/-- Bindings break their layout. -/
def badBindingsAt (d : List Byte) (off n : Nat) : Bool :=
  (List.range n).any (fun i => field d (off + 8 * i) 2 != i || !zeroBytes d (off + 2 + 8 * i) 2)

/-- The revision-2 descriptor. -/
def desc2 (d : List Byte) : Desc :=
  let fl := field d 4 4
  let kind := field d 16 1
  let n := field d 17 1
  let marks := (List.range 4).map (fun i => field d (24 + 4 * i) 4)
  let count := field d 18 2
  { pattern := field d 0 4, inStep := bitOf fl 0, scope := fl / 4 % 4, emit := field d 20 4, fill := bitOf fl 4, step := field d 8 8
    launchKind := kind, after := (marks.take n).map (BitVec.ofNat 32), stitch := field d 40 8
    point := field d 52 4 * 2 ^ 32 + field d 48 4, epoch := field d 56 8, needles := bitsIn (field d 64 17) 136
    engines := bitsIn (field d 81 1) 8, links := bitsIn (field d 84 4) 32, batchWait := field d 88 4
    bindings := bindingsAt d 96 count, badBindings := badBindingsAt d 96 count
    bad := decide (32 ≤ fl) || decide (3 < kind) || (kind == 0 && n != 0) || (kind == 1 && n == 0) || decide (4 < n) ||
      (marks.take n).any (· == 0) || (marks.drop n).any (· != 0) || !zeroBytes d 82 2 || !zeroBytes d 92 4 ||
      (if bitOf fl 1 then fl / 4 % 4 == 0 || field d 20 4 == 0 else fl / 4 % 4 != 0 || field d 20 4 != 0) ||
      (if bitOf fl 0 then field d 56 8 != counterMax else field d 8 8 != 0) || (bitOf fl 4 && decide (2 ≤ kind))
    wrong := false }

/-- The revision-1 descriptor: an implicit step of its own. -/
def desc1 (d : List Byte) : Desc :=
  let kind := field d 4 1
  let scope := field d 5 1
  let marks := (List.range 2).map (fun i => field d (12 + 4 * i) 4)
  let names := marks.filter (· != 0)
  let count := field d 6 2
  { pattern := field d 0 4, inStep := false, scope := scope, emit := field d 8 4, fill := false, step := 0, launchKind := kind
    after := names.map (BitVec.ofNat 32), stitch := 0, point := 0, epoch := counterMax, needles := bitsIn (field d 20 17) 136, engines := []
    links := [], batchWait := 0, bindings := bindingsAt d 64 count, badBindings := badBindingsAt d 64 count
    bad := decide (3 < kind) || decide (3 < scope) || (kind == 0 && !names.isEmpty) || (kind == 1 && names.isEmpty) ||
      !zeroBytes d 37 27 || ((scope == 0) != (field d 8 4 == 0))
    wrong := kind == 2 || kind == 3 || scope == 3 }

/-- Bytes of a descriptor before its bindings, and where it gives their number. -/
def descBytes (rev1 : Bool) : Nat := if rev1 then 64 else 96
def bindingCountAt (rev1 : Bool) : Nat := if rev1 then 6 else 18

/-! ### Bound tensors -/

/-- A bound tensor's extents are at least a list. -/
def atLeast (t : Option Tensor) (l : List Nat) : Bool :=
  match t with
  | some u => l.zipIdx.all (fun e => decide (e.1 ≤ u.ext e.2))
  | none => true

/-- A bound tensor's extents are exactly a list, and 1 beyond it. -/
def exactly (t : Option Tensor) (l : List Nat) : Bool :=
  match t with
  | some u => (List.range 4).all (fun d => u.ext d == l.getD d 1)
  | none => true

/-- A bound tensor has a format; an absent one passes. -/
def hasFormat (t : Option Tensor) (f : Nat) : Bool :=
  match t with
  | some u => u.format == f
  | none => true

/-- Two tensors have the same extents. -/
def sameExtents (a b : Tensor) : Bool := (List.range 4).all (fun d => a.ext d == b.ext d)

/-- A block-scaled operand's blocks lie along a dimension (06 R184). -/
def Job.blocksAlong (j : Job) (t : Option Tensor) (d : Nat) : Bool :=
  match t with
  | some u => if u.format = 0x01 then (match j.tensors.find? (·.id == u.scaleId) with
      | some sc => blockDim u sc == d
      | none => false) else true
  | none => true

/-- A bound tensor's scale tensor breaks R184 or R185. -/
def Job.badScaleOf (j : Job) (t : Tensor) : Bool :=
  if t.format = 0x01 then
    match j.tensors.find? (fun x => t.scaleId != 0 && x.id == t.scaleId) with
    | none => true
    | some sc =>
      let differ := (List.range 4).filter (fun d => t.ext d != sc.ext d)
      let b := differ.headD 0
      sc.format != 0x0D || sc.rank != t.rank || decide (1 < differ.length) || sc.ext b != (t.ext b + 31) / 32
  else if t.scaleId != 0 then
    match j.tensors.find? (·.id == t.scaleId) with
    | none => true
    | some sc => sc.format != 0x0D || !exactly (some sc) []
  else false

/-- A source of a vector operation is broadcast over the destination (07 R213). -/
def broadcasts (d : Tensor) (t : Option Tensor) (except : Nat) : Bool :=
  match t with
  | some u => (List.range 4).all (fun i => i == except || u.ext i == d.ext i || u.ext i == 1)
  | none => true

/-- A two-dimensional operand holds i by k (05 R154). -/
def operandFits (t : Option Tensor) (transposed : Bool) (k i b : Nat) : Bool := atLeast t (if transposed then [i, k, b] else [k, i, b])

/-- The bound tensors of a product break R154 or R184. -/
def Job.badProduct (j : Job) (a b c d : Option Tensor) (ta tb : Bool) (m n k bs : Nat) : Bool :=
  !operandFits a ta k m bs || !operandFits b tb k n bs || !atLeast c [n, m, bs] || !atLeast d [n, m, bs] ||
  !j.blocksAlong a (if ta then 1 else 0) || !j.blocksAlong b (if tb then 1 else 0)

/-- The formats that a record names differ from those of the tensors bound. -/
def badFormats (l : List (Option Tensor × Nat)) : Bool := l.any (fun e => !hasFormat e.1 e.2)

/-- MATMUL. -/
def Job.badMatmul (j : Job) (i : List Byte) (f : Nat → Option Tensor) (r : OpRec) : Bool :=
  let ms := if r.par 16 2 = 0 then [(r.a, r.b, r.c, r.dst, bitOf (r.par 15 1) 0, bitOf (r.par 15 1) 1, r.par 0 4, r.par 4 4, r.par 8 4, r.par 20 4)]
    else (motifs (imgConst i) r.constRef (r.par 16 2)).map (fun m => (m.a, m.b, m.c, m.dst, bitOf m.flags 1, bitOf m.flags 2, m.m, m.n, m.k, m.batch + 1))
  ms.any (fun (q : Nat × Nat × Nat × Nat × Bool × Bool × Nat × Nat × Nat × Nat) =>
    match q with
    | (a, b, c, d, ta, tb, m, n, k, bs) =>
      j.badProduct (f a) (f b) (f c) (f d) ta tb m n k bs ||
      badFormats [(f a, r.par 12 1), (f b, r.par 13 1), (f c, r.par 14 1), (f d, r.par 14 1)])

/-- CONV. -/
def Job.badConv (j : Job) (i : List Byte) (f : Nat → Option Tensor) (r : OpRec) : Bool :=
  let q0 := fun o => ((genAt (imgConst i) (r.constRef + o)).q.head?.map (·.dim)).getD 0
  badFormats [(f r.a, r.par 0 1), (f r.b, r.par 1 1), (f r.c, r.par 2 1), (f r.dst, r.par 2 1)] ||
  !j.blocksAlong (f r.a) (q0 0) || !j.blocksAlong (f r.b) (q0 96) ||
  (match f r.dst with
   | some d => !atLeast (f r.c) ((List.range 4).map d.ext)
   | none => false)

/-- FUSED_NORM. -/
def Job.badNorm (j : Job) (f : Nat → Option Tensor) (r : OpRec) : Bool :=
  let m := r.par 4 4
  let n := r.par 8 4
  let k := r.par 12 4
  let bwd := r.par 2 1 == 1
  let L := if r.par 1 1 = 0 ∧ !bwd then k else n
  let rank1 := fun (t : Option Tensor) => exactly t [L] && (match t with
    | some u => u.rank == 1
    | none => true)
  let stats := f (r.par 24 2)
  let sums := [f (r.par 26 2), f (r.par 28 2)]
  j.badProduct (f r.a) (f r.b) (if bwd then f r.c else none) (f r.dst) (bitOf (r.par 3 1) 0) (bitOf (r.par 3 1) 1) m n k 1 ||
  badFormats [(f r.a, r.par 16 1), (f r.b, r.par 17 1), (f r.dst, r.par 19 1), (stats, 0x07)] || !exactly stats [2, m] ||
  (bwd && stats.isNone) || !rank1 (f (r.par 20 2)) || !rank1 (f (r.par 22 2)) || !sums.all rank1 ||
  sums.any (fun t => !hasFormat t 0x07 && !hasFormat t 0x05)

/-- FUSED_SOFTMAX. -/
def Job.badSoftmax (j : Job) (f : Nat → Option Tensor) (r : OpRec) : Bool :=
  let m := r.par 4 4
  let n := r.par 8 4
  let dv := r.par 16 4
  let bwd := r.par 0 1 == 1
  let fl := r.par 1 1
  let stats := f (r.par 28 2)
  j.badProduct (f r.a) (f r.b) none none (bitOf fl 1) (bitOf fl 2) m n (r.par 12 4) 1 ||
  !operandFits (f r.c) (bitOf fl 3) n dv 1 || !j.blocksAlong (f r.c) (if bitOf fl 3 then 1 else 0) ||
  !atLeast (f r.dst) (if bwd then [n, m] else [dv, m]) || !atLeast (f (r.par 30 2)) [dv, m] || !atLeast (f (r.par 32 2)) [dv, m] ||
  !atLeast (f (r.par 34 2)) [n, m] || !exactly stats [2, m] || (bwd && stats.isNone) ||
  badFormats [(f r.a, r.par 20 1), (f r.b, r.par 21 1), (f r.dst, r.par 23 1), (f (r.par 34 2), r.par 22 1), (stats, 0x07)]

/-- The vector operations, COPY and CONVERT. -/
def badVector (f : Nat → Option Tensor) (r : OpRec) : Bool :=
  match f r.dst with
  | none => false
  | some d =>
    let dim := r.par 1 1
    if r.op = 0x0004 then d.ext dim != 1 || !broadcasts d (f r.a) dim || !broadcasts d (f r.c) 4
    else if r.op = 0x0005 then !broadcasts d (f r.a) 4 || (match f r.a with
      | some a => a.ext dim != d.ext dim
      | none => false) || !broadcasts d (f r.c) 4
    else !broadcasts d (f r.a) 4 || !broadcasts d (f r.b) 4 || !broadcasts d (f r.c) 4

/-- OPT_UPDATE. -/
def badOpt (f : Nat → Option Tensor) (stepped : Bool) (r : OpRec) : Bool :=
  let wrong := fun (s kind : Nat) (learn : Bool) => match f s, f r.dst with
    | some t, some w => t.kind != kind || (learn && !t.stepWritten) || !sameExtents t w
    | _, _ => false
  !stepped || wrong r.dst 1 true || wrong r.a 4 false || wrong r.b 2 true || wrong r.c 2 true ||
  (r.par 2 2 != noSlot && (!hasFormat (f (r.par 2 2)) 0x08 || !exactly (f (r.par 2 2)) []))

/-- The delta tensors, the structure and the vectors of SOLVE_STEP break R264 or R282; `mask` is the course's engine mask. -/
def Job.badSolve (j : Job) (f : Nat → Option Tensor) (mask : Nat) (r : OpRec) : Bool :=
  match j.structures.find? (·.handle == r.par 0 4) with
  | none => true
  | some x =>
    let wrong := fun (t : Option Tensor) => !hasFormat t 0x08 && !(bitOf (r.par 5 1) 0 && hasFormat t 0x0C)
    let rank1 := fun (t : Option Tensor) => match t with
      | some u => u.rank == 1
      | none => true
    let grad := fun (t : Option Tensor) (len : Nat) => hasFormat t 0x08 && exactly t [len] && (match t with
      | some u => u.kind == 4
      | none => true)
    x.mask.toNat != mask ||
    (bitOf (r.par 4 1) 2 && (wrong (f r.a) || !exactly (f r.a) [x.n] || wrong (f r.dst) || !exactly (f r.dst) [x.n])) ||
    !grad (f (r.par 18 2)) x.n || !grad (f (r.par 20 2)) x.n || !grad (f (r.par 22 2)) x.nnz ||
    (bitOf (r.par 4 1) 3 && !bitOf (r.par 4 1) 2 && r.dst != noSlot && (wrong (f r.dst) || !exactly (f r.dst) [x.n])) ||
    badFormats [(f r.b, 0x08), (f r.c, 0x0A), (f (r.par 16 2), 0x0A), (f (r.par 24 2), 0x0B), (f (r.par 26 2), 0x04)] ||
    !rank1 (f r.b) || !rank1 (f r.c) || (match f r.b, f r.c with
      | some a, some b => a.ext 0 != b.ext 0
      | _, _ => false) ||
    !exactly (f (r.par 16 2)) [] || !exactly (f (r.par 24 2)) [] || !rank1 (f (r.par 26 2)) || !atLeast (f (r.par 26 2)) [128]

/-! ### Collectives (10 R306, R312; 11 R318, R330) -/

/-- Each entry of a plan sends its frames to the peer of its link. -/
def State.planKeys (s : State) (j : Job) (attempt : Nat) (es : List PlanEntry) : List (BitVec 16 × Word × Word) :=
  es.flatMap (fun e => (List.range e.frames).map (fun i =>
    (s.peerOf e.link, BitVec.ofNat 32 (j.linkIndex * 0x100000 + e.stream), BitVec.ofNat 32 (e.offset + i + attempt % 4 * 0x1000000))))

/-- Two lists hold the same elements as often. -/
def sameBag {α : Type} [BEq α] (a b : List α) : Bool := a.length == b.length && (a.foldl (fun l x => l.erase x) b).isEmpty

/-- A queued or running collective course of the job carries a tag. -/
def State.tagInUse (s : State) (j : Job) (tag : Nat) : Bool :=
  s.courses.any (fun c => c.job == j.id && c.target == 4 && c.live && c.kind == .course &&
    ((opRecs (j.image c)).filter (fun r => r.op == 0x0030 && r.par 0 1 != 3)).any (fun r => r.par 2 2 == tag))

/-- A COLLECTIVE record breaks the rules of its submission. -/
def State.badCollective (s : State) (j : Job) (d : Desc) (c : Course) (r : OpRec) : Bool :=
  let k := s.coll c j r
  let kind := k.kind
  let h := k.shard
  let me := s.skein.device.toNat
  let count := fun (t : Option Tensor) => (t.map Tensor.count).getD 0
  let es := if r.constRef = 0 then [] else planEntries (imgConst (j.image c)) r.constRef
  let skeinMark := (d.after.any (fun m => match j.markers.reverse.find? (·.marker == m) with
    | some e => e.scope == 3
    | none => false))
  (kind != 3 && s.tagInUse j k.tag) ||
  ((kind == 0 || kind == 1) && (s.skein.topology == 0 || j.memberCount != s.skein.members)) ||
  (kind == 0 && count k.dst != (if k.scatter then h.2 - h.1 else k.n)) || (kind == 1 && count k.src != h.2 - h.1) ||
  (kind == 2 && k.runs.any (fun q => (q.src == me && decide (k.n < q.srcIndex + q.length)) || (q.dst == me && decide (k.n < q.dstIndex + q.length)))) ||
  (kind == 3 && !(s.link (r.par 7 1)).up) ||
  (r.constRef != 0 && (es.any (fun e => !d.links.contains e.link || s.toForerunner e.link) || !(decide (2 ≤ d.launchKind) || (d.launchKind == 1 && skeinMark)) ||
    !sameBag (s.planKeys j 0 es) ((k.parts true).flatMap (fun p => (k.keys p).map (fun e => (p.dest, e.1, e.2.1))))))

/-! ### All checks of the bound tensors -/

/-- A record breaks the rules for its bound tensors. -/
def State.badRecord (s : State) (j : Job) (d : Desc) (c : Course) (i : List Byte) (r : OpRec) : Bool :=
  let f := fun k => (d.bindings.lookup k).bind (fun id => j.tensors.find? (·.id == id))
  let k := checkOp j i (fun k => match f k with
    | some t => t.format
    | none => slotFormat i k) r
  k.flags || k.dst || k.a || k.b || k.c || k.constRef || k.params.any (·.2) ||
  (if r.op = 0x0001 then j.badMatmul i f r
   else if r.op = 0x0002 then j.badConv i f r
   else if r.op = 0x0006 then j.badNorm f r
   else if r.op = 0x0007 then j.badSoftmax f r
   else if r.op = 0x0012 then (match f r.dst, f r.a with
     | some t, some u => !sameExtents t u
     | _, _ => false)
   else if r.op = 0x0013 then badOpt f (d.inStep || c.implicitStep) r
   else if r.op = 0x0020 then j.badSolve f ((d.engines.map (2 ^ ·)).sum) r
   else if r.op = 0x0030 then s.badCollective j d c r
   else if r.op = 0x0040 then false
   else badVector f r)

/-- A binding breaks its slot, its scale tensor, or writes step-written state outside a step. -/
def Job.badBinding (j : Job) (i : List Byte) (stepped : Bool) (b : Nat × Word) : Bool :=
  let sl := slotRec i b.1
  match j.tensors.find? (·.id == b.2) with
  | none => true
  | some t => (sl.format != 0xFF && sl.format != t.format) || (sl.rank != 0 && sl.rank != t.rank) || j.badScaleOf t ||
      (sl.role != 0 && t.stepWritten && !stepped)

/-- The unit set does not match the target of the image. -/
def Desc.badUnits (d : Desc) (target : Nat) : Bool :=
  (d.needles.isEmpty == (target == 1)) || (d.engines.isEmpty == (target == 2)) || (d.links.isEmpty == (target == 4))

/-- The array operations of an image do not allow batching (05 R170). -/
def unbatchable (i : List Byte) : Bool :=
  (opRecs i).any (fun r => (r.op == 0x0001 && (r.par 16 2 != 0 || decide (64 < r.par 0 4) || r.split != 1)) ||
    (r.op == 0x0002 && (decide (64 < r.par 4 4) || r.split != 1)))

/-- The dimension that divides a record, and its extent: equal pairs have equal shard boundaries (07 R219). -/
def boundaryOf (f : Nat → Option Tensor) (r : OpRec) : Nat × Nat :=
  (r.split, if r.op = 0x0001 then (if r.split = 0 then r.par 0 4 else if r.split = 1 then r.par 4 4 else if r.split = 2 then r.par 20 4 else r.par 16 2)
    else if r.op = 0x0002 then (if r.split = 0 then r.par 4 4 else r.par 8 4)
    else if r.op = 0x0006 ∨ r.op = 0x0007 then r.par 4 4
    else ((f r.dst).map (fun t => t.ext r.split)).getD 0)

/-- The course must run within one panel (05 R176). -/
def mustConfine (f : Nat → Option Tensor) (rs : List OpRec) : Bool :=
  let work := fun (l : List OpRec) => (l.filter (fun r => r.op != 0x0040)).map (boundaryOf f)
  rs.any (fun r => r.op == 0x0006 && r.par 2 1 == 1 && (r.par 26 2 != noSlot || r.par 28 2 != noSlot)) ||
  rs.any (fun r => r.op == 0x0040 && r.par 0 1 == 1 && (work (rs.take r.index)).any (fun a => (work (rs.drop (r.index + 1))).any (fun b => a != b)))

/-- An unstepped course would change a step-written structure (09 R261). -/
def Job.badVersion (j : Job) (d : Desc) (rs : List OpRec) : Bool :=
  !d.inStep && rs.any (fun r => r.op == 0x0020 && (bitOf (r.par 4 1) 0 || bitOf (r.par 4 1) 1) &&
    j.structures.any (fun x => x.handle == r.par 0 4 && x.stepWritten))

/-! ### Markers (03 R107) -/

/-- The most recent emission of an identifier. -/
def Job.latestMark (j : Job) (m : Word) : Option MarkerEm := j.markers.reverse.find? (·.marker == m)

/-- An identifier may not be emitted now: its last emission is open, or a queued course names it, if only since an emission it named before is
void. -/
def State.emitBlocked (s : State) (j : Job) (m : Word) : Bool :=
  match j.latestMark m with
  | none => false
  | some e => match e.status with
    | .void => false
    | .complete t => decide (s.stitch < t) || s.courses.any (fun c => c.job == j.id && c.live &&
        (!c.running || c.units.any (fun u => !c.launchedUnits.contains u)) && c.after.any (fun a => a.1 == m && (j.named a.1 a.2).map (·.ord) == some e.ord))
    | _ => true

/-! ### The course -/

/-- The course of a descriptor. -/
def State.newCourse (s : State) (c : Cmd) (j : Job) (d : Desc) : Course :=
  let i := ((j.patterns.find? (·.handle == d.pattern)).map (·.image)).getD []
  let places := d.needles.filterMap (fun l => (s.physical l).map (fun u => (l, u / 12)))
  let f := fun k => (d.bindings.lookup k).bind (fun id => j.tensors.find? (·.id == id))
  { id := s.nextId, kind := .course, tag := c.tag, job := j.id, pattern := d.pattern, patternTag := BitVec.ofNat 64 (imgTag i)
    target := imgTarget i, inStep := d.inStep, step := d.step, implicitStep := c.rev1, launchKind := d.launchKind
    after := d.after.map (fun m => (m, ((j.latestMark m).map (·.ord)).getD 0))
    emit := if d.scope = 0 then none else some (BitVec.ofNat 32 d.emit, s.nextId + 1)
    fill := d.fill, batchWait := d.batchWait, launchPoint := BitVec.ofNat 64 d.point
    launchStitch := if d.launchKind = 2 then some d.stitch else if d.launchKind = 3 then bindPoint s.gauge.quad s.gauge.records d.point else none
    viewNo := if d.inStep || c.rev1 || d.epoch == counterMax then none else some d.epoch
    needles := d.needles, engines := d.engines, links := d.links
    panels := (List.range 12).filter (fun p => places.any (·.2 == p)), bindings := d.bindings, request := [], status := .queued, stalled := []
    ready := [], launchedUnits := [], launchedAt := none, startedAt := [], gatherSince := none, since := s.stitch, batchWith := [], aborts := 0, abortCauses := []
    excluded := [], firstLaunch := none, attempt := 0, staging := Overlay.empty, finished := false, nonFinite := false, flags := []
    maxima := [], els := [], adds := [], tiles := [], counted := [], wrote := [], run := none, slot0 := none, rx := [], sent := [], acked := [], missedSlots := 0, awaiting := 0
    shadow := [], shadowPorts := [], waitAcc := [], subs := [], swatchFailed := false, restartAt := none, confined := mustConfine f (opRecs i)
    accumOnly := (opRecs i).any (fun r => r.op == 0x0012) && (opRecs i).all (fun r => r.op == 0x0012 || r.op == 0x0040), canSend := false
    structs := ((opRecs i).filter (fun r => r.op == 0x0020)).map (fun r => r.par 0 4), progress := [], places := places, srcs := [] }

/-- Everything that gives BAD_FIELD once the pattern is known. -/
def State.badCourse (s : State) (c : Cmd) (j : Job) (i : List Byte) (d : Desc) : Bool :=
  let n := s.newCourse c j d
  let rs := opRecs i
  d.bad || d.badBindings || d.badUnits (imgTarget i) || d.bindings.length != imgSlots i ||
  (d.scope == 1 && imgTarget i != 1) || (d.inStep && !(j.opened.any (fun p => p.number == d.step && p.commit.isNone))) ||
  d.bindings.any (j.badBinding i (d.inStep || c.rev1)) || rs.any (s.badRecord j d n i) ||
  d.after.any (fun m => (j.latestMark m).isNone) || (d.scope != 0 && s.emitBlocked j (BitVec.ofNat 32 d.emit)) ||
  (d.fill && unbatchable i) || (n.confined && decide (1 < n.panels.length)) || (d.launchKind == 3 && unbindable s.gauge.quad d.point) ||
  j.badVersion d rs

/-- What gives NO_RESOURCE: an unmapped needle, an epoch not held, a revision-1 course beside a step (01 R29, R36; 03 R118). -/
def State.courseResource (s : State) (c : Cmd) (j : Job) (d : Desc) : Bool :=
  d.needles.any (fun l => (s.physical l).isNone) ||
  (!d.inStep && d.epoch != counterMax && d.epoch != j.latest && (j.held? d.epoch).isNone) ||
  (c.rev1 && (j.opened.isSome || j.committing.isSome))

/-! ### Queues and the hold (01 R19) -/

/-- The most entries of the hold. -/
def holdMax : Nat := 16384

/-- A queue takes no further course but through the hold. -/
def State.mustHold (s : State) (u : LUnit) : Bool := decide (queueMax ≤ (s.queue u).length) || !(s.heldFor u).isEmpty

/-- The hold entries that a piece of work needs. -/
def State.holdNeed (s : State) (w : Course) : Nat := (w.units.filter s.mustHold).length

/-- The hold cannot take it. -/
def State.holdFull (s : State) (w : Course) : Bool := let n := s.holdNeed w
                                                      n != 0 && decide (holdMax < s.hold.length + n)

/-- Work enters its queues in acceptance order. -/
def State.enqueue (s : State) (w : Course) : State :=
  w.units.foldl (fun x u => x.insertCourse u w.id) { s with courses := s.courses ++ [w], nextId := w.id + 2 }

/-- A command that needs hold entries waits on its ring (01 R19). -/
def State.holdCommand (s : State) (c : Cmd) : State :=
  match c.tag.src with
  | .ring r => s.updRing r (fun g => { g with waiting := some (WaitingCmd.mk c.entry c.tag.sqHead (c.payload.getD []) c.tag.cplFault) })
  | .admin => s

/-- The emission that a course makes. -/
def State.emission (s : State) (w : Course) (scope : Nat) : List MarkerEm :=
  match w.emit with
  | some (m, ord) =>
    let low := s.lowestUnit w
    [MarkerEm.mk ord m w.id scope w.needles w.engines w.links w.patternTag w.stepField low .pending w.panels [] none [] low]
  | none => []

/-- Reports of completions before this stitch belong to attempts of an emission's step that are gone (13 R377, R379). -/
def Job.markFloor (j : Job) (e : MarkerEm) : Nat :=
  (((j.opened.toList ++ j.committing.toList).find? (·.number == e.step)).map (·.restarted)).getD 0

/-- A SKEIN emission takes the reports of other members that came before it: the first of each (03 R106). -/
def Job.takeReports (j : Job) (e : MarkerEm) : Job :=
  let mine := fun (r : Word × MarkReport) => e.scope == 3 && r.1 == e.marker
  let fresh := (j.markReports.filter mine).filter (fun r => decide (j.markFloor e ≤ r.2.stitch))
  let firsts := fresh.foldl (fun (l : List (Word × MarkReport)) r => if l.any (·.2.member == r.2.member) then l else l ++ [r]) []
  { j with markers := j.markers ++ [{ e with reports := firsts.map (·.2) }]
           markReports := (firsts.foldl (fun l r => l.erase r) j.markReports).filter (fun r => !(mine r && decide (r.2.stitch < j.markFloor e))) }

/-- A course is accepted. -/
def State.acceptCourse (s : State) (c : Cmd) (w : Course) (scope : Nat) : State :=
  ((s.enqueue w).updJob w.job (fun j => (s.emission w scope).foldl Job.takeReports j)).finish c.tag [stDone] 0

/-- COURSE_SUBMIT of a pattern that is loaded; `broken` says that the entry or its payload breaks the layout. -/
def State.submit (s : State) (c : Cmd) (j : Job) (d : Desc) (i : List Byte) (broken : Bool) : State :=
  match firstFailure [(d.wrong, stWrongRevision), (broken || s.badCourse c j i d, stBadField), (s.courseResource c j d, stNoResource)] with
  | some k => s.finish c.tag [k] 0
  | none =>
    let w := s.newCourse c j d
    if s.holdFull w then s.holdCommand c else s.acceptCourse c w d.scope

/-- A descriptor asks for what revision 1 lacks; a payload that is absent asks for nothing (01 R37, 02 R63, R67). -/
def Cmd.desc (c : Cmd) : Desc :=
  let d := if c.rev1 then desc1 c.data else desc2 c.data
  { d with wrong := d.wrong && !c.badPayload (descBytes c.rev1) }

/-- The entry or the payload of COURSE_SUBMIT breaks its layout (02 R63, 03 R100, R103). -/
def Cmd.badCourseEntry (c : Cmd) : Bool :=
  c.badLayout || (if c.rev1 then c.operand1 != 0 else !c.zero 40 24) || c.badPayload (descBytes c.rev1) ||
  c.badPayload (descBytes c.rev1 + 8 * field c.data (bindingCountAt c.rev1) 2)

/-- COURSE_SUBMIT: its checks are a set without order, so WRONG_REVISION comes before BAD_FIELD (00 R9, R459). -/
def State.courseSubmit (s : State) (c : Cmd) : State :=
  let d := c.desc
  match (s.openJob? c.tag.jobId).bind (fun j => (j.patterns.find? (·.handle == d.pattern)).map (fun q => (j, q.image))) with
  | none => s.finish c.tag [if d.wrong then stWrongRevision else stBadField] 0
  | some (j, i) => s.submit c j d i c.badCourseEntry

def execCourseSubmit (t : Stitch) (src : Src) (io : HostIo) (s : State) : Host.Outcome State Fault Refusal :=
  s.host t src io 0x0024 false State.courseSubmit

/-- HELD_COURSE_ENQUEUE: the next course held for a queue enters it when an entry is free (01 R19); the Hook moves none during a firmware
handover (14 R412). -/
def State.heldEnqueue (s : State) (u : LUnit) : State :=
  match s.heldFor u with
  | [] => s
  | id :: _ =>
    if (s.queue u).length < queueMax && !s.dev.fwActivating then { (s.setQueue u (s.queue u ++ [id])) with hold := s.hold.erase (u, id) } else s

def execHeldCourseEnqueue (t : Stitch) (u : LUnit) (s : State) : Host.Outcome State Fault Refusal := s.act t (·.heldEnqueue u)

end Sys2Proof.Machine
end

