-- ==== Sys2Proof/Machine/SolveCmd.lean ====
section
/-! DEFINITION. STRUCTURE_LOAD, DELTA_UPDATE and SOLVE, and the acceptance of commands that waited for hold entries (09 R253 to R264,
R282, R283; 01 R19). -/

namespace Sys2Proof.Machine

/-! ### STRUCTURE_LOAD (09 R255 to R259) -/

/-- Header fields of an image. -/
def stKind (d : List Byte) : Nat := field d 6 1
def stN (d : List Byte) : Nat := field d 8 4
def stNnz (d : List Byte) : Nat := field d 12 4
def stFixed (d : List Byte) : Bool := bitOf (field d 7 1) 1

/-- The header, the alignments or the places of the arrays break R255. -/
def badStructHeader (d : List Byte) (len : Nat) : Bool :=
  let inside := fun off size => decide (field d off 4 + size ≤ len)
  field d 0 4 != 0x54535850 || field d 4 2 != 1 || decide (2 < stKind d) || decide (4 ≤ field d 7 1) || (stFixed d && stKind d != 2) ||
  stN d == 0 || decide (4194304 < stN d) || decide (stNnz d < stN d) || decide (268435456 < stNnz d) || field d 16 8 % 2048 != 0 ||
  field d 24 8 % 2048 != 0 || field d 32 1 == 0 || !zeroBytes d 33 3 || field d 36 4 % 8 != 0 || field d 40 4 % 8 != 0 || field d 44 4 % 8 != 0 ||
  !inside 36 (4 * (stN d + 1)) || !inside 40 (4 * stNnz d) || !inside 44 (8 * stNnz d) ||
  (if stFixed d then !inside 48 (2 * stN d) else field d 48 4 != 0)

/-- Whether the working set of a structure fits the caches is settled when its engines are (09 R288). -/
def Structure.settled (x : Structure) : Structure := { x with fits := x.cached }

/-- The structure of an image, with a handle. -/
def structOf (d : List Byte) (handle : Nat) : Structure :=
  let u32s := fun off n => (List.range n).map (fun i => field d (field d off 4 + 4 * i) 4)
  Structure.settled
  { handle := handle, kind := stKind d, stepWritten := bitOf (field d 7 1) 0, fixedMode := stFixed d, n := stN d, nnz := stNnz d
    regionBase := field d 16 8, regionLength := field d 24 8, mask := BitVec.ofNat 8 (field d 32 1), colptr := u32s 36 (stN d + 1)
    rowidx := u32s 40 (stNnz d)
    ranges := if stFixed d then (List.range (stN d)).map (fun i =>
      (signed 8 (field d (field d 48 4 + 2 * i) 1), signed 8 (field d (field d 48 4 + 2 * i + 1) 1))) else []
    tag := BitVec.ofNat 64 (field d 56 8)
    committed := { values := (List.range (stNnz d)).map (fun i => BitVec.ofNat 64 (field d (field d 44 4 + 8 * i) 8)), valueGen := 0, factor := none }
    working := none, factorGen := 0, deltas := [], fits := true }

/-- Faults of the rows of a column, as entry numbers; a tree allows one entry below the diagonal, and pairs its entries (09 R253). -/
def columnFaults (x : Structure) (j : Nat) : List Nat :=
  let a := x.colptr.getD j 0
  let ks := (List.range (min (x.colptr.getD (j + 1) 0) x.nnz - a)).map (a + ·)
  let row := fun k => x.rowidx.getD k 0
  let pairs := x.pairs
  ks.filter (fun k =>
    decide (x.n ≤ row k) || (decide (a < k) && decide (row k ≤ row (k - 1))) || (x.kind == 1 && decide (row k < j)) ||
    (x.kind == 2 && ((row k != j && !pairs.contains (j, row k)) || (decide (j < row k) && ks.any (fun q => decide (q < k) && decide (j < row q))))))

/-- A column without its diagonal. -/
def noDiagonal (x : Structure) (j : Nat) : Bool := !x.pairs.contains (j, j)

/-- Byte offsets of the offending items of the pattern, the values and the ranges (09 R256); a column
without its diagonal is named by its start, and only where no row item offends. -/
def structFaults (d : List Byte) (x : Structure) : List Nat :=
  let cp := fun i => x.colptr.getD i 0
  let colAt := fun i => field d 36 4 + 4 * i
  let cols := (List.range (x.n + 1)).filter (fun i => (i == 0 && cp 0 != 0) || (i == x.n && cp x.n != x.nnz) ||
    (i != 0 && decide (cp i < cp (i - 1))))
  cols.map colAt ++
  (if cols.isEmpty then
    let rows := (List.range x.n).flatMap (fun j => (columnFaults x j).map (fun k => field d 40 4 + 4 * k))
    if rows.isEmpty then ((List.range x.n).filter (noDiagonal x)).map colAt else rows
   else []) ++
  ((List.range x.nnz).filter (fun k => !(fp64.decode (x.committed.values.getD k 0).toNat).finite)).map (fun k => field d 44 4 + 8 * k) ++
  x.ranges.zipIdx.flatMap (fun (p : (Int × Int) × Nat) =>
    (if p.1.1 < -60 ∨ 62 < p.1.1 then [field d 48 4 + 2 * p.2] else []) ++ (if p.1.2 < -60 ∨ 62 < p.1.2 then [field d 48 4 + 2 * p.2 + 1] else []))

/-- The least of a list. -/
def least : List Nat → Option Nat
  | [] => none
  | a :: as => some (as.foldl min a)

/-- An engine of a mask is not usable. -/
def State.engineOut (s : State) (mask : Nat) : Bool := (bitsIn mask 8).any (fun e => !((s.engines[e]?).map (·.up)).getD false)

/-- The first failure of an image: a code and a result. -/
def State.structFailure (s : State) (j : Job) (d : List Byte) (len : Nat) : Option (Nat × Nat) :=
  if badStructHeader d len then some (stBadField, 0)
  else if crc32cZeroed d 52 != field d 52 4 then some (stBlockCheckFail, 0)
  else
    let x := structOf d j.nextStructure
    let r := (x.regionBase, x.regionLength)
    match least (structFaults d x) with
    | some off => some (stBadField, off)
    | none =>
      if pastEnd r || (s.jobRanges ++ s.ringRanges).any (overlaps r) then some (stBadField, 0)
      else if 64 ≤ j.structures.length ∨ 256 ≤ ((s.jobs.map (fun k => k.structures.length)).sum) ∨ s.engineOut x.mask.toNat then some (stNoResource, 0)
      else if x.regionLength < x.need then some (stNoResource, x.need) else none

/-- A command's end with the report of a structure, and its handle as the result (09 R258). -/
def State.reportStructure (s : State) (c : Cmd) (x : Structure) : State := s.finishData c.tag [stDone] x.report false (some x.handle)

/-- Action 0. -/
def State.structureIn (s : State) (c : Cmd) (j : Job) : State :=
  let d := c.data
  if c.badPayload 64 then s.finish c.tag [stBadField] 0
  else match s.structFailure j d c.payloadLen with
    | some (k, r) => s.finish c.tag [k] r
    | none =>
      let x := structOf d j.nextStructure
      (s.updJob j.id (fun k => { k with structures := k.structures ++ [x], nextStructure := k.nextStructure + 1 })).reportStructure c x

/-- A structure may not be released or moved now: a queued or running course or SOLVE names it, or its step is under way. -/
def State.structureBusy (s : State) (j : Job) (x : Structure) : Bool :=
  s.courses.any (fun c => c.job == j.id && c.live && c.structs.contains x.handle) || (x.stepWritten && (j.opened.isSome || j.committing.isSome))

/-- Actions 1 and 2; a release frees a region for deferred page retirements (12 R346). -/
def State.structureChange (s : State) (c : Cmd) (j : Job) (release : Bool) (h mask : Nat) : State :=
  match j.structures.find? (·.handle == h) with
  | none => s.finish c.tag [stBadField] 0
  | some x =>
    if !release && mask == 0 then s.finish c.tag [stBadField] 0
    else if s.structureBusy j x || (!release && s.engineOut mask) then s.finish c.tag [stNoResource] 0
    else if release then
      ((s.updJob j.id (fun k => { k with structures := k.structures.filter (·.handle != h) })).serveDeferred).finish c.tag [stDone] 0
    else
      let y := Structure.settled { x with mask := BitVec.ofNat 8 mask }
      (s.updJob j.id (fun k => { k with structures := k.structures.map (fun z => if z.handle = h then y else z) })).reportStructure c y

/-- STRUCTURE_LOAD. -/
def State.structureLoad (s : State) (c : Cmd) : State :=
  match s.openJob? c.tag.jobId with
  | none => s.finish c.tag [stBadField] 0
  | some j =>
    let a := c.op 40 1
    let h := c.op 44 4
    let m := c.op 48 1
    if c.badLayout || decide (2 < a) || !c.zero 41 3 || !c.zero 49 15 || (a == 0 && h != 0) || (a != 2 && m != 0) then s.finish c.tag [stBadField] 0
    else if a = 0 then s.structureIn c j
    else s.structureChange c j (a == 1) h m

def execStructureLoad (t : Stitch) (src : Src) (io : HostIo) (s : State) : Host.Outcome State Fault Refusal :=
  s.host t src io 0x0040 false State.structureLoad

/-! ### DELTA_UPDATE (09 R263) -/

/-- The entries of a payload: position, whether the value is added, value. -/
def deltaEntries (d : List Byte) : List (Nat × Bool × Dword) :=
  (List.range (field d 8 4)).map (fun i => (field d (16 + 16 * i) 4, field d (20 + 16 * i) 1 == 1, BitVec.ofNat 64 (field d (24 + 16 * i) 8)))

/-- The header or an entry breaks R263. -/
def badDelta (d : List Byte) (len : Nat) (x : Structure) : Bool :=
  let n := field d 8 4
  field d 0 4 != 0x55445850 || n == 0 || len != 16 + 16 * n ||
  (List.range n).any (fun i => decide (x.nnz ≤ field d (16 + 16 * i) 4) || decide (1 < field d (20 + 16 * i) 1) || !zeroBytes d (21 + 16 * i) 3 ||
    !(fp64.decode (field d (24 + 16 * i) 8)).finite)

/-- An accepted DELTA_UPDATE applies once every operation accepted before it on its structure has ended (09 R262). -/
def State.takeDelta (s : State) (c : Cmd) (j : Job) (x : Structure) : State :=
  let after := (s.courses.filter (fun w => w.job == j.id && w.live && w.structs.contains x.handle)).map (·.id)
  let w := DeltaWait.mk c.tag after (deltaEntries c.data)
  (s.updJob j.id (fun k => { k with structures := k.structures.map (fun (y : Structure) =>
    if y.handle = x.handle then { y with deltas := y.deltas ++ [w] } else y) })).flushDeltas j.id

/-- DELTA_UPDATE.  The additions are checked when they apply; while a step keeps them from applying, on the committed values, since a result that
is not finite ranks before the open step (09 R263). -/
def State.deltaUpdate (s : State) (c : Cmd) : State :=
  match s.openJob? c.tag.jobId with
  | none => s.finish c.tag [stBadField] 0
  | some j =>
    let d := c.data
    if c.badLayout || !c.zero 40 24 || c.badPayload 16 then s.finish c.tag [stBadField] 0
    else match j.structures.find? (·.handle == field d 4 4) with
      | none => s.finish c.tag [stBadField] 0
      | some x =>
        let refuses := (applyEntries x.committed.values (deltaEntries d)).isNone
        match inOrder [(badDelta d c.payloadLen x, stBadField), (crc32c (d.drop 16) != field d 12 4, stBlockCheckFail),
            (x.stepWritten && refuses && (j.opened.isSome || j.committing.isSome), stBadField), (x.stepWritten && (j.opened.isSome || j.committing.isSome), stNoResource)] with
        | some k => s.finish c.tag [k] 0
        | none => s.takeDelta c j x

def execDeltaUpdate (t : Stitch) (src : Src) (io : HostIo) (s : State) : Host.Outcome State Fault Refusal :=
  s.host t src io 0x0041 false State.deltaUpdate

/-! ### SOLVE (09 R261, R282, R283) -/

/-- A tensor that a SOLVE names breaks R282: needed and absent, given and not needed, or of another form. -/
def Job.badVector (j : Job) (id : Nat) (formats : List Nat) (len : Nat) (need may gradient written : Bool) : Bool :=
  if id = 0 then need
  else !may || (match j.tensors.find? (fun t => t.id.toNat == id) with
    | none => true
    | some t => !formats.contains t.format || !exactly (some t) [len] || (gradient && t.kind != 4) || (written && t.stepWritten))

/-- The operands and the payload break R282 or R283. -/
def Job.badSolveCmd (j : Job) (c : Cmd) (x : Structure) : Bool :=
  let d := c.data
  let ph := c.op 44 1
  let fl := c.op 45 1
  let v := if bitOf fl 0 then [0x08, 0x0C] else [0x08]
  let solve := bitOf ph 2
  let adj := bitOf ph 3
  ph == 0 || decide (16 ≤ ph) || bitOf ph 0 || decide (4 ≤ fl) || (bitOf fl 0 && !x.fixedMode) || !([0, 2, 3].contains (c.op 46 1)) ||
  (decide (3 < c.op 47 1) && c.op 47 1 != 0xFF) || !c.zero 56 8 || c.badPayload 32 || !zeroBytes d 20 12 ||
  j.badVector (field d 0 4) v x.n (solve || adj) (solve || adj) false solve || j.badVector (field d 4 4) v x.n solve solve false false ||
  j.badVector (field d 8 4) [0x08] x.n adj adj true false || j.badVector (field d 12 4) [0x08] x.n adj adj true true ||
  j.badVector (field d 16 4) [0x08] x.nnz false adj true true

/-- The queued piece of work. -/
def State.newSolve (s : State) (c : Cmd) (j : Job) (x : Structure) : Course :=
  let d := c.data
  { id := s.nextId, kind := .solve, tag := c.tag, job := j.id, pattern := 0, patternTag := 0, target := 2, inStep := false, step := 0
    implicitStep := false, launchKind := 0, after := [], emit := none, fill := false, batchWait := 0, launchPoint := 0, launchStitch := none
    viewNo := none, needles := [], engines := bitsIn x.mask.toNat 8, links := [], panels := []
    bindings := ((List.range 5).filter (fun i => field d (4 * i) 4 != 0)).map (fun i => (i, BitVec.ofNat 32 (field d (4 * i) 4)))
    request := c.entry, status := .queued, stalled := [], ready := [], launchedUnits := [], launchedAt := none, startedAt := [], gatherSince := none, since := s.stitch
    batchWith := [], aborts := 0, abortCauses := [], excluded := [], firstLaunch := none, attempt := 0, staging := Overlay.empty
    finished := false, nonFinite := false, flags := [], maxima := [], els := [], adds := [], tiles := [], counted := [], wrote := [], run := none, slot0 := none, rx := [], sent := []
    acked := [], missedSlots := 0, awaiting := 0, shadow := [], shadowPorts := [], waitAcc := [], subs := [], swatchFailed := false, restartAt := none
    confined := false, accumOnly := false, canSend := false, structs := [x.handle], progress := [], places := [], srcs := [] }

/-- SOLVE. -/
def State.solveCmd (s : State) (c : Cmd) : State :=
  match s.openJob? c.tag.jobId with
  | none => s.finish c.tag [stBadField] 0
  | some j => match j.structures.find? (·.handle == c.op 40 4) with
    | none => s.finish c.tag [stBadField] 0
    | some x =>
      let busy := x.stepWritten && bitOf (c.op 44 1) 1 && (j.opened.isSome || j.committing.isSome)
      match firstFailure [(c.badLayout || j.badSolveCmd c x, stBadField), (busy, stNoResource)] with
      | some k => s.finish c.tag [k] 0
      | none =>
        let w := s.newSolve c j x
        if s.holdFull w then s.holdCommand c else s.enqueue w

def execSolve (t : Stitch) (src : Src) (io : HostIo) (s : State) : Host.Outcome State Fault Refusal :=
  s.host t src io 0x0042 false State.solveCmd

/-! ### HOLD_ENTRY_ACCEPT (01 R19) -/

/-- The rings that wait, in ring order. -/
def State.waitingRings (s : State) : List Nat := (List.range 32).filter (fun r => (s.ring r).waiting.isSome)

/-- The command that waits first is examined again from the start, now that hold entries may be free. -/
def State.holdAccept (s : State) (r : Nat) : State :=
  match s.waitingRings.head?, (s.ring r).waiting with
  | some r0, some w =>
    if r0 != r || s.dev.fwActivating then s
    else
      let c := s.cmd (.ring r) { payload := some w.payload, cplFault := w.cplFault } { entry := w.entry, sqHead := w.sqHead }
      let s1 := s.updRing r (fun g => { g with waiting := none })
      match opcodeRow (.ring r) c.tag.rev c.tag.opcode with
      | some op =>
        if s.jobFault c.tag op then s1.finish c.tag [stDeviceFault] 0
        else if op = 0x0042 then s1.solveCmd c else s1.courseSubmit c
      | none => s1
  | _, _ => s

def execHoldEntryAccept (t : Stitch) (r : Nat) (s : State) : Host.Outcome State Fault Refusal := s.act t (·.holdAccept r)

end Sys2Proof.Machine
end

