-- ==== Sys2Proof/Machine/Checkpoint.lean ====
section
/-! DEFINITION. CHECKPOINT and RESTORE (12 R354, R358 to R363; 03 R117; 08 R232; 09 R259; 13 R389). -/

namespace Sys2Proof.Machine

/-! ### Sections of an image (12 R360) -/

/-- The 96-byte descriptor of a mapped tensor (03 R96). -/
def Tensor.descBytes (t : Tensor) : List Byte :=
  record 96 ([(0, 4, t.id.toNat), (4, 1, t.format), (5, 1, t.rank), (6, 1, t.kind),
    (7, 1, (if t.stepWritten then 1 else 0) + (if t.hostWritable then 2 else 0)), (56, 8, t.base), (64, 8, t.length),
    (72, 2, t.stackMask.toNat), (76, 4, t.scaleId.toNat)] ++
    (List.range 4).map (fun i => (8 + 4 * i, 4, t.extent.getD i 0)) ++ (List.range 4).map (fun i => (24 + 8 * i, 8, t.stride.getD i 0)))

/-- Places of a factor's entries in the order in which the factor holds them: column by column, rows ascending. -/
def Structure.places (x : Structure) : List (Nat × Nat) :=
  let rows := x.rows
  (List.range x.n).flatMap (fun j =>
    ((List.range x.n).filter (fun i => (rows.getD i []).contains j && (x.kind != 1 || decide (j ≤ i)))).map (fun i => (i, j)))

/-- Where the arrays of a structure's section begin: column starts at 64, row indices, values, ranges, and what follows (log 18). -/
def rowsOff (n : Nat) : Nat := 64 + 4 * (n + 1)
def valuesOff (n nnz : Nat) : Nat := rowsOff n + 4 * nnz
def rangesOff (n nnz : Nat) : Nat := valuesOff n nnz + 8 * nnz
def factorOff (n nnz : Nat) (fixedMode : Bool) : Nat := rangesOff n nnz + (if fixedMode then 2 * n else 0)

/-- The data of a structure's section. -/
def Structure.sectionData (x : Structure) : List Byte :=
  let v := x.committed
  let rep := (v.factor.map (·.perturbed)).getD []
  record 64 [(0, 4, 0x54535850), (4, 2, 1), (6, 1, x.kind), (7, 1, (if x.stepWritten then 1 else 0) + (if x.fixedMode then 2 else 0)),
    (8, 4, x.n), (12, 4, x.nnz), (16, 8, x.regionBase), (24, 8, x.regionLength), (32, 1, x.mask.toNat), (36, 4, 64), (40, 4, rowsOff x.n),
    (44, 4, valuesOff x.n x.nnz), (48, 4, if x.fixedMode then rangesOff x.n x.nnz else 0), (56, 8, x.tag.toNat)] ++
  x.colptr.flatMap (le 4) ++ x.rowidx.flatMap (le 4) ++ v.values.flatMap (fun w => le 8 w.toNat) ++
  (if x.fixedMode then x.ranges.flatMap (fun r => le 1 (unsigned 8 r.1) ++ le 1 (unsigned 8 r.2)) else []) ++
  ((v.factor.map (·.entries)).getD []).flatMap (fun e => le 4 e.row ++ le 8 e.value.toNat) ++
  le 8 v.valueGen ++ le 8 x.factorGen ++ le 4 rep.length ++ rep.flatMap (le 4)

/-- The structure of a section.  The image does not say which values the factor was computed from, so whether it is stale is a free
value: `stale`. -/
def structBack (d : List Byte) (handle : Nat) (stale : Bool) : Structure :=
  let x := structOf d handle
  let o := factorOff x.n x.nnz x.fixedMode
  let ps := x.places
  let made := d.length != o + 20
  let q := if made then o + 12 * ps.length else o
  let gen := field d q 8
  let f := Factor.mk (ps.zipIdx.map (fun (p : (Nat × Nat) × Nat) => FEntry.mk p.1.1 p.1.2 (BitVec.ofNat 64 (field d (o + 12 * p.2 + 4) 8))))
    ((List.range (field d (q + 16) 4)).map (fun i => field d (q + 20 + 4 * i) 4)) (if stale then gen - 1 else gen) [] []
  { x with committed := { x.committed with valueGen := gen, factor := if made then some (f.analysed x.fixedMode x.ranges) else none }, factorGen := field d (q + 8) 8 }

/-- A history of a scale record; its format follows the mapping (08 R232). -/
def histBack (d : List Byte) : Hist :=
  { tensorId := BitVec.ofNat 32 (field d 0 4), format := 0, kind := field d 5 1, scaleCode := field d 7 1
    newestStep := if field d 6 1 = 0 then 0 else field d 8 8, maxima := (List.range (field d 6 1)).map (fun i => BitVec.ofNat 32 (field d (16 + 4 * i) 4)) }

/-- The scale state of a record (08 R232). -/
def scaleBack (d : List Byte) : Scale :=
  { g := signed 8 (field d 6 1), clean := field d 24 4, commits := field d 16 8, skips := field d 28 4
    lastStep := if field d 8 8 = counterMax then none else some (field d 8 8)
    hists := (List.range (field d 32 4)).map (fun i => histBack (slice d (40 + 80 * i) 80)) }

/-! ### CHECKPOINT (12 R358, R359) -/

/-- The operands of CHECKPOINT; on a revision-1 ring the operand word is the set, and the action and the flags are 0 (12 R358, R364). -/
def Cmd.ckptAction (c : Cmd) : Nat := if c.rev1 then 0 else c.op 40 1
def Cmd.ckptFlags (c : Cmd) : Nat := if c.rev1 then 0 else c.op 41 1
def Cmd.ckptSet (c : Cmd) : Nat := if c.rev1 then c.operand1 else c.op 42 2

/-- The operands of RESTORE; on a revision-1 ring the operand word is the set, and the selector is 0 (12 R362, R364). -/
def Cmd.restoreSet (c : Cmd) : Nat := if c.rev1 then c.operand1 else c.op 40 2
def Cmd.restoreSlot (c : Cmd) : Nat := if c.rev1 then 0 else c.op 42 1

/-- The module's device number; 0 outside a skein. -/
def State.deviceNo (s : State) : BitVec 16 := if s.skein.member then s.skein.device else 0

/-- The section of a tensor with its bytes as they stand in the latest contents. -/
def State.tensorSection (s : State) (kind : Nat) (t : Tensor) : Section :=
  Section.mk kind t.id.toNat (t.descBytes ++ Memory.readBytes s.mem.cells t.base t.length)

/-- The sections of a job's committed state: scale state, step-written tensors, free tensors where asked for, structures. -/
def State.ckptSections (s : State) (j : Job) (free : Bool) : List Section :=
  Section.mk 1 0 j.scaleAt.bytes :: (j.tensors.filter (·.stepWritten)).map (s.tensorSection 2) ++
  (if free then (j.tensors.filter (fun t => !t.stepWritten)).map (s.tensorSection 3) else []) ++
  j.structures.map (fun x => Section.mk 4 x.handle x.sectionData)

/-- A granule of a range is poisoned. -/
def State.rangePoisoned (s : State) (a n : Nat) : Bool := (s.firstPoison a n).isSome

/-- A section of a kind covers a poisoned granule. -/
def State.sectionPoisoned (s : State) (k : Ckpt) (kind : Nat) : Bool :=
  (k.sections.filter (·.kind == kind)).any (fun x => x.range.any (fun r => s.rangePoisoned r.1 r.2))

/-- The poisoned granules of the structure regions of an image. -/
def State.tablePoison (s : State) (k : Ckpt) : List Nat :=
  s.mem.poison.filter (fun g => (k.sections.filter (·.kind == 4)).any (fun x => x.range.any (fun r =>
    decide (r.1 < (g + 1) * granuleBytes) && decide (g * granuleBytes < r.1 + r.2))))

/-- The image as taken at acceptance; its slot and its sequence come later. -/
def State.newCkpt (s : State) (j : Job) (set flags : Nat) : Ckpt :=
  { set := set, slot := 0, latest := true, job := j.id, sequence := 0, viewStep := j.lastView, taken := s.stitch, device := s.deviceNo
    member := s.skein.member, memberCount := j.memberCount, seed := j.seed, flags := flags, sections := s.ckptSections j (bitOf flags 0) }

/-- The valid slots of a set. -/
def State.setSlots (s : State) (set : Nat) : List Ckpt := s.stash.ckpts.filter (·.set == set)

/-- A write of an image cannot begin. -/
def State.ckptFault (s : State) (k : Ckpt) : Option Nat :=
  let slots := s.setSlots k.set
  let older := ((slots.filter (fun x => !x.latest)).map Ckpt.length).sum
  firstFailure [(slots.any (fun x => x.latest && x.job != k.job), stBadField),
    (s.stash.readOnly || decide (s.ckptFree + older < k.length), stNoResource), (!s.stashOk, stDeviceFault)]

/-! ### One at a time (12 R358) -/

/-- Change the run at the head. -/
def State.setRun (s : State) (f : CkptRun → CkptRun) : State :=
  { s with stash := { s.stash with runs := match s.stash.runs with
      | [] => []
      | r :: rs => f r :: rs } }

/-- The run at the head ends. -/
def State.endRun (s : State) (r : CkptRun) (codes : List Nat) (result : Nat) : State :=
  (((({ s with stash := { s.stash with runs := s.stash.runs.tail } }).drainSpill).finish r.tag codes result).sweepViews r.job).tryClose r.job

/-- A write begins in the slot that does not hold the set's latest valid checkpoint, whose contents are lost; of two empty slots
either is taken. -/
def State.beginWrite (s : State) (r : CkptRun) (k : Ckpt) : State :=
  match s.ckptFault k with
  | some c => s.endRun r [c] 0
  | none =>
    let d := s.free
    let p := match (s.setSlots k.set).find? (·.latest) with
      | some x => (1 - x.slot, s)
      | none => (if d.1.getLsbD 0 then 1 else 0, d.2)
    ({ p.2 with stash := { p.2.stash with ckpts := p.2.stash.ckpts.filter (fun x => !(x.set == k.set && x.slot == p.1)) } }).setRun
      (fun r => { r with started := true, slot := p.1, image := some { k with slot := p.1 } })

/-- The slot a RESTORE names: 0 the latest valid one, 1 the other valid one. -/
def State.ckptSlotOf (s : State) (set selector : Nat) : Option Ckpt := (s.setSlots set).find? (fun x => x.latest == (selector == 0))

/-- The cut holds the module (13 R389). -/
def State.cutHeld (s : State) : Bool := (s.cut.map (fun x => x.phase == CutPhase.held)).getD false

/-- The job's work stands in the way of a RESTORE: under a cut only what runs, since what is queued is discarded. -/
def State.restoreBusy (s : State) (j : Job) : Bool :=
  ((j.opened.isSome || j.committing.isSome) && !s.cutHeld) ||
  s.courses.any (fun c => c.job == j.id && c.live && (c.running || !s.cutHeld)) || s.snaps.any (fun x => x.tag.jobId == j.id)

/-- A range of an image cannot be taken: it overlaps the staging pool or another job's ranges, or leaves the usable space. -/
def State.badRange (s : State) (j : Job) (r : Nat × Nat) : Bool :=
  decide (s.mem.limit * pageBytes < r.1 + r.2) || s.mem.holes.any (pageIn r.1 r.2) || overlaps r (j.stagingBase, j.stagingLength) ||
  (((s.jobs.filter (·.id != j.id)) ++ s.openings.map (·.job)).flatMap Job.ranges).any (overlaps r)

/-- Why a RESTORE of a job cannot begin (12 R362). -/
def State.restoreFault (s : State) (j : Job) (set selector : Nat) : Option Nat :=
  firstFailure [(s.restoreBusy j, stNoResource), (!s.stashOk, stDeviceFault), (match s.ckptSlotOf set selector with
    | none => true
    | some k => k.seed != j.seed || k.memberCount != j.memberCount || k.device != s.deviceNo || k.ranges.any (s.badRange j), stBadField)]

/-- Pages of the job's ranges that the host still reads as they were are shown as they are. -/
def State.showJob (s : State) (j : Job) : State :=
  let mine := fun p => j.ranges.any (fun r => pageIn r.1 r.2 p)
  { s with mem := { s.mem with hostOld :=
      (s.mem.hostOld.map (fun (e : Unseen) => { e with old := e.old.part (fun p => !mine p) })).filter (fun (e : Unseen) => !e.old.pages.isEmpty) } }

/-- Steps 2 and 3 of R363: what a cut holds is discarded, every tensor is unmapped and every structure released. -/
def State.clearJob (s : State) (j : Job) : State :=
  let s1 := if s.cutStops then s.closeUnderCut j else s
  ((s1.flushDeltas j.id).showJob j).updJob j.id (fun (k : Job) => { k with
    tensors := [], structures := [], views := [], working := none
    scale := j.tensors.foldl (fun sc t => sc.onUnmap t.id) k.scale })

/-- A RESTORE begins. -/
def State.beginRestore (s : State) (r : CkptRun) : State :=
  match s.job? r.job with
  | none => s.endRun r [stBadField] 0
  | some j => match s.restoreFault j r.set r.slot, s.ckptSlotOf r.set r.slot with
    | none, some k =>
      if !r.imageOk then s.lostPage.endRun r [stBlockCheckFail] 0
      else ((s.setRun (fun r => { r with started := true, image := some k })).clearJob j).serveDeferred
    | some c, _ => s.endRun r [c] 0
    | none, none => s.endRun r [stBadField] 0

/-- The next run begins, in acceptance order; one that cannot begin ends, and the one behind it is next. -/
def State.startRuns : Nat → State → State
  | 0, s => s
  | n + 1, s => match s.stash.runs with
    | [] => s
    | r :: _ =>
      if r.started then s
      else State.startRuns n (if r.restore then s.beginRestore r else match r.image with
        | some k => s.beginWrite r k
        | none => s.endRun r [stBadField] 0)

/-- Begin what may begin. -/
def State.nextRun (s : State) : State := State.startRuns s.stash.runs.length s

/-! ### The commands -/

/-- Action 0: the content is taken at acceptance, and the writing waits its turn. -/
def State.takeCkpt (s : State) (c : Cmd) (j : Job) (set flags : Nat) : State :=
  let k := s.newCkpt j set flags
  match s.ckptFault k with
  | some e => s.finish c.tag [e] 0
  | none =>
    let r : CkptRun := { tag := c.tag, restore := false, set := set, slot := 0, job := j.id, started := false, image := some k, imageOk := true
                         poisonHeld := s.sectionPoisoned k 2, poisonFree := s.sectionPoisoned k 3
                         poisonTables := s.tablePoison k }
    ({ s with stash := { s.stash with runs := s.stash.runs ++ [r] } }).nextRun

/-- An entry of the list (12 R361). -/
def Ckpt.listBytes (k : Ckpt) : List Byte :=
  record 48 [(0, 2, k.set), (2, 1, k.slot), (3, 1, if k.latest then 1 else 0), (4, 4, k.job.toNat), (8, 8, k.sequence),
    (16, 8, k.viewStep.getD counterMax), (24, 8, k.taken), (32, 8, k.length), (40, 2, k.device.toNat)]

/-- The list (12 R361). -/
def State.ckptList (s : State) : List Byte :=
  record 16 [(0, 4, 0x4C435850), (4, 4, s.stash.ckpts.length), (8, 8, s.ckptFree)] ++ s.stash.ckpts.flatMap Ckpt.listBytes

/-- Action 2. -/
def State.deleteSet (s : State) (c : Cmd) (set : Nat) : State :=
  match firstFailure [(s.stash.runs.any (·.set == set), stNoResource), (!s.stashOk, stDeviceFault)] with
  | some e => s.finish c.tag [e] 0
  | none => ({ s with stash := { s.stash with ckpts := s.stash.ckpts.filter (·.set != set) } }).wear.finish c.tag [stDone] 0

/-- How a CHECKPOINT or RESTORE that breaks its layout, or names no open job, ends: a lost Stash ranks higher (00 R9, R459). -/
def State.ckptRefusal (s : State) : Nat := primaryStatus (stBadField :: if s.stashOk then [] else [stDeviceFault])

/-- CHECKPOINT; a directory that the Stash cannot rebuild ends the listing with BLOCK_CHECK_FAIL (12 R353). -/
def State.checkpointCmd (s : State) (c : Cmd) : State :=
  let a := c.ckptAction
  let flags := c.ckptFlags
  let set := c.ckptSet
  let bad := c.badLayout || (!c.rev1 && !c.zero 44 20) || decide (2 < a) || (a == 1 && set != 0) ||
    (a != 1 && (set == 0 || decide (4095 < set))) || (a == 0 && decide (2 ≤ flags))
  if bad then s.finish c.tag [s.ckptRefusal] 0
  else if a = 1 then (if !s.stashOk then s.finish c.tag [stDeviceFault] 0
    else if c.stashBad then s.lostPage.finish c.tag [stBlockCheckFail] 0 else s.finishData c.tag [stDone] s.ckptList)
  else match s.openJob? c.tag.jobId with
    | none => s.finish c.tag [s.ckptRefusal] 0
    | some j => if a = 0 then s.takeCkpt c j set flags else s.deleteSet c set

def execCheckpoint (t : Stitch) (src : Src) (io : HostIo) (s : State) : Host.Outcome State Fault Refusal :=
  s.host t src io 0x0050 false State.checkpointCmd

/-- RESTORE (12 R362). -/
def State.restoreCmd (imageOk : Bool) (s : State) (c : Cmd) : State :=
  let set := c.restoreSet
  let sel := c.restoreSlot
  let bad := c.badLayout || (if c.rev1 then decide (4095 < set) else !c.zero 43 21) || decide (1 < sel)
  match s.openJob? c.tag.jobId with
  | none => s.finish c.tag [s.ckptRefusal] 0
  | some j =>
    if bad then s.finish c.tag [s.ckptRefusal] 0
    else match s.restoreFault j set sel with
      | some e => s.finish c.tag [e] 0
      | none =>
        let r : CkptRun := { tag := c.tag, restore := true, set := set, slot := sel, job := j.id, started := false, image := none, imageOk := imageOk
                             poisonHeld := false, poisonFree := false, poisonTables := [] }
        ({ s with stash := { s.stash with runs := s.stash.runs ++ [r] } }).nextRun

def execRestore (t : Stitch) (src : Src) (io : HostIo) (imageOk : Bool) (s : State) : Host.Outcome State Fault Refusal :=
  s.host t src io 0x0051 false (State.restoreCmd imageOk)

/-! ### CHECKPOINT_WRITE_DONE (12 R359) -/

/-- Of two byte strings, granule by granule, either where they differ. -/
def State.mixGranules (s : State) : Nat → List Byte → List Byte → List Byte × State
  | 0, _, _ => ([], s)
  | n + 1, was, now =>
    if was.take granuleBytes == now.take granuleBytes then
      let r := State.mixGranules s n (was.drop granuleBytes) (now.drop granuleBytes)
      (was.take granuleBytes ++ r.1, r.2)
    else
      let d := s.free
      let r := State.mixGranules d.2 n (was.drop granuleBytes) (now.drop granuleBytes)
      ((if d.1.getLsbD 0 then now.take granuleBytes else was.take granuleBytes) ++ r.1, r.2)

/-- The section of a free tensor as the copy caught it: a granule that changed since the acceptance is old or new. -/
def State.copySection (s : State) (x : Section) : Section × State :=
  if x.kind = 3 then
    let a := field x.data 56 8
    let n := field x.data 64 8
    let m := s.mixGranules (n / granuleBytes) (x.data.drop 96) (Memory.readBytes s.mem.cells a n)
    ({ x with data := x.data.take 96 ++ m.1 }, m.2)
  else (x, s)

/-- The sections as they are written. -/
def State.copySections (s : State) : List Section → List Section × State
  | [] => ([], s)
  | x :: xs =>
    let p := s.copySection x
    let r := State.copySections p.2 xs
    (p.1 :: r.1, r.2)

/-- Put a slot into the directory, in ascending order of set and slot. -/
def insertCkpt (k : Ckpt) : List Ckpt → List Ckpt
  | [] => [k]
  | x :: xs => if k.set < x.set ∨ (k.set = x.set ∧ k.slot < x.slot) then k :: x :: xs else x :: insertCkpt k xs

/-- The directory entry is written: the slot is valid and the set's latest. -/
def State.commitSlot (s : State) (r : CkptRun) (k : Ckpt) : State :=
  let n := s.stash.ckptSeq + 1
  let rest := s.stash.ckpts.map (fun (x : Ckpt) => if x.set = k.set then { x with latest := false } else x)
  let p := s.copySections k.sections
  ({ p.2 with stash := { p.2.stash with
      ckpts := insertCkpt { k with sequence := n, sections := p.1 } rest, ckptSeq := n
      bytesWritten := p.2.stash.bytesWritten + k.length } }).endRun r [stDone] n

/-- The copy met a poisoned granule: one that the held content had, one that a free tensor or a structure region had all the while; of others, which
came or went while the copy ran, it may have met one. -/
def State.copyPoisoned (s : State) (r : CkptRun) (k : Ckpt) : Bool × State :=
  let now := s.sectionPoisoned k 3
  if r.poisonHeld || (r.poisonFree && now) || r.poisonTables.any s.mem.poison.contains then (true, s)
  else if r.poisonFree || now || s.sectionPoisoned k 2 || s.sectionPoisoned k 4 then (s.free.1.getLsbD 0, s.free.2)
  else (false, s)

/-- A CHECKPOINT or RESTORE pauses while a stack that it needs is hot or retrains (12 R341, R348, R365). -/
def State.ckptPaused (s : State) (k : Ckpt) : Bool := k.ranges.any (fun r => s.hotRange r.1 r.2)

/-- A write of an image fails part way: no slot is committed. -/
def State.failWrite (s : State) (r : CkptRun) (k : Ckpt) : State :=
  let d := s.free
  ({ d.2 with stash := { d.2.stash with bytesWritten := d.2.stash.bytesWritten + d.1.toNat % (k.length + 1) } }).endRun r [stDeviceFault] 0

/-- CHECKPOINT_WRITE_DONE; the writing may have worn out blocks (12 R354). -/
def State.writeDone (s : State) (ok : Bool) : State :=
  match s.stash.runs with
  | [] => s
  | r :: _ =>
    match r.image with
    | none => s
    | some k =>
      if r.restore || !r.started || s.ckptPaused k then s
      else
        let p := s.copyPoisoned r k
        let x := p.2.flashWear
        if ok && p.2.stashOk && !p.1 then (x.commitSlot r k).nextRun else (x.failWrite r k).nextRun

def execCheckpointWriteDone (t : Stitch) (ok : Bool) (s : State) : Host.Outcome State Fault Refusal := s.act t (·.writeDone ok)

/-! ### RESTORE_DONE (12 R363) -/

/-- Write bytes of an image where courses and the host read them; every full granule loses its poison (12 R343). -/
def State.loadBytes (s : State) (a : Nat) (bs : List Byte) : State := (s.hostStoreAll (fun _ => true) a bs).clearPoison a bs.length

/-- Poison the granules of a range from a byte on, with an event for each page. -/
def State.poisonFrom (s : State) (a n done : Nat) : State :=
  (List.range (n / pageBytes + 2)).foldl (fun (x : State) i =>
    let p := pageOf a + i
    let gs := ((List.range 32).map (fun g => 32 * p + g)).filter (fun g => decide (a ≤ g * granuleBytes) && decide ((g + 1) * granuleBytes ≤ a + n) &&
      decide (a + done < (g + 1) * granuleBytes) && !x.mem.poison.contains g)
    if gs.isEmpty then x
    else ({ x with mem := { x.mem with poison := gs ++ x.mem.poison } }).memEvent 3 (x.pageStack p) (p * pageBytes) 0 gs.length) s

/-- Load one section of a tensor or a structure of which `done` data bytes passed their check. -/
def State.loadSection (s : State) (job : Word) (x : Section) (done : Nat) : State :=
  if x.kind = 2 ∨ x.kind = 3 then
    let t := tensorOf (x.data.take 96)
    let n := min (done - 96) t.length
    let s1 := s.updJob job (fun (j : Job) => { j with tensors := j.tensors.filter (·.id != t.id) ++ [t] })
    (s1.loadBytes t.base ((x.data.drop 96).take n)).poisonFrom t.base t.length n
  else if x.kind = 4 then
    let r := (field x.data 16 8, field x.data 24 8)
    if x.data.length ≤ done then
      let d := s.free
      let y := structBack x.data x.id (d.1.getLsbD 0)
      (d.2.updJob job (fun (j : Job) => { j with
        structures := j.structures.filter (·.handle != y.handle) ++ [y], nextStructure := max j.nextStructure (y.handle + 1) })).clearPoison r.1 r.2
    else s.poisonFrom r.1 r.2 0
  else s

/-- Load the sections; of the first bad one the chunks before some chunk are good. -/
def State.loadSections (s : State) (job : Word) (bad : Option Nat) : Nat → List Section → State
  | _, [] => s
  | i, x :: xs =>
    let s1 := match bad with
      | none => s.loadSection job x x.data.length
      | some b =>
        if i < b then s.loadSection job x x.data.length
        else if i = b then s.free.2.loadSection job x (s.free.1.toNat % max x.chunks 1 * chunkBytes)
        else s.loadSection job x 0
    State.loadSections s1 job bad (i + 1) xs

/-- The scale state is reinstated; histories take the formats of the mapped tensors (08 R232, R234). -/
def State.setScale (s : State) (job : Word) (sc : Scale) : State :=
  s.updJob job (fun (j : Job) => { j with scale := j.tensors.foldl Scale.onMap sc, scaleAt := j.tensors.foldl Scale.onMap sc })

/-- The last committed step before a view: the view's own, or an earlier one when the steps that led to the view were skips; a free
value within the number of skips. -/
def State.lastCommit (s : State) (k : Ckpt) (sc : Scale) : Option Nat :=
  if sc.commits = 0 then none else k.viewStep.map (fun v => v - s.free.1.toNat % (sc.skips + 1))

/-- The view and the step that must follow it (12 R363 step 6). -/
def State.setView (s : State) (job : Word) (k : Ckpt) (sc : Scale) : State :=
  s.free.2.updJob job (fun (j : Job) => { j with
    lastView := k.viewStep, lastCommitted := s.lastCommit k sc, views := []
    nextStep := match k.viewStep with
      | some v => v + 1
      | none => j.firstStep })

/-- The scale record of an image. -/
def Ckpt.scale (k : Ckpt) : Scale := ((k.sections.find? (·.kind == 1)).map (fun x => scaleBack x.data)).getD Scale.new

/-- A section that is the scale state fails last, after everything is loaded. -/
def Ckpt.badLoad (k : Ckpt) (bad : Option Nat) : Option Nat :=
  bad.filter (fun b => ((k.sections[b]?).map (fun x => x.kind != 1)).getD true)

/-- A RESTORE ends with its first bad section, or well. -/
def State.endRestore (s : State) (r : CkptRun) (k : Ckpt) (bad : Option Nat) (code : Nat) : State :=
  let s1 := s.loadSections r.job (k.badLoad bad) 0 k.sections
  match bad with
  | some _ => ((s1.setScale r.job Scale.new).endRun r [code] 0).nextRun
  | none => (((s1.setScale r.job k.scale).setView r.job k k.scale).endRun r [stDone] k.sequence).nextRun

/-- A RESTORE fails part way: what the Stash had given by then is loaded, a free number of sections. -/
def State.failRestore (s : State) (r : CkptRun) (k : Ckpt) : State :=
  s.free.2.endRestore r k (some (s.free.1.toNat % (k.sections.length + 1))) stDeviceFault

/-- RESTORE_DONE; it fails when the Stash has failed. -/
def State.restoreDone (s : State) (bad : Option Nat) : State :=
  match s.stash.runs with
  | [] => s
  | r :: _ =>
    match r.image with
    | none => s
    | some k =>
      if !r.restore || !r.started || s.ckptPaused k then s
      else if s.stashOk then (if bad.isSome then s.lostPage else s).flashWear.endRestore r k bad stBlockCheckFail
      else s.failRestore r k

def execRestoreDone (t : Stitch) (firstBadSection : Option Nat) (s : State) : Host.Outcome State Fault Refusal := s.act t (·.restoreDone firstBadSection)

end Sys2Proof.Machine
end

