-- ==== Sys2Proof/Machine/Launch.lean ====
section
/-! DEFINITION. Launching courses on needles and seam links: readiness, substituted needles, joint launches, fill batches, what a
launch books and traces, and the computing of a launch into staging (03 R82, R85, R101, R112, R118; 04 R135, R142 to R146; 05 R170 to
R172, R175, R178, R460; 10 R306; 11 R322; 15 R416, R417, R427, R429). -/

namespace Sys2Proof.Machine

/-! ### Units that are free (05 R460) -/

/-- SELF_TEST has taken a unit (13 R381). -/
def State.underTest (s : State) (u : Nat) : Bool :=
  s.selfTests.any (fun r => r.targets.any (fun t => t.unit == u && t.taken.isSome && t.released.isNone))

/-- The logical needles of a course in a panel. -/
def Course.inPanel (c : Course) (p : Nat) : List Nat := c.needles.filter (fun l => c.place l == p)

/-- The physical needles that run their own shards in a panel. -/
def State.ownIn (s : State) (c : Course) (p : Nat) : List Nat := (c.inPanel p).filterMap (s.ownNeedle c)

/-- The needle outside the set that runs a panel's shards when the course has no needle of its own there: the lowest-numbered enabled
one (05 R175 rule 3, R178).  Otherwise another needle of the course runs what has no needle, and takes no further one (rule 2). -/
def State.subsIn (s : State) (c : Course) (p : Nat) : List Nat :=
  if !(s.ownIn c p).isEmpty then []
  else (((List.range 12).map (12 * p + ·)).find? (fun u => (s.needle u).serves && !c.excluded.contains u)).toList

/-- The physical needles that a course takes in a panel. -/
def State.takes (s : State) (c : Course) (p : Nat) : List Nat := s.ownIn c p ++ s.subsIn c p

/-- A needle of a panel is under test, so the panel's launch queue holds (13 R381). -/
def State.panelTested (s : State) (p : Nat) : Bool := (List.range 12).any (fun i => s.underTest (12 * p + i))

/-- The needles, the engine or the link that a course needs are free of earlier courses, and no test holds the queue; collectives share links. -/
def State.unitFree (s : State) (c : Course) : LUnit → Bool
  | .panel p => !(s.takes c p).isEmpty && (s.takes c p).all (fun u => (s.onNeedle u).isNone) && !s.panelTested p
  | .engine e => (s.onUnit (.engine e)).isNone && !s.underTest (144 + e)
  | .link _ => true

/-- A unit is ready for a course (04 R143). -/
def State.unitReady (s : State) (c : Course) (u : LUnit) : Bool :=
  (s.queue u).head? == some c.id && s.markersDone c u && s.unitFree c u && s.awake u

/-! ### Launch conditions (03 R101, R112; 04 R142 to R145) -/

/-- The point of a timed course has come, for a joint launch the shared stitch. -/
def State.pointCome (s : State) (c : Course) : Bool :=
  if c.joint then (match c.sharedStitch with
    | some t => decide (t ≤ s.stitch)
    | none => false)
  else s.pointReached c

/-- A REDUCE of a step waits for the needle and engine courses of the step accepted before it (11 R322). -/
def State.reduceHold (s : State) (c : Course) : Bool :=
  c.inStep && c.target == 4 && (s.colls c).any (fun k => k.kind == 0) &&
  (s.stepCourses c.job c.step).any (fun d => decide (d.id < c.id) && d.target != 4 && !d.finished)

/-- Launches are held: by heat or power, by a cut, a handover or a module that issues nothing unless the course runs on another panel
already, by an expired holdover, by a commit before it, or by R322. -/
def State.launchHeld (s : State) (c : Course) : Bool :=
  s.pw.launchHold || s.pw.thermalHold || (s.launchesStopped && !c.running) || (decide (2 ≤ c.launchKind) && s.time.expired) ||
  s.commitHold c || s.reduceHold c

/-- The units that launch together: one panel; every engine or every link. -/
def Course.together (c : Course) (u : LUnit) : List LUnit := if c.target = 1 then [u] else c.units

/-- A course may launch on a unit now. -/
def State.mayLaunch (s : State) (c : Course) (u : LUnit) : Bool :=
  (c.status == .queued || c.running) && (c.together u).all (fun v => s.unitReady c v && !c.launchedUnits.contains v) && !s.launchHeld c &&
  s.pointCome c

/-! ### What a launch books and traces (04 R145; 15 R417, R427, R429) -/

/-- A launch: its stitch, its lateness, and whether it counts as missed. -/
structure LaunchTime where
  stitch : Nat
  late : Nat
  missed : Bool

/-- A stitch is within the first core cycle of a unit that reaches a point. -/
def State.onTime (s : State) (u point : Nat) : Bool := decide ((s.stitch - point) * s.clockOf u < 1000)

/-- The launch stitch of a course that launches now on a unit (04 R142); a rerun after a frog is not missed (04 R145). -/
def State.launchTime (s : State) (c : Course) (u : Nat) : LaunchTime :=
  match c.launchStitch with
  | none => { stitch := s.stitch, late := 0, missed := false }
  | some l =>
    let sh := (if c.joint then c.sharedStitch else none).getD l
    if sh = l && s.onTime u l then { stitch := l, late := 0, missed := false }
    else
      let x := if l < sh && s.onTime u sh then sh else s.stitch
      { stitch := x, late := x - l, missed := c.attempt == 0 && c.firstLaunch.isNone }

/-- A missed launch (04 R145; 15 R421 to R423). -/
def State.missLaunch (s : State) (c : Course) : State :=
  let fresh := if s.time.missedAt = s.stitch then s.time.missedFresh else 0
  let s1 := ({ s with time := { s.time with missed := satAdd 32 s.time.missed 1, missedFresh := fresh + 1, missedAt := s.stitch } }).raiseTiming 4
  ((s1.count 18 1).countJob c.job 4 1).countUnit (s.lowestUnit c) 11 1

/-- The first launch of a course on any unit: the committed view that an unstepped course reads is settled (03 R118), the launch is
traced, and a late one counted; a rerun after a fault launches with nothing new. -/
def State.firstLaunch (s : State) (c : Course) (u : Nat) : State :=
  let lt := s.launchTime c u
  let view := if c.inStep then c.viewNo else some (c.viewNo.getD (((s.job? c.job).map Job.latest).getD counterMax))
  let s1 := s.updCourse c.id (fun c => { c with launchedAt := some lt.stitch, firstLaunch := some (c.firstLaunch.getD lt.stitch), viewNo := view })
  let s2 := if c.kind = .solve then s1
    else s1.traceRec (some c.job) 0x04 (s.lowestUnit c) lt.stitch true
      (tracePayload c.job.toNat c.markField c.stepField c.patternTag.toNat (c.launchStitch.getD lt.stitch) lt.late 0)
  if lt.missed then s2.missLaunch c else s2

/-- An idle test item on a needle that a course takes is abandoned (13 R375). -/
def State.dropItem (s : State) (u : Nat) : State :=
  match (s.needle u).item with
  | some _ => s.updNeedle u (fun n => { n with item := none, abandoned := n.abandoned + 1 })
  | none => s

/-- The core cycles, in thousandths, that a panel's die has counted (05 R174). -/
def State.diesCycles (s : State) (p : Nat) : Nat := if p < 6 then s.pw.cyclesW else s.pw.cyclesE

/-- A course leaves the queues of units and runs there. -/
def State.start (s : State) (c : Course) (us : List LUnit) : State :=
  let subs := us.flatMap (fun u => match u with
    | .panel p => s.subsIn c p
    | _ => [])
  let lead := leastUnit (s.lowestUnit c) (us.map (s.unitNumbers { c with subs := subs })).flatten
  let s1 := if c.launchedUnits.isEmpty then s.firstLaunch c lead else s
  let s2 := s1.endWaits c us
  let s3 := us.foldl (fun x u => x.leaveQueue u c.id) s2
  let began := us.filterMap (fun u => match u with
    | .panel p => some (p, s.diesCycles p)
    | _ => none)
  let s4 := s3.updCourse c.id (fun c =>
    { c with launchedUnits := c.launchedUnits ++ us, startedAt := c.startedAt.filter (fun e => !began.any (·.1 == e.1)) ++ began, status := if c.status = .waitPages then .waitPages else .launched, subs := c.subs ++ subs })
  (us.flatMap (fun u => match u with
    | .panel p => s.takes c p
    | _ => [])).foldl State.dropItem s4

/-! ### Computing a launch (03 R82, R85) -/

/-- The pages that one overlay adds to another. -/
def Overlay.added (o old : Overlay) : Overlay := { pages := o.pages.filter (fun p => !old.pages.contains p), cells := [] }

/-- Bring a page into the outermost overlay. -/
def View.touch (v : View) (p : Nat) : View :=
  match v.ovs with
  | [] => v
  | o :: os => if o.pages.contains p then v
               else { v with ovs := { pages := p :: o.pages, cells := Memory.put o.cells (View.pageCells os v.base p) } :: os }

/-- The results of a launch enter the course when the pool has the pages, else the unit stalls and waits with those that the pool still had,
each a copy of its page (03 R82, R85). -/
def State.keepStaging (s : State) (c : Course) (j : Job) (u : LUnit) (o : Overlay) (put : Course → Course) : State :=
  if s.poolServes j (o.added c.staging) then
    s.updCourse c.id (fun d =>
      let rest := d.stalled.filter (· != u)
      { put d with staging := o, stalled := rest, status := if rest.isEmpty then .launched else .waitPages })
  else
    let got := (s.poolGives j [] (o.added c.staging).pages).foldl View.touch (s.courseView c)
    s.updCourse c.id (fun d =>
      { d with staging := got.ovs.headD d.staging, stalled := if d.stalled.contains u then d.stalled else d.stalled ++ [u], status := .waitPages })

/-- A panel runs its shards of a course. -/
def State.runPanel (s : State) (id p : Nat) : State :=
  match s.course? id with
  | none => s
  | some c => match s.job? c.job with
    | none => s
    | some j =>
      let x := s.ctx c j (c.inPanel p)
      let d := x.runAll { view := x.view, wrote := c.wrote, els := c.els, adds := c.adds, flags := [], tiles := [] }
      let s1 := s.keepStaging c j (.panel p) (d.view.ovs.headD Overlay.empty) (fun c =>
        { c with wrote := d.wrote, els := d.els, adds := d.adds, flags := c.flags ++ d.flags, tiles := c.tiles ++ d.tiles })
      ({ s1 with freeCtr := s.freeCtr + launchDraws }).fillStores (s.takes c p) [p]

/-! ### Links (10 R306; 11 R321, R330) -/

/-- The device pages of some bytes. -/
def pagesOf (bytes : List Nat) : List Nat := (bytes.map pageOf).dedup

/-- The bytes that a record writes here. -/
def Coll.targets (k : Coll) : List Nat :=
  match k.dst with
  | none => []
  | some t =>
    let w := fmtBits t.format
    if k.kind = 3 then (if k.receives then (List.range t.length).map (t.base + ·) else [])
    else
      let is := if k.kind = 2 then (k.runs.filter (fun q => q.dst == k.net.device.toNat)).flatMap (fun q => (List.range q.length).map (q.dstIndex + ·))
        else List.range t.count
      is.flatMap (fun i => elemBytes (t.bitAt (t.coordAt i)) w)

/-- What a record takes when its course launches: a PERMUTE takes its destination as it stood; bytes that another record of the course
writes are free values (03 R104). -/
def Coll.take (k : Coll) (others : List Nat) (base : Nat) : SrcData :=
  let x := k.x
  let dirty := fun (a w : Nat) => (elemBytes a w).any others.contains
  let pick := fun (i a w bits : Nat) => if dirty a w then (Config.freeBits (base + k.r.index * 2 ^ 64 + i)).toNat % 2 ^ w else bits
  match (if k.kind = 2 then k.dst else k.src) with
  | none => { record := k.r.index, scale := 0x7F, bits := [] }
  | some t =>
    if k.kind = 3 then
      { record := k.r.index, scale := 0x7F
        bits := if k.receives then [] else (List.range t.length).map (fun i => pick i (8 * (t.base + i)) 8 ((x.view.read (t.base + i)).toNat)) }
    else
      { record := k.r.index, scale := x.scaleCode k.r.index 0 t [0, 0, 0, 0]
        bits := (List.range t.count).map (fun i => pick i (t.bitAt (t.coordAt i)) (fmtBits t.format) (x.bits k.r.index 0 t (t.coordAt i))) }

/-- Slot 0 of a course's plan: from the launch point, or from the SKEIN markers it names (10 R306). -/
def Course.planSlot0 (c : Course) (j : Job) : Option Nat :=
  let up := fun n => (n + 2047) / 2048 * 2048
  if !((opRecs (j.image c)).any (fun r => r.op == 0x0030 && r.constRef != 0 && r.par 0 1 != 3)) then none
  else if 2 ≤ c.launchKind then c.launchStitch.map up
  else
    let ts := c.after.filterMap (fun a => (j.named a.1 a.2).bind (fun e => match e.status with
      | .complete t => if e.scope = 3 then some t else none
      | _ => none))
    some (up (ts.foldl max 0 + 32768))

/-- The thermal step of the hottest stack that a record's source lies on (10 R307; 12 R347). -/
def State.heatOf (s : State) (k : Coll) : Nat :=
  let t := if k.kind = 2 then k.dst else k.src
  match t with
  | none => 0
  | some t => ((pagesOf ((List.range ((t.length + pageBytes - 1) / pageBytes)).map (fun i => t.base + i * pageBytes))).map
      (fun p => (s.mem.stackTab.getD (s.pageStack p) Stack.reset).step)).foldl max 0

/-- The payload of a frame that a transmit buffer holds. -/
def Link.buffered (l : Link) (course : Nat) (key : BitVec 16 × Word × Word) : Option (List Byte) :=
  (l.txbuf.find? (fun b => b.course == course && b.key == key)).map (·.payload)

/-- A course has a frame that it can send: unsent, its data here, and in a transmit buffer or served by memory (11 R335). -/
def State.maySend (s : State) (c : Course) : Bool :=
  (s.sends c).any (fun e => !c.sent.contains e.key &&
    (s.links.any (fun l => (l.buffered c.id e.key).isSome) || ((e.k.payload e.p e.i).isSome && decide (s.heatOf e.k < 4))))

/-- The links take what a course sends, copy the pages it writes, and wait for the frames it expects. -/
def State.runLinks (s : State) (id : Nat) : State :=
  match s.course? id with
  | none => s
  | some c => match s.job? c.job with
    | none => s
    | some j =>
      let ks := s.colls c
      let srcs := ks.map (fun k => k.take ((ks.filter (fun q => q.r.index != k.r.index)).flatMap Coll.targets) s.freeCtr)
      let v := (pagesOf (ks.flatMap Coll.targets)).foldl View.touch (s.courseView c)
      let need := ((s.expects c).filter (fun e => !c.rx.any (fun r => (r.1, r.2.1) == e))).length
      let s1 := s.keepStaging c j (.link (c.links.headD 0)) (v.ovs.headD Overlay.empty) (fun c => { c with srcs := srcs, slot0 := c.planSlot0 j, awaiting := need })
      let s2 := { s1 with freeCtr := s.freeCtr + launchDraws }
      s2.updCourse id (fun d => { d with canSend := s2.maySend d })

/-! ### Fill batches (05 R170 to R172) -/

/-- The rows of a batchable course: the m of its first array operation; DESIGN CHOICE (log 130): 0 for a pattern without one, for which the rule
names no rows. -/
def State.batchRows (s : State) (c : Course) : Nat :=
  match s.job? c.job with
  | none => 0
  | some j => match (opRecs (j.image c)).find? (fun r => r.op == 0x0001 || r.op == 0x0002) with
    | some r => if r.op = 0x0001 then r.par 0 4 else r.par 4 4
    | none => 0

/-- The tensors that a course binds to the slots used as src_b. -/
def State.weightBindings (s : State) (c : Course) : List (Option Word) :=
  match s.job? c.job with
  | none => []
  | some j => ((opRecs (j.image c)).filter (fun r => r.b != noSlot)).map (fun r => c.bindings.lookup r.b)

/-- Courses stand in this order directly behind one another in a panel's queue. -/
def State.inRow (s : State) (ids : List Nat) (p : Nat) : Bool :=
  ((s.queue (.panel p)).dropWhile (fun i => some i != ids.head?)).take ids.length == ids

/-- A course may join the batch of a head course in a panel. -/
def State.joins (s : State) (head c : Course) (p : Nat) : Bool :=
  let view := fun (c : Course) => c.viewNo.getD (((s.job? c.job).map Job.latest).getD counterMax)
  c.fill && c.job == head.job && c.pattern == head.pattern && c.needles == head.needles && c.inStep == head.inStep && c.step == head.step &&
  (c.inStep || view c == view head) && s.weightBindings c == s.weightBindings head && s.markersDone c (.panel p) && !s.launchHeld c

/-- The courses behind the head that join it, and whether the batch is closed: full, or followed by one that cannot join. -/
def State.gatherFrom (s : State) (head : Course) (p rows n : Nat) : List Course → List Course × Bool
  | [] => ([], decide (64 ≤ rows) || decide (64 ≤ n))
  | c :: cs =>
    let m := rows + s.batchRows c
    if s.joins head c p && decide (m ≤ 64) && decide (n < 64) then
      let r := State.gatherFrom s head p m (n + 1) cs
      (c :: r.1, r.2)
    else ([], true)

/-- The stitch at which the condition of the course at the head of a panel's queue first held: an ASAP course reached the head, the markers of
another had completed, a PANEL marker in this panel, and it stood in the queue (03 R101, R105; 05 R171, R460). -/
def State.conditionSince (s : State) (c : Course) (p : Nat) : Nat :=
  let es := match s.job? c.job with
    | some j => c.after.filterMap (fun (a : Word × Nat) => j.named a.1 a.2)
    | none => []
  (es.map (fun e => e.doneAt (.panel p))).foldl max (if c.launchKind = 0 then max c.since (s.headAt.getD p 0) else c.since)

/-- batch_max_wait stitches have passed since the head course's condition first held (05 R171). -/
def State.waitedOut (s : State) (head : Course) (p : Nat) : Bool := decide (s.conditionSince head p + head.batchWait ≤ s.stitch)

/-- The batch at the head of a panel's queue and whether it launches without waiting.  A batch of several panels forms of courses that stand
directly behind one another in the queue of each; in a further panel it launches there once the condition of each of its courses holds in that
panel, so that no queue is reordered (01 R19; 03 R105; 05 R170, R171, R460). -/
def State.batchAt (s : State) (head : Course) (p : Nat) : List Course × Bool :=
  let behind := ((s.queue (.panel p)).drop 1).filterMap s.course?
  if !head.fill then ([], true)
  else if !head.launchedUnits.isEmpty then
    let cs := behind.takeWhile (fun c => head.batchWith.contains c.id)
    (cs, cs.all (fun c => s.markersDone c (.panel p) && !s.launchHeld c))
  else if head.batchWait = 0 then ([], true)
  else
    let b := s.gatherFrom head p (s.batchRows head) 1 behind
    let row := (b.1.zipIdx.takeWhile (fun q => head.panels.all (s.inRow ((head :: b.1.take (q.2 + 1)).map (·.id))))).map (·.1)
    (row, b.2 || s.waitedOut head p || row.length != b.1.length)

/-! ### COURSE_LAUNCH, PANEL_READY_REPORT, BATCH_WAIT_EXPIRY, STAGING_PAGE_AVAILABLE -/

/-- A course that a rerun has put between the courses of a batch in a further panel parts them: those behind it go on as a batch of their own. -/
def State.unbatch (s : State) (ids : List Nat) : State :=
  { s with courses := s.courses.map (fun (d : Course) => if ids.contains d.id then d else { d with batchWith := d.batchWith.filter (fun i => !ids.contains i) }) }

/-- The courses of a batch launch in a panel, each computing as if alone (05 R172).  DESIGN CHOICE (log 114): the rows of a member form tiles
of its own, so the sample counters and the flag records count the tiles of each course as if it had run alone. -/
def State.launchBatch (s : State) (cs : List Course) (p : Nat) : State :=
  let ids := cs.map (·.id)
  cs.foldl (fun x c =>
    let y := (x.start c [.panel p]).runPanel c.id p
    y.updCourse c.id (fun d => { d with batchWith := if d.fill then ids.filter (· != d.id) else [], gatherSince := none })) (s.unbatch ids)

/-- The head course of a queue launches when it may; a batch that is not closed starts to gather. -/
def State.courseLaunch (s : State) (u : LUnit) : State :=
  match s.headCourse u with
  | none => s
  | some c =>
    if !s.mayLaunch c u then s
    else match u with
      | .panel p =>
        let b := s.batchAt c p
        if b.2 then s.launchBatch (c :: b.1) p
        else if c.gatherSince.isNone then s.updCourse c.id (fun c => { c with gatherSince := some s.stitch }) else s
      | .link _ => (s.start c c.units).runLinks c.id
      | .engine _ => s

/-- COURSE_LAUNCH. -/
def execCourseLaunch (t : Stitch) (u : LUnit) (s : State) : Host.Outcome State Fault Refusal := s.act t (·.courseLaunch u)

/-- PANEL_READY_REPORT: a unit of a joint launch is ready (04 R143). -/
def State.readyReport (s : State) (id : Nat) (u : LUnit) : State :=
  match s.course? id with
  | none => s
  | some c =>
    if c.joint && c.status == .queued && c.unready.contains u && s.unitReady c u then s.updCourse id (fun c => { c with ready := c.ready ++ [(u, s.stitch)] })
    else s

def execPanelReadyReport (t : Stitch) (course : Nat) (u : LUnit) (s : State) : Host.Outcome State Fault Refusal := s.act t (·.readyReport course u)

/-- BATCH_WAIT_EXPIRY: the batch at the head of a panel's queue has gathered for batch_max_wait stitches (05 R171). -/
def State.batchExpiry (s : State) (p : Nat) : State :=
  match s.headCourse (.panel p) with
  | none => s
  | some c =>
    if c.fill && s.waitedOut c p && s.mayLaunch c (.panel p) then s.launchBatch (c :: (s.batchAt c p).1) p else s

def execBatchWaitExpiry (t : Stitch) (p : Nat) (s : State) : Host.Outcome State Fault Refusal := s.act t (·.batchExpiry p)

/-- The waits for staging pages of the units that continue are traced, and go from the course. -/
def State.endPageWaits (s : State) (c : Course) : State :=
  let es := c.waitAcc.filter (fun e => waitCause e.key == 3)
  let s1 := es.foldl (fun x e => x.endWait c e) s
  s1.updCourse c.id (fun d => { d with waitAcc := d.waitAcc.filter (fun e => waitCause e.key != 3) })

/-- A stalled unit tries again; its wait is over once no unit of the course stalls. -/
def State.retryUnit (s : State) (id : Nat) (u : LUnit) : State :=
  match u with
  | .panel p => s.runPanel id p
  | .link _ => s.runLinks id
  | .engine _ => s.updCourse id (fun d => { d with stalled := [], status := .launched })

/-- A course that waits for pages tries again. -/
def State.retryCourse (s : State) (c : Course) : State :=
  let s1 := c.stalled.foldl (fun x u => x.retryUnit c.id u) s
  match s1.course? c.id with
  | some d => if d.status = .launched then s1.endPageWaits d else s1
  | none => s1

/-- STAGING_PAGE_AVAILABLE: the courses of the job that wait for pages try again in acceptance order (03 R85). -/
def State.pageAvailable (s : State) (job : Word) : State :=
  (s.courses.filter (fun c => c.job == job && c.status == .waitPages)).foldl State.retryCourse s

def execStagingPageAvailable (t : Stitch) (job : Word) (s : State) : Host.Outcome State Fault Refusal := s.act t (·.pageAvailable job)

end Sys2Proof.Machine
end

