-- ==== Sys2Proof/Machine/Runs.lean ====
section
/-! DEFINITION. Operations of the cable engines while they run: what a SOLVE_STEP record or a SOLVE asks for, deadlines, the start of an
operation, and its results as writes (09 R260, R261, R264, R272, R276 to R285). -/

namespace Sys2Proof.Machine

/-! ### What is asked for (09 R281, R283) -/

/-- An operation on a structure: its record's index and its tensors. -/
structure SolveSpec where
  op : Nat
  handle : Nat
  phases : Nat
  flags : Nat
  kind : Nat
  steps : Nat
  rel : Nat
  value : Nat
  x : Option Tensor
  b : Option Tensor
  g : Option Tensor
  lam : Option Tensor
  gradA : Option Tensor
  deltas : List (Int × Dword)
  report : Option Tensor

/-- The entries that the delta phase takes (09 R264). -/
def Ctx.deltas (x : Ctx) (r : OpRec) : List (Int × Dword) :=
  match x.tensor? r.b, x.tensor? r.c with
  | some v, some p =>
    let n := v.ext 0
    let count := match x.tensor? (r.par 16 2) with
      | some t => min (signed 32 (x.bits r.index 0 t [0, 0, 0, 0])).toNat n
      | none => n
    (List.range count).map (fun i => (signed 32 (x.bits r.index 0 p [i, 0, 0, 0]), BitVec.ofNat 64 (x.bits r.index 0 v [i, 0, 0, 0])))
  | _, _ => []

/-- What a SOLVE_STEP record asks for. -/
def Ctx.specOf (x : Ctx) (r : OpRec) : SolveSpec :=
  { op := r.index, handle := r.par 0 4, phases := r.par 4 1, flags := r.par 5 1, kind := r.par 6 1, steps := r.par 7 1, rel := r.par 8 8
    value := ((x.tensor? (r.par 24 2)).map (fun t => x.bits r.index 0 t [0, 0, 0, 0])).getD 0
    x := x.tensor? r.dst, b := x.tensor? r.a, g := x.tensor? (r.par 18 2), lam := x.tensor? (r.par 20 2), gradA := x.tensor? (r.par 22 2)
    deltas := if bitOf (r.par 4 1) 0 then x.deltas r else [], report := x.tensor? (r.par 26 2) }

/-- What a SOLVE asks for: its entry's operands and the tensors of its payload. -/
def Ctx.specOfSolve (x : Ctx) (e : List Byte) : SolveSpec :=
  { op := 0, handle := field e 40 4, phases := field e 44 1, flags := field e 45 1, kind := field e 46 1, steps := field e 47 1, rel := 0
    value := field e 48 8, x := x.tensor? 0, b := x.tensor? 1, g := x.tensor? 2, lam := x.tensor? 3, gradA := x.tensor? 4, deltas := []
    report := none }

/-- The operations of a course, in order; a SOLVE is one. -/
def State.specs (s : State) (c : Course) (j : Job) : List SolveSpec :=
  let x := s.ctx c j []
  if c.kind = .solve then [x.specOfSolve c.request] else ((opRecs (j.image c)).filter (fun r => r.op == 0x0020)).map x.specOf

/-- Its step limit (09 R271). -/
def SolveSpec.limit (q : SolveSpec) (j : Job) : Nat := if q.steps = 0xFF then j.refineMax else min q.steps j.refineMax

/-! ### The version an operation works on (09 R260, R261) -/

/-- A course has changed values or computed a factor. -/
def Progress.changed (p : Progress) : Bool := p.made != 0 || p.version.valueGen != p.start

/-- The version that a course reads of a structure before it changes it: the step's working version, or the committed one. -/
def Job.readVersion (j : Job) (c : Course) (h : Nat) : Option SVersion :=
  (j.structures.find? (·.handle == h)).map (fun x => if c.inStep then x.working.getD x.committed else x.committed)

/-- The version an operation works on: the one in progress since the operation started. -/
def Job.startVersion (j : Job) (c : Course) (h : Nat) : Option SVersion :=
  match c.progress.find? (·.handle == h) with
  | some p => some p.version
  | none => j.readVersion c h

/-- The progress of a course as an operation on a structure starts: its own where it has changed the structure, else the version that stands now,
which it keeps until the operation ends (09 R261). -/
def Job.begin (j : Job) (c : Course) (h : Nat) : List Progress :=
  if c.progress.any (fun p => p.handle == h && p.changed) then c.progress
  else match j.readVersion c h with
    | some v => c.progress.filter (·.handle != h) ++ [Progress.mk h v v.valueGen 0]
    | none => c.progress

/-! ### Deadlines (09 R279, R280) -/

/-- The reserve before the deadline at which factorisation is cut, in core cycles. -/
def Structure.reserve (x : Structure) (limit : Nat) : Nat :=
  let e := (bitsIn x.mask.toNat 8).length
  (1 + limit) * (x.predSolve + (x.nnz + 32 * e - 1) / max (32 * e) 1)

/-- The cut-off is past at a stitch: the reserve counts at 1.3 GHz. -/
def cutoffPast (deadline reserve now : Nat) : Bool := decide (deadline * 1300 ≤ now * 1300 + reserve * 1000)

/-- The deadline of an operation that starts now, an unsigned stitch in the operand of SOLVE and an INT64 element in a slot; the second part is a gauge point that waits for its binding record, the third a point that
counts as reached at once. -/
def State.solveDeadline (s : State) (c : Course) (q : SolveSpec) : Option Nat × Option Nat × Bool :=
  if q.kind = 1 then (some ((if c.attempt = 0 then c.launchedAt else c.restartAt).getD s.stitch + q.rel), none, false)
  else if q.kind = 2 then (some (if c.kind = .solve then q.value else (signed 64 q.value).toNat), none, false)
  else if q.kind = 3 then
    if unbindable s.gauge.quad q.value then (none, none, true)
    else match bindPoint s.gauge.quad s.gauge.records q.value with
      | some d => (some d, none, false)
      | none => (none, some q.value, false)
  else (none, none, false)

/-- The run of the k-th operation of a course. -/
def State.newRun (s : State) (c : Course) (j : Job) (k : Nat) : Option SolveRun :=
  ((s.specs c j)[k]?).map (fun q =>
    let d := s.solveDeadline c q
    let late := d.2.2 || (match d.1 with
      | some t => decide (t ≤ s.stitch)
      | none => false)
    let cut := match d.1, j.structures.find? (·.handle == q.handle) with
      | some t, some x => cutoffPast t (x.reserve (q.limit j)) s.stitch
      | _, _ => false
    { index := k, start := s.stitch, deadline := d.1, gauge := d.2.1, factorCut := bitOf q.phases 1 && (cut || d.2.2)
      deadlineCut := if late then some 0 else none })

/-- The k-th operation of a course starts, on the version as it stands. -/
def State.startRun (s : State) (id k : Nat) : State :=
  match s.course? id with
  | none => s
  | some c => match s.job? c.job with
    | none => s
    | some j =>
      let keep := match (s.specs c j)[k]? with
        | some q => j.begin c q.handle
        | none => c.progress
      s.updCourse id (fun c => { c with run := s.newRun c j k, progress := keep })

/-! ### Values (09 R272, R274) -/

/-- A tensor's value as an unknown's: FX64 at its binary point, or FP64. -/
def Ctx.unknowns (x : Ctx) (op : Nat) (t : Option Tensor) (n : Nat) (point : Nat → Int) : List Val :=
  match t with
  | none => List.replicate n Val.zero
  | some t => (List.range n).map (fun i =>
      let b := x.bits op 0 t [i, 0, 0, 0]
      if t.format = 0x0C then fromFixed (signed 64 b) (point i) else fp64.decode b)

/-- The bits of a result; what FX64 cannot hold is a free value. -/
def resultBits (format : Nat) (point : Int) (base : Nat) (v : Val) : Nat :=
  if format = 0x0C then (match toFixed v point with
    | some i => unsigned 64 i
    | none => (Config.freeBits base).toNat)
  else bits64 v

/-- The value that a stored result reads as. -/
def storedVal (format : Nat) (point : Int) (base : Nat) (v : Val) : Val :=
  if format = 0x0C then fromFixed (signed 64 (resultBits format point base v)) point else fp64.decode (bits64 v)

/-- The request of an operation that ends now. -/
def State.solveReq (s : State) (c : Course) (j : Job) (x : Structure) (q : SolveSpec) (r : SolveRun) : SolveReq :=
  let w := s.ctx c j []
  let fx := fun i => xPoint x.ranges i
  let f := (q.x.map (·.format)).getD 0x08
  let d := s.free
  { handle := q.handle, phases := q.phases, flags := q.flags, limit := q.limit j, deltas := q.deltas
    b := w.unknowns q.op q.b x.n (bPoint x.ranges), x := w.unknowns q.op q.x x.n fx, g := w.unknowns q.op q.g x.n fx
    wantA := q.gradA.isSome
    keepX := fun vs => vs.zipIdx.map (fun (e : Val × Nat) => storedVal f (fx e.2) (s.freeCtr + 1 + e.2) e.1)
    start := r.start, stop := s.stitch, deadline := r.deadline, cutoff := r.factorCut, tests := r.deadlineCut, spent := d.1.toNat }

/-! ### Results as writes (09 R284, R285) -/

/-- A vector as elements of a tensor, times a power of two before the one rounding. -/
def vectorEls (t : Tensor) (point : Nat → Int) (base : Nat) (g : Int) (vs : List Val) : List OutEl :=
  vs.zipIdx.map (fun (e : Val × Nat) =>
    { needle := 0, tile := (0, 0, 0), pos := e.2, coord := [e.2, 0, 0, 0], bits := resultBits t.format (point e.2) (base + e.2) (e.1.shift g)
      sat := false, v := e.1.shift g, input := none, quiet := false })

/-- The flag record of an output tensor that holds something non-finite. -/
def vectorFlag (op : Nat) (t : Tensor) (vs : List Val) : List FlagRec :=
  let bad := vs.zipIdx.filter (fun (e : Val × Nat) => !e.1.finite)
  match bad with
  | [] => []
  | e :: _ => [{ needle := 0, tensor := t.id, op := op, bits := 1, operand := 0xFF, row := 0, col := 0, batch := 0, first := min e.2 0xFFFE
                 count := min bad.length 0xFFFF, coord := List.replicate 4 0xFFFFFFFF }]

/-- The bytes of a solve record as INT8 elements. -/
def reportEls (t : Tensor) (bytes : List Byte) : List OutEl :=
  bytes.zipIdx.map (fun (e : Byte × Nat) =>
    { needle := 0, tile := (0, 0, 0), pos := e.2, coord := [e.2, 0, 0, 0], bits := e.1.toNat, sat := false
      v := decodeElem t.format e.1.toNat 0x7F, input := none, quiet := true })

/-- The exponent that a vector takes on as it is written: g for a seed write (08 R231). -/
def State.seedShift (s : State) (c : Course) (j : Job) (q : SolveSpec) (t : Tensor) : Int :=
  match (opRecs (j.image c))[q.op]? with
  | some r => if (s.ctx c j []).seeds r t then (s.ctx c j []).g else 0
  | none => 0

/-- What an operation writes: its vectors, their flags, and its record. -/
def State.solveOut (s : State) (c : Course) (j : Job) (x : Structure) (q : SolveSpec) (r : SolveRes) : OpOut :=
  let put := fun (t : Option Tensor) (vs : Option (List Val)) => match t, vs with
    | some t, some vs => ([(t, vectorEls t (fun i => xPoint x.ranges i) (s.freeCtr + 1) (s.seedShift c j q t) vs)], vectorFlag q.op t vs)
    | _, _ => ([], [])
  let a := put q.x r.x
  let b := put q.lam r.lam
  let c := put q.gradA r.gradA
  { writes := a.1 ++ b.1 ++ c.1 ++ (match q.report with
      | some t => [(t, reportEls t r.bytes)]
      | none => [])
    flags := a.2 ++ b.2 ++ c.2 }

end Sys2Proof.Machine
end

