-- ==== Sys2Proof/Machine/Retire.lean ====
section
/-! DEFINITION. How courses end: publication and retirement, aborts, reruns and abandonment, course faults; the completion of markers
(03 R82, R83, R99, R105 to R107, R109; 05 R172 to R178; 06 R204; 09 R260, R261; 11 R332, R333; 12 R342, R343; 13 R370, R372). -/

namespace Sys2Proof.Machine

/-! ### What a link course writes (11 R321 to R331) -/

/-- The results so far of a course, as its staging holds them. -/
def State.doneOf (s : State) (c : Course) : Done :=
  { view := s.courseView c, wrote := c.wrote, els := c.els, adds := c.adds, flags := c.flags, tiles := c.tiles }

/-- The elements of a tensor as its bytes stand in a view. -/
def Coll.standing (k : Coll) (v : View) (t : Tensor) : List OutEl :=
  let x := { k.x with view := v, wrote := [] }
  (List.range t.count).map (fun i => k.moved t i (x.bits k.r.index 0 t (t.coordAt i)))

/-- What one record writes once all its frames are here. -/
def Coll.finish (k : Coll) (d : Done) : Done :=
  if k.kind = 3 then
    match k.dst with
    | some t =>
      if k.receives then
        let v := d.view.writeBytes t.base k.bytes
        { d with view := v }.put (t, k.standing v t)
      else d
    | none => d
  else
    let o := k.output
    let d1 := o.writes.foldl Done.put d
    { d1 with flags := d1.flags ++ o.flags }

/-- A course takes its results. -/
def Course.takeDone (c : Course) (d : Done) : Course :=
  { c with staging := d.view.ovs.headD Overlay.empty, wrote := d.wrote, els := d.els, adds := d.adds, flags := d.flags, tiles := d.tiles }

/-- The last write into each element of a tensor. -/
def lastWrites (l : List WroteEl) : List WroteEl :=
  l.foldr (fun e acc => if acc.any (fun x => x.addr == e.addr && x.tensor == e.tensor) then acc else e :: acc) []

/-- A greater maximum replaces a lesser one. -/
def raiseMax (l : List (Word × Word)) (id : Word) (m : Nat) : List (Word × Word) :=
  match l.lookup id with
  | some old => if old.toNat < m then l.map (fun e => if e.1 == id then (id, BitVec.ofNat 32 m) else e) else l
  | none => l ++ [(id, BitVec.ofNat 32 m)]

/-- What a course of a step publishes is weighed as its staging holds it: whether a gradient has a non-finite element, and the greatest magnitude of
every tensor that has a history, whatever its kind and format now (03 R99; 08 R235). -/
def Course.weigh (c : Course) (j : Job) : Course :=
  let els := lastWrites c.els
  let v : View := { ovs := [c.staging], base := [] }
  { c with
    nonFinite := (c.inStep || c.implicitStep) && els.any (fun e => nonFiniteBits e.format (v.getBits e.addr e.width) &&
      j.tensors.any (fun t => t.id == e.tensor && t.kind == 4))
    maxima := if c.inStep then els.foldl (fun l e => match e.mag with
        | some m => if (j.scale.hist? e.tensor).isSome then raiseMax l e.tensor m else l
        | none => l) []
      else [] }

/-- The results of a course are complete, and weighed. -/
def State.weigh (s : State) (c : Course) : State := s.updCourse c.id (fun d => match s.job? c.job with
  | some j => d.weigh j
  | none => d)

/-- A link course writes what its frames bring. -/
def State.gatherLinks (s : State) (c : Course) : State :=
  if c.target != 4 then s else s.updCourse c.id (fun _ => c.takeDone ((s.colls c).foldl (fun d k => k.finish d) (s.doneOf c)))

/-! ### Publication (03 R82, R83, R109; 12 R343) -/

/-- The free pages of a course's staging replace those of the free tensors' one view; the host does not see them yet. -/
def State.publishFree (s : State) (c : Course) (o : Overlay) : State :=
  let s0 := s.holdPages c.job (((s.job? c.job).map (·.changes)).getD 0) (fun _ _ => true) o.pages
  let s1 := (s0.updJob c.job (fun j => { j with changes := j.changes + 1 })).hide c o
  { s1 with mem := { s1.mem with cells := Memory.publish s1.mem.cells o } }

/-- The step pages of a course enter the step's working view; granules it has overwritten wholly lose their poison with the commit. -/
def State.publishStep (s : State) (c : Course) (o : Overlay) : State :=
  let gone := (s.overwritten c).filter (fun g => o.pages.contains (pageOf (g * granuleBytes)))
  let mark := fun (q : Option Step) => q.map (fun (p : Step) => if p.number = c.step then { p with cleared := p.cleared ++ gone } else p)
  let j := s.job? c.job
  let s0 := s.holdPages c.job ((j.map (·.changes)).getD 0) (fun w p => w.inStep && j.any (fun j => (j.working.map (·.pages.contains p)).getD false)) o.pages
  s0.updJob c.job (fun j =>
    { j with working := if o.pages.isEmpty then j.working else some ((j.working.getD Overlay.empty).publish o)
             changes := j.changes + 1
             opened := mark j.opened, committing := mark j.committing })

/-- A course's staging is published; an implicit step keeps its step pages for its commit (01 R36). -/
def State.publish (s : State) (c : Course) : State :=
  match s.job? c.job with
  | none => s
  | some j =>
    let stepped := c.inStep || c.implicitStep
    let free := c.staging.part (fun p => !(stepped && j.stepPage p))
    let mine := c.staging.part (fun p => stepped && j.stepPage p)
    let gone := (s.overwritten c).filter (fun g => free.pages.contains (pageOf (g * granuleBytes)))
    let s1 := gone.foldl (fun (x : State) g => x.clearPoison (g * granuleBytes) granuleBytes) (s.publishFree c free)
    if c.inStep then s1.publishStep c mine
    else s1.updCourse c.id (fun d => { d with staging := if c.implicitStep then mine else Overlay.empty })

/-- The versions of structures that a course built replace those they came from; a step-written one's become the step's working version.  What a
course has only read replaces nothing, whatever has been committed since (09 R260, R261). -/
def Structure.install (x : Structure) (inStep : Bool) (p : Progress) : Structure :=
  let y := { x with factorGen := x.factorGen + p.made }
  if !p.changed then y else if x.stepWritten && inStep then { y with working := some p.version } else { y with committed := p.version }

/-- Install what a course built. -/
def State.installAll (s : State) (c : Course) : State :=
  s.updJob c.job (fun j => { j with structures := j.structures.map (fun x => match c.progress.find? (·.handle == x.handle) with
    | some p => x.install c.inStep p
    | none => x) })

/-! ### COURSE_RETIRE (03 R82; 05 R172; 11 R333; 13 R370, R372) -/

/-- What an operation of a course reads: the tensors of its input slots, as base and length. -/
def Job.inputRanges (j : Job) (c : Course) (op : Nat) : List (Nat × Nat) :=
  match (opRecs (j.image c))[op]? with
  | none => []
  | some r => (inputSlots (j.image c) r).filterMap (fun k =>
      ((c.bindings.lookup k).bind (fun id => j.tensors.find? (·.id == id))).map (fun t => (t.base, t.length)))

/-- A swatch's replica still reads inputs that lie in the source course's own staging (13 R370). -/
def State.inputsHeld (s : State) (c : Course) : Bool :=
  s.swatches.any (fun w => w.course == c.id && c.staging.pages.any w.readsPage)

/-- The slots whose tensors an operation writes. -/
def outputSlots (i : List Byte) (r : OpRec) : List Nat :=
  if r.op = 0x0001 ∧ r.par 16 2 ≠ 0 then (motifs (imgConst i) r.constRef (r.par 16 2)).map (·.dst) else [r.dst]

/-- A byte of a tensor's elements. -/
def Tensor.hasByte (t : Tensor) (a : Nat) : Bool := t.coords.any (fun x => (elemBytes (t.bitAt x) (fmtBits t.format)).contains a)

/-- A granule holds elements of a tensor. -/
def Tensor.hasGranule (t : Tensor) (g : Nat) : Bool := (List.range granuleBytes).any (fun i => t.hasByte (g * granuleBytes + i))

/-- The tensors bound to some slots of a course. -/
def Job.boundTo (j : Job) (c : Course) (slots : List Nat) : List Tensor :=
  slots.filterMap (fun k => (c.bindings.lookup k).bind (fun id => j.tensors.find? (·.id == id)))

/-- A course reads a granule: an operation reads elements that lie in it, as ACCUMULATE does those that it adds to, and no operation before it has
overwritten the granule wholly. -/
def Job.readsGranule (j : Job) (c : Course) (g : Nat) : Bool :=
  let ops := opRecs (j.image c)
  ops.zipIdx.any (fun (e : OpRec × Nat) =>
    let reads := inputSlots (j.image c) e.1 ++ (if e.1.op = 0x0012 then [e.1.dst] else [])
    let before := j.boundTo c ((ops.take e.2).flatMap (outputSlots (j.image c)))
    (j.boundTo c reads).any (·.hasGranule g) && !(List.range granuleBytes).all (fun i => before.any (·.hasByte (g * granuleBytes + i))))

/-- The granules that are poisoned as a course sees them: those of the committed view that it reads, but for those that its step has overwritten wholly
(12 R342, R343). -/
def State.seenPoison (s : State) (j : Job) (c : Course) : List Nat :=
  let own := if c.inStep then (((j.opened.toList ++ j.committing.toList).filter (·.number == c.step)).flatMap (·.cleared)) else []
  (j.viewPoison (c.viewNo.getD j.latest) s.mem.poison).filter (fun g => !own.contains g)

/-- A course needs a poisoned granule, or one on a stack that has left service: it faults and does not retire (12 R341, R342). -/
def State.readsPoison (s : State) (c : Course) : Bool :=
  match s.job? c.job with
  | none => false
  | some j =>
    let own := j.structures.filter (fun x => c.structs.contains x.handle)
    let lost := fun (a n : Nat) => s.dev.stackLost && (List.range (n / pageBytes + 1)).any (fun i => s.onLostStack (a + i * pageBytes))
    (s.seenPoison j c).any (fun g => j.readsGranule c g || own.any (fun x => x.holds (g * granuleBytes))) ||
    (j.boundTo c (c.bindings.map (·.1))).any (fun t => lost t.base t.length) || own.any (fun x => lost x.regionBase x.regionLength)

/-- A needle that runs a substituted shard still runs another course (05 R175 rule 3). -/
def State.subsBusy (s : State) (c : Course) : Bool :=
  c.subs.any (fun u => s.courses.any (fun d => d.id != c.id && d.runsOn (.panel (u / 12)) && (d.needles.filterMap (s.ownNeedle d)).contains u))

/-- The running courses that stand on a physical needle, in acceptance order. -/
def State.coursesOn (s : State) (u : Nat) : List Course := s.courses.filter (fun c => c.runsOn (.panel (u / 12)) && (s.occupied c).contains u)

/-- The eligible tiles on a needle that its sample counter has not counted yet, by course and place. -/
def State.uncounted (s : State) (u : Nat) : List (Nat × Nat) :=
  (s.coursesOn u).flatMap (fun c => ((s.tilesOn c u).drop (c.countedOn u)).map (fun e => (c.id, e.1)))

/-- Every swatch that the tiles of a course call for has been selected (13 R368). -/
def State.sampled (s : State) (c : Course) : Bool := (s.occupied c).all (fun u => decide ((s.uncounted u).length < (s.needle u).sample))

/-- A course has finished on every unit, and needs neither a stack that serves no unit nor a poisoned granule (12 R341, R342, R348). -/
def State.mayRetire (s : State) (c : Course) : Bool :=
  c.status == .launched && c.kind == .course && c.units.all c.launchedUnits.contains && c.run.isNone && s.sampled c && !s.subsBusy c &&
  !s.inputsHeld c && !s.waitsForStack c && !s.readsPoison c &&
  (c.target != 4 || (c.awaiting == 0 && (s.sends c).all (fun e => c.acked.contains e.key))) &&
  (c.shadowed || !(s.swatches.any (·.course == c.id)))

/-- Its results reach its step: flags, a non-finite gradient, attempt maxima (03 R99; 06 R204; 08 R234). -/
def Step.absorb (p : Step) (c : Course) : Step :=
  if p.number = c.step then
    { p with nonFinite := p.nonFinite || c.nonFinite, flagged := p.flagged || !c.flags.isEmpty, flaggedTiles := p.flaggedTiles + c.flags.length
             maxima := c.maxima.foldl (fun l m => raiseMax l m.1 m.2.toNat) p.maxima }
  else p

/-- The step of a course absorbs it. -/
def State.absorb (s : State) (c : Course) : State :=
  if c.inStep then s.updJob c.job (fun j => { j with opened := j.opened.map (fun p => p.absorb c), committing := j.committing.map (fun p => p.absorb c) })
  else s

/-- What a retired course keeps until its step's outcome; a course outside steps goes. -/
def State.leaveRetired (s : State) (c : Course) : State :=
  if c.shadowed then
    s.updCourse c.id (fun d => { d with
      finished := true, status := .ended, run := none, rx := [], srcs := [], progress := []
      staging := if c.inStep then Overlay.empty else d.staging })
  else
    let s1 := s.bookAttempt c false
    { s1 with courses := s1.courses.filter (·.id != c.id) }

/-- A PANEL marker whose parts completed while its course still ran elsewhere is complete now (03 R105). -/
def State.sealMark (s : State) (c : Course) : State :=
  s.updJob c.job (fun j => { j with markers := j.markers.map (fun e =>
    if e.course = c.id ∧ e.scope = 1 ∧ e.status = .pending then
      { e with parts := c.panels
               status := if c.panels.all (fun p => e.panels.any (·.1 == p)) then .complete ((e.panels.map (·.2)).foldl max 0) else .pending }
    else e) })

/-- A course that was launched before a cut and retires after its stitch counts as drained (13 R388). -/
def State.noteDrained (s : State) (c : Course) : State :=
  { s with cut := s.cut.map (fun (x : Cut) =>
      if s.cutStops && decide (c.launchedAt.getD s.stitch < x.stitch) then { x with drained := x.drained + 1 } else x) }

/-- One course retires. -/
def State.retireOne (s : State) (id : Nat) : State :=
  match (s.course? id).bind (fun c => (((s.gatherLinks c).weigh c).course? id).map (fun d => ((s.gatherLinks c).weigh c, d))) with
  | none => s
  | some (s0, c) =>
    let s1 := c.flags.foldl (fun x f => x.flagTile c f) s0
    let s2 := (s.occupied c).foldl (fun x u => x.countTiles id u ((x.tilesOn c u).length - c.countedOn u)) s1
    let s3 := (((s2.publish c).installAll c).absorb c)
    let s4 := ((s3.runningUnits c).foldl (fun x u => x.countUnit u 9 1) s3).traceRetire c 0 0
    ((((s4.noteDrained c).leaveRetired c).sealMark c).boundary c).sweepViews c.job

/-- What the end of a course may settle. -/
def State.afterEnd (s : State) (c : Course) : State := if c.implicitStep then (s.settleImplicit c.id).tryClose c.job else s.settle c.job

/-- COURSE_RETIRE: the course retires, with every course of its batch. -/
def State.courseRetire (s : State) (id : Nat) : State :=
  match s.course? id with
  | none => s
  | some c =>
    let batch := s.courses.filter (fun d => d.id == id || c.batchWith.contains d.id)
    if batch.all s.mayRetire then batch.foldl (fun x d => x.afterEnd d) (batch.foldl (fun x d => x.retireOne d.id) s)
    else s

def execCourseRetire (t : Stitch) (course : Nat) (s : State) : Host.Outcome State Fault Refusal := s.act t (·.courseRetire course)

/-! ### Abandoning (05 R177; 09 R289; 13 R386) -/

/-- The error record of an abandoned course. -/
def State.abandonRecord (s : State) (c : Course) : State :=
  s.cper { cls := 1, sev := sevRecoverable, unit := s.lowestUnit c, job := c.job.toNat, step := c.stepField, attempt := c.attempt
           detail := slice (le 8 c.patternTag.toNat ++ c.abortCauses.map (BitVec.ofNat 8)) 0 16 ++ le 8 (c.firstLaunch.getD s.stitch) }

/-- A course is abandoned: it publishes nothing and its marker is void; in a step it stays unretired until the outcome.  A SOLVE ends
with DEVICE_FAULT. -/
def State.abandon (s : State) (c : Course) : State :=
  let s1 := (s.abandonRecord c).raiseFault 0
  let s2 := ((s1.leaveAll c.id).purge c.id).voidEmissions c
  if c.kind = .solve then
    let s3 := { s2 with courses := s2.courses.filter (·.id != c.id) }
    (((s3.finish c.tag [stDeviceFault] 0).retireFree).sweepViews c.job).tryClose c.job
  else if c.inStep then ((s2.updCourse c.id (fun c => { c.clean with status := .abandoned })).retireFree).settle c.job
  else
    let s3 := s2.bookAttempt c false
    ((({ s3 with courses := s3.courses.filter (·.id != c.id) }).retireFree).sweepViews c.job).tryClose c.job

/-! ### Aborts and reruns (05 R174 to R178) -/

/-- A course starts over on the units it has launched on, from the unchanged inputs. -/
def State.runAgain (s : State) (id : Nat) : State :=
  match s.course? id with
  | none => s
  | some c =>
    let subs := c.launchedUnits.flatMap (fun u => match u with
      | .panel p => s.subsIn c p
      | _ => [])
    let s1 := s.updCourse id (fun c => { c with status := .launched, subs := subs })
    if c.kind = .solve ∨ c.target = 2 then s1.startRun id 0
    else if c.target = 4 then s1.runLinks id
    else c.launchedUnits.foldl (fun x u => match u with
      | .panel p => x.runPanel id p
      | _ => x) s1

/-- A course aborts on every unit: nothing of the attempt stays, but for the parts of PANEL markers that are complete: DESIGN CHOICE
(log 74). -/
def State.abortOne (s : State) (id cause : Nat) (last : Bool) : State :=
  match s.course? id with
  | none => s
  | some c =>
    let s1 := (s.stopCourse c (if last || decide (2 ≤ c.aborts) then 2 else 1) cause).purge id
    (s1.updCourse id (fun d => { d.clean with
      shadow := d.shadow, aborts := d.aborts + 1, abortCauses := d.abortCauses ++ [cause], status := .queued })).boundary c

/-- The second half of an abort: a rerun at once, or the end of a course that has aborted three times.  Under a cut an abort ends what the
cut waits for, so the rerun waits for RESUME (05 R178, 13 R388; log 115). -/
def State.afterAbort (s : State) (id : Nat) (last : Bool) : State :=
  match s.course? id with
  | none => s
  | some c => if last || decide (3 ≤ c.aborts) then s.abandon c
    else if s.cutStops then { s with cut := s.cut.map (fun (x : Cut) => { x with aborted := x.aborted ++ [id] }) }
    else s.runAgain id

/-- A logical needle that the spare map has moved moves within a course that reruns, unless the course is confined to its panel. -/
def Course.follow (c : Course) (s : State) : Course :=
  if c.confined then c
  else
    let places := c.places.map (fun e => (e.1, ((s.physical e.1).map (· / 12)).getD e.2))
    let panels := (List.range 12).filter (fun p => places.any (·.2 == p))
    { c with places := places, panels := panels
             launchedUnits := c.launchedUnits.filter (fun u => match u with
               | .panel p => panels.contains p
               | _ => true) ++ ((panels.filter (fun p => !c.panels.contains p)).map .panel) }

/-- A fault retires a needle: the spare map changes before the rerun, or waits while a confined course needs its panel. -/
def State.faultRetire (s : State) (c : Course) (u reason : Nat) : State :=
  if s.mapWaits c u then s.updNeedle u (fun x => { x with suspectToo := x.isSuspect, state := .pending, retireReason := reason })
  else s.retireNow u reason

/-- A row of a needle fails: it is mapped out before the needle's next course, or the needle retires with no spare row left (05 R152). -/
def State.rowFault (s : State) (c : Course) (u : Nat) (row : Option Nat) : State :=
  match row with
  | none => s
  | some r =>
    if (s.needle u).rowsOut.length < 2 then s.updNeedle u (fun n => { n with failedRow := some r }) else s.faultRetire c u 3

/-- A fault aborts a course and its batch; the faulted needle is excluded from the rerun unless the spare map has replaced it; `last` makes
the abort the third. -/
def State.faultCourse (s : State) (c : Course) (unit cause : Nat) (row : Option Nat) (last : Bool) : State :=
  let ids := (s.courses.filter (fun d => d.id == c.id || c.batchWith.contains d.id)).map (·.id)
  let s1 := (ids.foldl (fun (x : State) id => x.abortOne id cause last) s).raiseFault 0
  let s2 := if unit < 144 then s1.rowFault c unit row else s1
  let s3 := ids.foldl (fun (x : State) id => x.updCourse id (fun (d : Course) =>
    let e := d.follow x
    if decide (unit < 144) && (x.needle unit).state != .retired && !e.excluded.contains unit then { e with excluded := e.excluded ++ [unit] } else e)) s2
  let s4 := s3.mapFailedRows
  ids.foldl (fun (x : State) id => x.afterAbort id last) s4

/-! ### COURSE_FAULT, COURSE_WATCHDOG_EXPIRY (05 R174; 12 R342; 09 R289) -/

/-- The abort cause of R386; a parity error in a vector or mask register has none there, so its code is
a free value (07 R208; log 117). -/
def faultCode : FaultCause → Nat
  | .memory => 1
  | .arrayParity => 2
  | .feederParity => 3
  | .poisoned => 6
  | .vectorParity => 0

/-- A page of a step's working view holds what a course of the step reads there, and the committed view has no poison there (12 R342). -/
def State.onlyWorking (s : State) (c : Course) (addr : Nat) : Bool :=
  c.inStep && !s.poisonedAt addr && (match (s.job? c.job).bind (·.working) with
    | some w => w.pages.contains (pageOf addr)
    | none => false)

/-- The step of a course frogs at once (12 R342). -/
def State.forceFrog (s : State) (c : Course) : State :=
  let set := fun (o : Option Step) => o.map (fun (p : Step) => if p.number = c.step then { p with forceFrog := true } else p)
  (s.updJob c.job (fun j => { j with opened := set j.opened, committing := set j.committing })).settle c.job

/-- A read of device memory fails: in the working view alone the step frogs, elsewhere the abort counts as the third (12 R342). -/
def State.memoryFault (s : State) (c : Course) (unit cause addr : Nat) : State :=
  if s.onlyWorking c addr then
    let s1 := s.updStack (s.homeStack (pageOf addr)) (fun k => { k with uncorrectable := satAdd 32 k.uncorrectable 1 })
    (s1.faultCourse c unit cause none false).forceFrog c
  else
    (if cause = 6 then s else s.uncorrected addr).faultCourse c unit cause none true

/-- COURSE_FAULT: a fault on a unit that the course runs on; an address beyond device memory stands for a pocket or panel store. -/
def State.courseFault (s : State) (id unit : Nat) (cause : FaultCause) (addr : Nat) (row : Option Nat) : State :=
  match s.course? id with
  | none => s
  | some c =>
    let k := faultCode cause
    if !c.running || !((s.runningUnits c).contains unit) then s
    else match cause with
      | .memory => if addr < deviceBytes then s.memoryFault c unit k addr else s.faultCourse c unit k none false
      | .poisoned => if s.poisonedAt addr || s.onlyWorking c addr then s.memoryFault c unit k addr else s
      | .arrayParity => s.faultCourse c unit k row false
      | .feederParity => s.faultCourse c unit k none false
      | .vectorParity => s.free.2.faultCourse c unit (s.free.1.toNat % 256) none false

def execCourseFault (t : Stitch) (course unit : Nat) (cause : FaultCause) (addr : Nat) (row : Option Nat) (s : State) :
    Host.Outcome State Fault Refusal :=
  s.act t (·.courseFault course unit cause addr row)

/-- COURSE_WATCHDOG_EXPIRY: a needle has made no progress for 1,048,576 core cycles. -/
def State.watchdog (s : State) (id unit : Nat) : State :=
  match s.course? id with
  | none => s
  | some c =>
    let p := unit / 12
    let since := s.diesCycles p - (c.startedAt.lookup p).getD (s.diesCycles p)
    if c.running && decide (unit < 144) && (s.runningUnits c).contains unit && decide (1048576000 ≤ since) then
      s.faultCourse c unit 4 none false
    else s

def execCourseWatchdogExpiry (t : Stitch) (course unit : Nat) (s : State) : Host.Outcome State Fault Refusal := s.act t (·.watchdog course unit)

/-! ### Markers (03 R105 to R107; 15 R429) -/

/-- The emission that completes next under an identifier: the first that is neither void nor complete. -/
def Job.openMark (j : Job) (m : Word) : Option MarkerEm :=
  j.markers.find? (fun e => e.marker == m && (match e.status with
    | .pending => true
    | .device _ => true
    | _ => false))

/-- Change an emission. -/
def State.updMark (s : State) (job : Word) (ord : Nat) (f : MarkerEm → MarkerEm) : State :=
  s.updJob job (fun j => { j with markers := j.markers.map (fun e => if e.ord = ord then f e else e) })

/-- The course of an emission has retired. -/
def State.emitterDone (s : State) (e : MarkerEm) : Bool :=
  match s.course? e.course with
  | some c => c.finished
  | none => true

/-- The unit of an emission whose completion came last: which one is left open, so a free choice among them. -/
def State.lastOf (s : State) (e : MarkerEm) (panel : Option Nat) : Nat × State :=
  let all := e.needles.filterMap s.physical ++ e.engines.map (144 + ·) ++ e.links.map (152 + ·)
  let us := all.filter (fun u => match panel with
    | some p => decide (u < 144) && u / 12 == p
    | none => true)
  let d := s.free
  (us.getD (d.1.toNat % max us.length 1) e.lowUnit, d.2)

/-- A MARKER record: scope 2 DEVICE or 3 SKEIN. -/
def State.traceMark (s : State) (job : Word) (e : MarkerEm) (scope : Nat) : State :=
  s.traceRec (some job) 0x06 e.lowUnit s.stitch true (tracePayload job.toNat e.marker.toNat e.step e.patternTag.toNat 0 scope 0)

/-- Once every member has reported, a SKEIN marker completes at the greatest of the members' stitches. -/
def State.joinMark (s : State) (job : Word) (ord : Nat) : State :=
  match (s.job? job).bind (fun j => (j.markers.find? (·.ord == ord)).map (fun e => (j, e))) with
  | none => s
  | some (j, e) => match e.status with
    | .device t =>
      if e.reports.length + 1 < j.memberCount then s
      else
        let last := e.reports.foldl (fun m r => max m r.stitch) t
        ((s.updMark job ord (fun e => { e with status := .complete last })).traceMark job e 3).exposeBy e.course e.needles e.engines e.links
    | _ => s

/-- A marker is complete at DEVICE scope: traced; a SKEIN marker is reported to the other members, a local job's completes with it. -/
def State.deviceMark (s : State) (j : Job) (e : MarkerEm) : State :=
  let u := s.lastOf e none
  let s1 := u.2.updMark j.id e.ord (fun e =>
    { e with lastUnit := u.1, status := if e.scope = 3 then .device s.stitch else .complete s.stitch
             deviceAt := if e.scope = 3 then some s.stitch else none })
  let s2 := s1.traceMark j.id e 2
  if e.scope = 2 then s2.exposeBy e.course e.needles e.engines e.links
  else if j.memberCount ≤ 1 then s2.joinMark j.id e.ord
  else (s2.reportAll j.id (markBytes s.skein.device j.id e.marker s.stitch u.1)).joinMark j.id e.ord

/-- A PANEL marker completes in one panel; in the last one it is complete. -/
def State.panelMark (s : State) (j : Job) (e : MarkerEm) (p : Nat) : State :=
  let u := s.lastOf e (some p)
  u.2.updMark j.id e.ord (fun e =>
    let ps := e.panels ++ [(p, s.stitch)]
    { e with lastUnit := u.1, panels := ps
             status := if e.parts.all (fun q => ps.any (·.1 == q)) && s.emitterDone e then .complete ((ps.map (·.2)).foldl max 0) else e.status })

/-- A course has run in a panel to where its PANEL marker may complete: no swatch has yet to read what it staged, and outside steps every swatch of
its tiles has a verdict (03 R105; 13 R370, R372). -/
def State.partDone (s : State) (e : MarkerEm) (p : Nat) : Bool :=
  e.parts.contains p && !(e.panels.any (·.1 == p)) && (match s.course? e.course with
    | some c => c.finished || (c.runsOn (.panel p) && !c.stalled.contains (.panel p) && s.sampled c && !s.inputsHeld c && !s.waitsForStack c && !s.readsPoison c &&
        (c.shadowed || !(s.swatches.any (·.course == c.id))))
    | none => true)

/-- MARKER_COMPLETE: a panel's part of a PANEL marker, or a DEVICE or SKEIN marker on this module; NEEDLE markers and the markers of MARK
records order the writes within their own course and have no identifier. -/
def State.markerComplete (s : State) (job m : Word) (panel : Option Nat) : State :=
  match (s.job? job).bind (fun j => (j.openMark m).map (fun e => (j, e))) with
  | none => s
  | some (j, e) => match panel with
    | some p => if e.scope = 1 && s.partDone e p then s.panelMark j e p else s
    | none => if decide (2 ≤ e.scope) && e.status == .pending && s.emitterDone e then s.deviceMark j e else s

def execMarkerComplete (t : Stitch) (job marker : Word) (panel : Option Nat) (s : State) : Host.Outcome State Fault Refusal :=
  s.act t (·.markerComplete job marker panel)

/-- The first report of each member counts for the open emission; one that comes before the emission waits for it; one of an attempt that has
frogged, or of one that was abandoned, is dropped (03 R106; 13 R377 to R379). -/
def State.takeMark (s : State) (job m : Word) (r : MarkReport) : State :=
  match s.job? job with
  | none => s
  | some j =>
    if !j.skein || r.member == s.skein.device then s
    else match (j.openMark m).filter (fun e => e.scope == 3 && !(e.reports.any (·.member == r.member))) with
      | none => s.updJob job (fun j => { j with markReports := j.markReports ++ [(m, r)] })
      | some e =>
        if r.stitch < j.markFloor e then s
        else (s.updMark job e.ord (fun e => { e with reports := e.reports ++ [r] })).joinMark job e.ord

/-- MARKER_REPORT_RECEIVED: handed on and taken. -/
def State.markReport (s : State) (via : Arrival) (member : BitVec 16) (job m : Word) (at0 unit : Nat) : State :=
  (s.relayReport via member job (markBytes member job m at0 unit)).takeMark job m
    { member := member, stitch := at0, unit := if unit < 200 then unit else 184, link := via.link }

def execMarkerReportReceived (t : Stitch) (sender : Sender) (job marker : Word) (mark : Marked) (s : State) : Host.Outcome State Fault Refusal :=
  s.act t (·.markReport sender.via sender.member job marker mark.stitch mark.unit)

end Sys2Proof.Machine
end

