-- ==== Sys2Proof/Machine/Slots.lean ====
section
/-! DEFINITION. Data frames: what a slot sends, by plan, again, displaced or unscheduled; routes; and what becomes of a data frame that
arrives (10 R293 to R298, R302, R305 to R312; 11 R320, R321, R331, R332; 15 R427, R428). -/

namespace Sys2Proof.Machine

/-! ### A course's frames (11 R320, R321) -/

/-- The frame is the first or the last of its part. -/
def Coll.edge (k : Coll) (p : Part) (i : Nat) : Bool := i == p.base || i + 1 == p.base + k.frames p

/-- A frame of a send set carries the greatest offset that this member sends its receiver in the stream (log 31). -/
def lastOfStream (sends : List SendItem) (e : SendItem) : Bool :=
  sends.all (fun q => q.key.1 != e.key.1 || q.key.2.1 != e.key.2.1 || decide (q.key.2.2.toNat ≤ e.key.2.2.toNat))

/-- The flags of a course's frames: after_cut for a course launched from the cut stitch on (10 R310), and the last of a stream. -/
def State.frameFlags (s : State) (c : Course) (last : Bool) : Byte :=
  let cut := match s.cut with
    | some x => s.cutStops && decide (x.stitch ≤ c.launchedAt.getD s.stitch)
    | none => false
  BitVec.ofNat 8 ((if cut then 4 else 0) + (if last then 8 else 0))

/-- A frame of a send set. -/
def State.frameOf (s : State) (c : Course) (sends : List SendItem) (e : SendItem) (type : Nat) (payload : List Byte) : Frame :=
  { frameType := BitVec.ofNat 8 type, flags := s.frameFlags c (lastOfStream sends e), seq := 0, ack := 0, dest := e.key.1
    stream := e.key.2.1, offset := e.key.2.2, payload := payload }

/-- A frame of a course has been sent or waits to be sent. -/
def State.handled (s : State) (c : Course) (key : BitVec 16 × Word × Word) : Bool :=
  (match s.course? c.id with
   | some d => d.sent.contains key
   | none => true) ||
  s.txq.any (fun q => q.course == some c.id && (q.frame.dest, q.frame.stream, q.frame.offset) == key)

/-- A course has sent a frame on a link: it is noted, and the first and the last frame of a part are traced (15 R428). -/
def State.sentItem (s : State) (k : Nat) (c : Course) (e : SendItem) (f : Frame) (leaves seq : Nat) : State :=
  let s1 := s.updCourse c.id (fun d => { d with sent := d.sent ++ [e.key] })
  if e.k.edge e.p e.i then s1.traceRec (some c.job) 0x02 (152 + k) leaves false (s1.linkPayload k f seq c.job.toNat) else s1

/-- Send a frame of a course on a link, in the n-th frame time of a use in the slot of a stitch. -/
def State.sendItem (s : State) (k t : Nat) (u : Use) (n : Nat) (e : SendItem) (f : Frame) (x : Sending) (c : Course) : State :=
  (s.putAt k t u n f { x with course := some c.id }).sentItem k c e f ((s.link k).timeOf (slotOf t) u n) (s.link k).nextSeq

/-! ### Plans (10 R305 to R308) -/

/-- The entries of a course's plans, each with its record and its number in its plan. -/
def State.planOf (s : State) (c : Course) : List (Coll × PlanEntry × Nat) :=
  (s.colls c).flatMap (fun k =>
    if k.r.constRef = 0 ∨ k.kind = 3 then [] else (planEntries (imgConst k.x.image) k.r.constRef).zipIdx.map (fun e => (k, e)))

/-- The frames of an entry. -/
def State.entryKeys (s : State) (k : Coll) (e : PlanEntry) : List (BitVec 16 × Word × Word) :=
  (List.range e.frames).map (fun i => (s.peerOf e.link, BitVec.ofNat 32 (k.index * 0x100000 + e.stream),
    BitVec.ofNat 32 (e.offset + i + k.c.attempt % 4 * 0x1000000)))

/-- Where a frame stands in its plan: its link, the stitch of its slot, and its entry. -/
structure Place where
  link : Nat
  slot : Nat
  entry : Nat

/-- A frame of a course joins the queue of its direction: with its payload from a transmit buffer, or to be filled when it is sent; `planned`
when the frame time that its plan gives it is still to come. -/
def State.queueFrame (s : State) (c : Course) (at0 : Place) (key : BitVec 16 × Word × Word) (payload : Option (List Byte)) (cold : Bool)
    (planned : Option Nat) : State :=
  let f : Frame := { frameType := 0x30, flags := 0, seq := 0, ack := 0, dest := key.1, stream := key.2.1, offset := key.2.2, payload := payload.getD [] }
  { s with txq := s.txq ++ [{ dir := (s.link at0.link).dir, link := at0.link, frame := f, course := some c.id, channel := 3, cold := cold,
                              filled := payload.isSome, crossed := false, since := s.stitch, slot := at0.slot, entry := at0.entry,
                              planned := planned }] }

/-- A link counts a displaced frame. -/
def State.countDisplaced (s : State) (k : Nat) : State := s.updLink k (fun l => { l with displaced := satAdd 32 l.displaced 1 })

/-- A frame is displaced from its link (10 R308). -/
def State.displace (s : State) (c : Course) (at0 : Place) (key : BitVec 16 × Word × Word) (payload : Option (List Byte)) (cold : Bool) : State :=
  (s.queueFrame c at0 key payload cold none).countDisplaced at0.link

/-- The link takes plan frames in the slot of a stitch. -/
def State.takesPlan (s : State) (k t : Nat) : Bool :=
  (s.link k).state == 2 && decide ((s.link k).planFrom ≤ t) && decide ((s.link k).replay.length + (s.link k).resend.length < replayMax)

/-- Frames of 256 bytes that a transmit buffer of 1 MiB holds (10 R307). -/
def bufferMax : Nat := 4096

/-- A frame leaves the transmit buffer. -/
def State.unbuffer (s : State) (link course : Nat) (key : BitVec 16 × Word × Word) : State :=
  s.updLink link (fun l => { l with txbuf := l.txbuf.filter (fun b => !(b.course == course && b.key == key)) })

/-- Memory serves a prefetch in time: no stack it needs is at its 95 °C step, and memory was fast enough, which is left open
(10 R307; 12 R348; log 80). -/
def State.fetches (s : State) (e : SendItem) : Bool × State :=
  if 4 ≤ s.heatOf e.k then (false, s) else (!s.free.1.getLsbD 0, s.free.2)

/-- Prefetch one frame of an entry into the link's buffer (10 R307). -/
def State.prefetchFrame (sends : List SendItem) (c : Course) (link : Nat) (s : State) (key : BitVec 16 × Word × Word) : State :=
  if s.handled c key || ((s.link link).buffered c.id key).isSome || decide (bufferMax ≤ (s.link link).txbuf.length) then s
  else match sends.find? (fun e => e.key == key) with
    | none => s
    | some e => match e.k.payload e.p e.i with
      | none => s
      | some b =>
        let got := s.fetches e
        if got.1 then got.2.updLink link (fun l => { l with txbuf := l.txbuf ++ [{ course := c.id, key := key, payload := b }] }) else got.2

/-- Prefetch the plan frames of a course up to 4 slots ahead (10 R307). -/
def State.prefetch (s : State) (id : Nat) : State :=
  match s.course? id with
  | none => s
  | some c => match c.slot0 with
    | none => s
    | some s0 =>
      let sends := s.sends c
      ((s.planOf c).filter (fun q => decide (s.stitch ≤ s0 + 2048 * q.2.1.slot) && decide (s0 + 2048 * q.2.1.slot ≤ s.stitch + 8192))).foldl
        (fun (x : State) q => (x.entryKeys q.1 q.2.1).foldl (State.prefetchFrame sends c q.2.1.link) x) s

/-- One frame of an entry whose slot begins, the n-th of it: sent on plan from the transmit buffer, or displaced.  One whose data is not here
yet keeps its frame time, at which the buffer is looked at again; one that is here and was not prefetched waits for its memory (10 R307,
R308). -/
def State.planFrame (sends : List SendItem) (c : Course) (at0 : Place) (blocked : Bool) (s : State) (q : (BitVec 16 × Word × Word) × Nat) : State :=
  if s.handled c q.1 then s
  else match sends.find? (fun e => e.key == q.1) with
    | none => s
    | some e =>
      let fits := !blocked && s.takesPlan at0.link at0.slot && decide (q.2 < Use.times .data (s.link at0.link).rate)
      match (s.link at0.link).buffered c.id q.1 with
      | some b =>
        let s1 := s.unbuffer at0.link c.id q.1
        if fits then
          s1.sendItem at0.link at0.slot .data q.2 e (s.frameOf c sends e 0x30 b)
            { course := none, channel := 3, tries := 1, slot := at0.slot, entry := at0.entry } c
        else s1.displace c at0 q.1 (some b) false
      | none =>
        let known := (e.k.payload e.p e.i).isSome
        if fits && !known then s.queueFrame c at0 q.1 none false (some q.2) else s.displace c at0 q.1 none known

/-- The entries of a plan that a member sends on time: their slot begins now, and the member launched before it, or at S0 for slot 0
(10 R306). -/
def planOnTime (c : Course) (s0 t : Nat) (e : PlanEntry) : Bool :=
  s0 + 2048 * e.slot == t && (decide (c.launchedAt.getD t < t) || (e.slot == 0 && c.launchedAt == some t))

/-- An entry allots the first data frame times of its link in its slot (10 R296, R297). -/
def Link.allot (l : Link) (frames : Nat) : Link := { l with sentInSlot := max l.sentInSlot (min frames (Use.times .data l.rate)) }

/-- The plan entries of one course at a slot that begins: late entries join the queue in order (10 R306), those of this slot are sent;
the list names the links that earlier plans hold in this slot. -/
def State.plan (x : State × List Nat) (id : Nat) : State × List Nat :=
  match x.1.course? id with
  | none => x
  | some c => match c.slot0 with
    | none => x
    | some s0 =>
      let t := x.1.stitch
      let sends := x.1.sends c
      let es := x.1.planOf c
      let place := fun (e : PlanEntry × Nat) => Place.mk e.1.link (s0 + 2048 * e.1.slot) e.2
      let late := es.filter (fun q => decide (s0 + 2048 * q.2.1.slot ≤ t) && !planOnTime c s0 t q.2.1 &&
        (x.1.entryKeys q.1 q.2.1).any (fun key => !x.1.handled c key))
      let s1 := late.foldl (fun (s : State) q => (s.entryKeys q.1 q.2.1).foldl (fun (s : State) key =>
        if s.handled c key then s
        else s.queueFrame c (place q.2) key ((s.link q.2.1.link).buffered c.id key) false none) s) x.1
      let missed := ((late.map (·.2.1.slot)).dedup).length
      let s2 := (s1.updCourse id (fun d => { d with missedSlots := d.missedSlots + missed })).count 17 missed
      (es.filter (fun q => planOnTime c s0 t q.2.1)).foldl (fun (y : State × List Nat) q =>
        let blocked := x.2.contains q.2.1.link
        let y1 := if blocked then y.1.count 16 1 else y.1.updLink q.2.1.link (·.allot q.2.1.frames)
        ((y1.entryKeys q.1 q.2.1).zipIdx.foldl (State.planFrame sends c (place q.2) blocked) y1, y.2 ++ [q.2.1.link])) (s2, x.2)

/-- A frame of a course as its send set tells it. -/
def State.itemOf (s : State) (q : TxFrame) : Option (Course × SendItem) :=
  (q.course.bind s.course?).bind (fun c =>
    ((s.sends c).find? (fun e => e.key == (q.frame.dest, q.frame.stream, q.frame.offset))).map (fun e => (c, e)))

/-- A waiting frame leaves the queue. -/
def State.unqueue (s : State) (q : TxFrame) : State := { s with txq := s.txq.erase q }

/-- A planned frame loses its frame time and is displaced (10 R308). -/
def State.losePlace (s : State) (q : TxFrame) (cold : Bool) : State :=
  { (s.countDisplaced q.link) with txq := s.txq.map (fun r => if r = q then { r with planned := none, cold := cold } else r) }

/-- The frame times of planned frames have passed without their data (10 R307). -/
def State.dropPlanned (s : State) : State :=
  (s.txq.filter (fun q => match q.planned with
    | some n => decide ((s.link q.link).timeOf q.slot .data n < s.stitch) || (s.link q.link).state != 2
    | none => false)).foldl (fun (x : State) q => x.losePlace q false) s

/-- The data of a planned frame has come before its frame time: it is prefetched and sent on plan, or displaced (10 R307). -/
def State.fillPlanned (s : State) (q : TxFrame) : State :=
  match q.planned, s.itemOf q with
  | some n, some (c, e) => match e.k.payload e.p e.i with
    | none => s
    | some b =>
      let got := s.fetches e
      if got.1 && got.2.takesPlan q.link q.slot then
        (got.2.unqueue q).sendItem q.link q.slot .data n e (s.frameOf c (s.sends c) e 0x30 b)
          { course := none, channel := 3, tries := 1, slot := q.slot, entry := q.entry } c
      else got.2.losePlace q true
  | _, _ => s

/-! ### Routes of unscheduled frames (10 R311) -/

/-- What a route answers. -/
inductive Route where
  | hop (link channel : Nat) (detour : Bool)
  | wait
  | none
  deriving DecidableEq

/-- A port has credit on a virtual channel. -/
def State.hasCredit (s : State) (k channel : Nat) : Bool :=
  decide (0 < (s.credits.getD (((s.link k).port).getD k) []).getD channel 0)

/-- The lowest link of a predicate that is up to a Palrix and has credit. -/
def State.hopOver (s : State) (p : Link → Bool) (channel : Nat) (detour : Bool) : Route :=
  match (List.range 32).find? (fun k => (s.link k).state == 2 && p (s.link k) && s.hasCredit k channel) with
  | some k => .hop k channel detour
  | none => .wait

/-- A direction of the torus has a link up. -/
def State.dirUp (s : State) (d : Nat) (minus : Bool) : Bool := (s.linkTowards d minus).isSome

/-- A hop in a direction of the torus. -/
def State.hopDir (s : State) (d : Nat) (minus : Bool) (channel : Nat) (detour : Bool) : Route :=
  s.hopOver (s.leads d minus) channel detour

/-- The route in a torus: a frame that crosses the wrap of its dimension, or has crossed it, goes by the second channel; one on its
detour does not turn back to where it came from (log 32). -/
def State.routeTorus (s : State) (dest : BitVec 16) (came : Option Nat) (detoured crossed : Bool) : Route :=
  let x := s.skein.coords
  let y := coordsOf s.skein.extents dest.toNat
  match (List.range 4).find? (fun d => x.getD d 0 != y.getD d 0) with
  | Option.none => .none
  | some d =>
    let a := s.skein.ext d
    let fwd := (y.getD d 0 + a - x.getD d 0) % a
    let short := decide (a - fwd < fwd)
    let turn := detoured && (match came with
      | some k => s.leads d short (s.link k)
      | Option.none => false)
    let minus := if turn then !short else short
    let wraps := if minus then x.getD d 0 == 0 else x.getD d 0 + 1 == a
    if s.dirUp d minus then s.hopDir d minus (if detoured then 2 else if wraps || crossed then 1 else 0) detoured
    else if s.dirUp d (!minus) && !turn then s.hopDir d (!minus) 2 true
    else match (List.range s.skein.dims).find? (fun e => e != d && (s.dirUp e false || s.dirUp e true)) with
      | some e => s.hopDir e (!s.dirUp e false) 2 true
      | Option.none => .none

/-- The route in an all-to-all group; which members have a port up to the destination is a free value.  A detoured frame uses the third channel
on both its hops. -/
def State.routeDirect (s : State) (dest : BitVec 16) (far : Dword) (detoured : Bool) : Route :=
  let upTo := fun (m : Nat) => (s.linkToDevice (BitVec.ofNat 16 m)).isSome
  if upTo dest.toNat then s.hopOver (fun l => l.peerDevice == dest) (if detoured then 2 else 0) detoured
  else match (List.range s.skein.members).find? (fun m => m != dest.toNat && m != s.skein.device.toNat && upTo m && far.getLsbD m) with
    | some m => s.hopOver (fun l => l.peerDevice == BitVec.ofNat 16 m) 2 true
    | Option.none => .none

/-- The route to a member. -/
def State.route (s : State) (dest : BitVec 16) (came : Option Nat) (detoured crossed : Bool) : Route × State :=
  if !s.skein.member ∨ s.skein.members ≤ dest.toNat ∨ dest = s.skein.device then (.none, s)
  else if s.skein.topology = 2 then
    let f := s.free
    (s.routeDirect dest f.1 detoured, f.2)
  else (s.routeTorus dest came detoured crossed, s)

/-- A frame that arrives on a link has crossed the wrap of the dimension that it still travels: it has just done so, or may have done so
before, which the frame does not tell (log 81). -/
def State.wrapCrossed (s : State) (dest : BitVec 16) (k : Nat) : Bool × State :=
  let x := s.skein.coords
  let y := coordsOf s.skein.extents dest.toNat
  match (List.range 4).find? (fun d => x.getD d 0 != y.getD d 0) with
  | none => (false, s)
  | some d =>
    let from_ := (s.link k).direction
    if from_.toNat / 16 % 4 != d || s.skein.topology != 1 then (false, s)
    else if (from_.getLsbD 0 && x.getD d 0 == 0) || (!from_.getLsbD 0 && x.getD d 0 + 1 == s.skein.ext d) then (true, s)
    else
      let f := s.free
      (f.1.getLsbD 0, f.2)

/-! ### Waiting frames (10 R297, R308) -/

/-- What a waiting frame is sent as: one to be sent again as it was; a course's frame once its payload is known and memory serves it, which a
stack at its 95 °C step does not (10 R307; 11 R336). -/
def State.ready (s : State) (q : TxFrame) : Option (Frame × Option (Course × SendItem)) :=
  if q.planned.isSome then none
  else if q.frame.flags.getLsbD 0 ∨ q.course.isNone then some (q.frame, none)
  else match s.itemOf q with
    | none => if q.filled then some (q.frame, none) else none
    | some (c, e) =>
      let f := s.frameOf c (s.sends c) e q.frame.frameType.toNat
      if q.filled then some (f q.frame.payload, some (c, e))
      else if 4 ≤ s.heatOf e.k then none
      else (e.k.payload e.p e.i).map (fun b => (f b, some (c, e)))

/-- A frame time: its link, its slot by a stitch, its use and its number. -/
structure FrameTime where
  link : Nat
  slot : Nat
  use : Use
  n : Nat

/-- Send a waiting frame in a frame time: a retransmission is counted there, a course's frame is noted. -/
def State.sendWaiting (s : State) (ft : FrameTime) (q : TxFrame) (f : Frame) (item : Option (Course × SendItem)) (channel : Nat) : State :=
  let x : Sending := { course := q.course, channel := channel, tries := 1, slot := q.slot, entry := q.entry }
  match item with
  | some (c, e) => (s.unqueue q).sendItem ft.link ft.slot ft.use ft.n e f x c
  | none =>
    let s1 := (s.unqueue q).putAt ft.link ft.slot ft.use ft.n f x
    if f.flags.getLsbD 0 then s1.updLink ft.link (fun l => { l with retransmitted := satAdd 32 l.retransmitted 1 }) else s1

/-- The first use with room on a link, as a frame time of the present slot. -/
def State.roomIn (s : State) (k : Nat) (us : List Use) : Option FrameTime :=
  (us.find? (s.room k)).map (fun u => { link := k, slot := s.stitch, use := u, n := (s.link k).nextTime u s.stitch })

/-- Take a credit (10 R311). -/
def State.takeCredit (s : State) (k channel : Nat) : State :=
  { s with credits := s.credits.modify (s.portAt k) (fun row => row.modify channel (· - 1)) }

/-- The frame times of a use of a link that have passed unused from a stitch `a` up to a stitch `b` of the same slot, the first of them.  A
reserved one is free once it has passed without a control or time frame (10 R296, R297). -/
def Link.passed (l : Link) (a b : Nat) (u : Use) : Option Nat :=
  let from_ := u.before l.rate (indexFrom l.rate a)
  let m := l.inSlot a
  let n := match u with
    | .control => (((List.range (u.times l.rate)).drop from_).find? (fun i => !m.reservedTaken.contains i)).getD (u.times l.rate)
    | _ => max from_ (m.used u)
  if decide (n < u.times l.rate) && decide (indexFrom l.rate a ≤ u.index l.rate n) && decide (l.timeOf (slotOf a) u n < b) then some n else none

/-- The earliest frame time that has passed unused on a link from a stitch up to another. -/
def State.freeTime (s : State) (k a b : Nat) : Option FrameTime :=
  let l := s.link k
  if !l.up || decide (replayMax ≤ l.replay.length + l.resend.length) then none
  else [Use.data, Use.reserve, Use.control].foldl (fun (best : Option FrameTime) u => match l.passed a b u, best with
    | none, x => x
    | some n, none => some { link := k, slot := a, use := u, n := n }
    | some n, some x => if l.timeOf (slotOf a) u n < l.timeOf (slotOf a) x.use x.n then some { link := k, slot := a, use := u, n := n } else some x) none

/-- A frame goes hop by hop: sent in a free frame time that has passed, when it has a route and credit; dropped and counted without a route. -/
def State.unscheduled (a b : Nat) (s : State) (q : TxFrame) (f : Frame) (item : Option (Course × SendItem)) : State :=
  let g : Frame := { f with frameType := 0x40 }
  let own := match item with
    | some (_, e) => if e.k.kind = 3 then some (e.k.r.par 7 1) else none
    | none => none
  let r := match own with
    | some k => (if s.hasCredit k 0 then Route.hop k 0 false else Route.wait, s)
    | none => s.route g.dest (if q.course.isNone then some q.link else none) (g.flags.getLsbD 1) q.crossed
  let s0 := r.2
  match r.1 with
  | .none =>
    let s1 := (s0.unqueue q).count 15 1
    match item with
    | some (c, e) => s1.updCourse c.id (fun d => { d with sent := d.sent ++ [e.key] })
    | Option.none => s1
  | .wait => s0
  | .hop k channel detour =>
    match s0.freeTime k (max a q.since) b with
    | some ft => (s0.sendWaiting ft q (if detour then { g with flags := g.flags ||| 2 } else g) item channel).takeCredit k channel
    | none => s0

/-- A frame of a direction is sent on its lowest link with a free frame time; one that went by a virtual channel needs its credit again. -/
def State.directed (us : List Use) (s : State) (q : TxFrame) : State :=
  match s.ready q with
  | none => s
  | some (f, item) =>
    let ks := (s.linksOf q.dir).filter (fun k => decide (3 ≤ q.channel) || s.hasCredit k q.channel)
    match us.findSome? (fun u => ks.findSome? (fun k => s.roomIn k [u])) with
    | some ft =>
      let s1 := s.sendWaiting ft q f item q.channel
      if q.channel < 3 then s1.takeCredit ft.link q.channel else s1
    | none => s

/-- The kinds of waiting frames, in the order of R297. -/
def TxFrame.again (q : TxFrame) : Bool := q.frame.flags.getLsbD 0
def TxFrame.forwarded (q : TxFrame) : Bool := !q.again && q.frame.frameType == 0x40 && q.course.isNone
def TxFrame.own (q : TxFrame) : Bool := !q.again && q.frame.frameType == 0x40 && q.course.isSome
def TxFrame.displacedOne (q : TxFrame) : Bool := !q.again && q.frame.frameType == 0x30 && q.planned.isNone

/-- The order of displaced frames: by slot, then entry, then offset (10 R308). -/
def TxFrame.before (a b : TxFrame) : Bool :=
  decide (a.slot < b.slot) || (a.slot == b.slot && (decide (a.entry < b.entry) || (a.entry == b.entry && decide (a.frame.offset.toNat ≤ b.frame.offset.toNat))))

/-- A frame takes its place among displaced ones. -/
def insertDisplaced (q : TxFrame) : List TxFrame → List TxFrame
  | [] => [q]
  | x :: xs => if x.before q then x :: insertDisplaced q xs else q :: x :: xs

/-- The displaced and late frames in their order. -/
def State.displacedQueue (s : State) : List TxFrame := (s.txq.filter TxFrame.displacedOne).foldl (fun l q => insertDisplaced q l) []

/-- Send one frame of a link again. -/
def State.resendIn (s : State) (ft : FrameTime) (r : Replay) : State :=
  (s.updLink ft.link (fun (l : Link) => { l with resend := l.resend.erase r, retransmitted := satAdd 32 l.retransmitted 1 })).putAt
    ft.link ft.slot ft.use ft.n r.frame { course := r.course, channel := r.channel, tries := r.tries + 1, slot := r.slot, entry := r.entry }

/-- The frames that a link sends again: in the retry reserve, then in free frame times (10 R295, R297). -/
def State.resendOn (s : State) (k : Nat) : State :=
  ((s.link k).resend).foldl (fun (s : State) (r : Replay) =>
    let s0 := s.updLink k (fun (l : Link) => { l with resend := l.resend.erase r })
    match s0.roomIn k [.reserve, .data] with
    | some ft => s.resendIn ft r
    | none => s) s

/-- The frames of a course that go without a plan: of records without one, and of transfers. -/
def State.unplanned (s : State) (c : Course) : List SendItem :=
  (s.sends c).filter (fun e => (e.k.r.constRef == 0 || e.k.kind == 3) && !s.handled c e.key)

/-- A course's unplanned frames wait to be sent as soon as their data is ready (11 R321, R331; 10 R311). -/
def State.originate (s : State) (id : Nat) : State :=
  match s.course? id with
  | none => s
  | some c =>
    { s with txq := s.txq ++ ((s.unplanned c).filter (fun e => (e.k.payload e.p e.i).isSome && decide (s.heatOf e.k < 4))).map (fun e =>
        { dir := 0, link := 0, frame := s.frameOf c (s.sends c) e 0x40 [], course := some id, channel := 3, cold := false, filled := false
          crossed := false, since := s.stitch, slot := 0, entry := 0, planned := none }) }

/-- The control and time frames that wait for a slot take its reserved frame times; a time frame beyond them comes first in the free ones
once the plans have theirs (10 R296, R297). -/
def State.sendHeld (s : State) (k : Nat) : State :=
  let hs := (s.link k).waiting
  hs.foldl (fun (s : State) h => s.sendReserved k h) (s.updLink k (fun l => { l with waiting := [] }))

/-- A link that has heard frames and sends none in a slot acknowledges them: by an explicit list where it holds numbers beyond a gap, else
by an idle frame, which a link to a forerunner does not carry (10 R292, R294, R312; when either is sent is not given: log 109). -/
def State.acknowledge (s : State) (k : Nat) : State :=
  let l := s.link k
  if !l.up || !l.ackDue then s
  else if l.held.isEmpty && l.state == 2 then s.sendUnnumbered k (controlFrame 0x00 l.peerDevice [])
  else s.sendAckList k []

/-! ### CUT frames (10 R310) -/

/-- The link that carries a link's CUT frame: itself when up; for one that went down in the drain the next link up of its direction,
ascending and round. -/
def State.cutCarrier (s : State) (k : Nat) : Option Nat :=
  if (s.link k).state = 2 then some k
  else if !(s.link k).cutMoved then none
  else
    let ks := s.linksOf (s.link k).dir
    (ks.find? (fun i => decide (k < i))).or ks.head?

/-- Everything launched before the cut has left on a link: its frame times have come, nothing waits for its direction or to be forwarded, and
every course running on links has sent its frames, by plan or by whatever route. -/
def State.drainedOn (s : State) (k : Nat) : Bool :=
  (s.linksOf (s.link k).dir).all (fun i => (s.link i).replay.all (fun r => !isData r.frame || !r.unsent s.stitch)) &&
  (s.link k).resend.isEmpty && !(s.txq.any (fun q => !q.frame.flags.getLsbD 2 && (q.dir == (s.link k).dir || q.course.isNone))) &&
  s.courses.all (fun c => !(c.target == 4 && c.running && c.kind == .course) || (s.sends c).all (fun e => s.handled c e.key))

/-- A CUT frame leaves on each link whose traffic has drained. -/
def State.sendCut (s : State) (k : Nat) : State :=
  match s.cut, s.cutCarrier k with
  | some x, some c =>
    if s.cutStops && !(s.link k).cutSent && s.drainedOn k then
      let last := (BitVec.ofNat 16 (s.link c).nextSeq) - 1
      (s.updLink k (fun l => { l with cutSent := true })).sendControl c 0x13 (s.link c).peerDevice (le 8 x.stitch ++ le 2 last.toNat)
    else s
  | _, _ => s

/-! ### SLOT_BOUNDARY (10 R296, R297, R306 to R309) -/

/-- The running link courses that have their pages, in launch order. -/
def State.linkCourses (s : State) : List Nat :=
  ((s.courses.filter (fun c => c.target == 4 && c.status == .launched && c.kind == .course)).foldl (fun (acc : List (Nat × Nat)) c =>
    let at0 := c.launchedAt.getD 0
    acc.takeWhile (fun (e : Nat × Nat) => decide (e.1 ≤ at0)) ++ [(at0, c.id)] ++ acc.dropWhile (fun (e : Nat × Nat) => decide (e.1 ≤ at0))) []).map (·.2)

/-- Whether a course that runs on links has a frame that it can send: unsent, with its data here and in its buffer or served by memory
(11 R335). -/
def State.noteSend (s : State) (id : Nat) : State :=
  match s.course? id with
  | none => s
  | some c => s.updCourse id (fun d => { d with canSend := s.maySend c })

/-- Frames that a link could not send again in time take the free frame times that have passed. -/
def State.resendPassed (a b : Nat) (s : State) (k : Nat) : State :=
  ((s.link k).resend).foldl (fun (s : State) (r : Replay) =>
    let s0 := s.updLink k (fun (l : Link) => { l with resend := l.resend.erase r })
    match s0.freeTime k (max a r.sentAt) b with
    | some ft => s.resendIn ft r
    | none => s) s

/-- A frame to be sent again takes a free frame time that has passed on a link of its direction; a direction that is all down sends what
waits for it as detoured unscheduled traffic (10 R308). -/
def State.againPassed (a b : Nat) (s : State) (q : TxFrame) : State :=
  match s.ready q with
  | none => s
  | some (f, item) =>
    if (s.linksOf q.dir).isEmpty then s.unscheduled a b q { f with flags := f.flags ||| 2 } item
    else if !q.again then s
    else
      let ks := (s.linksOf q.dir).filter (fun k => decide (3 ≤ q.channel) || s.hasCredit k q.channel)
      match ks.findSome? (fun k => s.freeTime k (max a q.since) b) with
      | some ft =>
        let s1 := s.sendWaiting ft q f item q.channel
        if q.channel < 3 then s1.takeCredit ft.link q.channel else s1
      | none => s

/-- A forwarded or own unscheduled frame takes a free frame time that has passed on its route. -/
def State.hopPassed (a b : Nat) (s : State) (q : TxFrame) : State :=
  match s.ready q with
  | none => s
  | some (f, item) => s.unscheduled a b q f item

/-- The frame times from a stitch up to another, of one slot, have passed: those that their use left empty have taken the waiting frames in
the order of R297 (10 R296, R297). -/
def State.passTimes (s : State) (w : Nat × Nat) : State :=
  let s1 := (List.range 32).foldl (State.resendPassed w.1 w.2) s
  let s2 := ((s1.txq.filter TxFrame.again) ++ s1.displacedQueue).foldl (State.againPassed w.1 w.2) s1
  let s3 := (s2.txq.filter TxFrame.forwarded).foldl (State.hopPassed w.1 w.2) s2
  (s3.txq.filter TxFrame.own).foldl (State.hopPassed w.1 w.2) s3

/-- The slot whose frame times the links count: the latest. -/
def State.openSlot (s : State) : Nat := (s.links.map (·.slotAt)).foldl max 0

/-- The frame times that have passed are settled: those of the slot that the last boundary began, and those of the present one. -/
def State.sweep (s : State) : State :=
  if s.txq.isEmpty && s.links.all (·.resend.isEmpty) then s
  else
    let o := s.openSlot
    let x := (s.dropPlanned).passTimes (o, min s.stitch (o + 2048))
    if o = slotOf s.stitch then x else x.passTimes (slotOf s.stitch, s.stitch)

/-- What an event on the links leaves to be sent: retransmissions in this slot, planned frames whose data has come, own frames that are ready, and
the CUT frames of links that have drained. -/
def State.settleLinks (s : State) : State :=
  let ids := s.linkCourses
  let s1 := (List.range 32).foldl State.resendOn s
  let s2 := (s1.txq.filter (·.planned.isSome)).foldl State.fillPlanned s1
  let s3 := ids.foldl State.originate s2
  ids.foldl State.noteSend ((List.range 32).foldl State.sendCut s3)

/-- An event on the links: the frame times before it are settled first, and what it brings to be sent after it. -/
def State.onLinks (s : State) (f : State → State) : State := (f s.sweep).settleLinks

/-- A slot begins: plan frames, the waiting control and time frames in the reserved frame times, then retransmissions, displaced and late frames
in the free ones; unscheduled frames take what the others leave as the frame times pass (10 R297, R308). -/
def State.slotBoundary (s : State) : State :=
  if s.stitch % 2048 != 0 then s
  else
    let ids := s.linkCourses
    let s0 := ids.foldl State.prefetch { s with links := s.links.map (fun (l : Link) => l.inSlot s.stitch) }
    let s1 := (List.range 32).foldl State.sendHeld (ids.foldl State.plan (s0, [])).1
    let s2 := (List.range 32).foldl State.resendOn s1
    let s3 := (s2.txq.filter TxFrame.again).foldl (State.directed [.reserve, .data]) s2
    let s4 := s3.displacedQueue.foldl (State.directed [.data]) s3
    (List.range 32).foldl State.acknowledge s4

/-- SLOT_BOUNDARY. -/
def execSlotBoundary (t : Stitch) (s : State) : Host.Outcome State Fault Refusal := s.act t (·.onLinks State.slotBoundary)

/-! ### Data frames that arrive (10 R302, R310 to R312; 11 R331, R332) -/

/-- A course expects a frame that arrives on a link: its record, its part and its index.  A forerunner's link serves the transfer that
names it alone. -/
def State.expectOf (s : State) (c : Course) (link : Nat) (f : Frame) : Option (Coll × Part × Nat) :=
  (s.colls c).findSome? (fun k =>
    if k.forerunner != (s.toForerunner link) || (k.forerunner && k.r.par 7 1 != link) then none
    else (k.parts false).findSome? (fun p => ((k.keys p).find? (fun e => e.1 == f.stream && e.2.1 == f.offset)).map (fun e => (k, p, e.2.2))))

/-- The waits for a frame end: charged to the port it came by, traced when they were long, with the frame as their object (15 R417, R427). -/
def State.endFrameWaits (s : State) (c : Course) (link : Nat) (f : Frame) : State :=
  let port := (s.link link).port
  let src := (s.link link).peerDevice.toNat * 256 + 152 + (s.link link).peerLink
  let mine := fun (e : WaitSpan) => e.key == waitKey 2 1 && decide (152 ≤ e.unit)
  let s1 := (c.waitAcc.filter mine).foldl (fun (x : State) e =>
    let y := x.chargePort c port e.n
    if e.last + 1 - e.first < 1000 then y
    else y.traceRec (some c.job) 0x01 e.unit e.first true
      (waitPayload 2 1 (port.getD 0xFF) c.job.toNat e.last (src % 2 ^ 32) f.stream.toNat f.offset.toNat c.patternTag.toNat c.stepField)) s
  s1.updCourse c.id (fun d => { d with waitAcc := d.waitAcc.filter (fun e => !mine e) })

/-- A frame is placed into the course that expects it, once. -/
def State.placeFrame (s : State) (c : Course) (link : Nat) (f : Frame) (k : Coll) (p : Part) (i : Nat) : State :=
  if c.rx.any (fun r => r.1 == f.stream && r.2.1 == f.offset) then s.count 13 1
  else
    let s1 := (s.endFrameWaits c link f).updCourse c.id (fun d => { d with rx := d.rx ++ [(f.stream, f.offset, f.payload)], awaiting := d.awaiting - 1 })
    if k.edge p i && !f.flags.getLsbD 0 then s1.traceRec (some c.job) 0x03 (152 + link) s1.stitch false (s1.linkPayload link f f.seq.toNat c.job.toNat)
    else s1

/-- A data frame for this member: into the running course that expects it, or dropped and counted.  After an abandonment the frames of the job's
index are dropped for a while, those that a course expects uncounted (11 R332, 13 R379). -/
def State.takeFrame (s : State) (link : Nat) (f : Frame) : State :=
  let index := f.stream.toNat / 0x100000
  let job := s.jobs.find? (fun j => j.skein && j.linkIndex == index)
  let own := s.courses.filter (fun c => c.target == 4 && c.running && c.kind == .course)
  let hit := own.findSome? (fun c => (s.expectOf c link f).map (fun e => (c, e)))
  let barred := match job.bind (·.dropUntil) with
    | some t => !s.toForerunner link && decide (s.stitch < t)
    | none => false
  if f.flags.getLsbD 2 then { s with cut := s.cut.map (fun (x : Cut) => { x with discarded := x.discarded + 1 }) }
  else if !s.toForerunner link && job.isNone then s.count 12 1
  else match hit with
    | some (c, k, p, i) => if barred then s else s.placeFrame c link f k p i
    | none => s.count 14 1

/-- Every frame acknowledges the other direction and takes its place in the sequence (10 R293, R295). -/
def State.frameHeard (s : State) (link : Nat) (f : Frame) : State := (s.ackUpTo link f.ack).updLink link (fun l => l.received f.seq)

/-- DATA_FRAME_RECEIVED: a scheduled frame from a Palrix peer, which ends Standby (14 R395). -/
def State.dataFrame (s : State) (link : Nat) (f : Frame) : State :=
  if (s.link link).state = 2 ∧ f.frameType = 0x30 then ((s.frameHeard link f).wakeModule).takeFrame link f else s

def execDataFrameReceived (t : Stitch) (link : Nat) (frame : Frame) (s : State) : Host.Outcome State Fault Refusal :=
  s.act t (·.onLinks (·.dataFrame link frame))

/-- UNSCHEDULED_FRAME_RECEIVED: delivered here, or waiting to be forwarded, or dropped without a route; a forerunner's frame is never
forwarded, and is discarded during a cut (10 R311, R312). -/
def State.unscheduledFrame (s : State) (link : Nat) (f : Frame) : State :=
  if !(s.link link).up || f.frameType != 0x40 then s
  else
    let s1 := s.frameHeard link f
    if s.toForerunner link then (if s.cutStops then s1 else s1.wakeModule.takeFrame link f)
    else if f.dest = s.skein.device ∨ !s.skein.member then s1.wakeModule.takeFrame link f
    else
      let x := s1.wrapCrossed f.dest link
      let r := x.2.route f.dest (some link) (f.flags.getLsbD 1) x.1
      if r.1 = .none then r.2.count 15 1
      else { r.2 with txq := r.2.txq ++ [{ dir := 0, link := link, frame := { f with flags := f.flags &&& 0xFE }, course := none, channel := 3
                                           cold := false, filled := true, crossed := x.1, since := s.stitch, slot := 0, entry := 0, planned := none }] }

def execUnscheduledFrameReceived (t : Stitch) (link : Nat) (frame : Frame) (s : State) : Host.Outcome State Fault Refusal :=
  s.act t (·.onLinks (·.unscheduledFrame link frame))

/-! ### The state of the links and of what they have sent (10 R291, R292, R294, R295) -/

/-- LINK_UP. -/
def execLinkUp (t : Stitch) (link : Nat) (result : TrainResult) (s : State) : Host.Outcome State Fault Refusal :=
  s.act t (·.onLinks (·.linkUp link result))

/-- LINK_LOSS_OF_LOCK. -/
def execLinkLossOfLock (t : Stitch) (link : Nat) (s : State) : Host.Outcome State Fault Refusal := s.act t (·.onLinks (·.linkLoss link))

/-- IDLE_FRAME_RECEIVED. -/
def execIdleFrameReceived (t : Stitch) (link : Nat) (ack : BitVec 16) (s : State) : Host.Outcome State Fault Refusal :=
  s.act t (·.onLinks (·.idleReceived link ack))

/-- ACK_FRAME_RECEIVED. -/
def execAckFrameReceived (t : Stitch) (link : Nat) (acks naks : List (BitVec 16)) (s : State) : Host.Outcome State Fault Refusal :=
  s.act t (·.onLinks (·.ackReceived link acks naks))

/-- RETRANSMIT_TIMEOUT. -/
def execRetransmitTimeout (t : Stitch) (link : Nat) (seq : BitVec 16) (s : State) : Host.Outcome State Fault Refusal :=
  s.act t (·.onLinks (·.resendTimeout link seq))

/-- UNCORRECTABLE_FRAME. -/
def execUncorrectableFrame (t : Stitch) (link : Nat) (seq : BitVec 16) (s : State) : Host.Outcome State Fault Refusal :=
  s.act t (·.onLinks (·.uncorrectableFrame link seq))

end Sys2Proof.Machine
end

