-- ==== Sys2Proof/Machine/Cut.lean ====
section
/-! DEFINITION. Bind-off cuts: BIND_OFF, the cut stitch, withdrawal, the taking of the cut, cut reports, and RESUME (13 R387 to R390;
10 R310). -/

namespace Sys2Proof.Machine

/-! ### BIND_OFF (13 R387, R388) -/

/-- The first multiple of 2,048 at least 1,000,000 stitches from now. -/
def State.firstSlot (s : State) : Nat := (s.stitch + 1000000 + 2047) / 2048 * 2048

/-- A stitch that BIND_OFF and RESUME refuse. -/
def State.badSlot (s : State) (t : Nat) : Bool := t != 0 && (t % 2048 != 0 || decide (t < s.stitch + 1000000))

/-- The open step of a job as a cut record shows it: the newest one (log 33). -/
def cutStep (j : Option Job) : Nat × Nat :=
  match j.bind (fun j => j.opened.or j.committing) with
  | some p => (p.number, if p.commit.isSome then 2 else 1)
  | none => (counterMax, 0)

/-- Every member has reported; without bo_flags[0] this module alone counts. -/
def State.cutReported (s : State) (x : Cut) : Bool :=
  !x.skein || decide (((s.job? x.job).map (·.memberCount)).getD 1 ≤ x.reports.length + 1)

/-- The record of R388. -/
def State.cutRecord (s : State) (x : Cut) (taken : Nat) : List Byte :=
  let st := cutStep (s.job? x.job)
  let same := x.skein && s.cutReported x && x.reports.all (fun r => r.2.1 == x.stitch)
  record 64 [(0, 4, 0x54435850), (4, 2, 1), (6, 2, (if x.skein then 1 else 0) + (if same then 2 else 0)), (8, 8, x.stitch), (16, 8, taken),
    (24, 4, x.drained), (28, 4, (s.courses.filter (fun c => c.kind == .course && c.status == .queued)).length),
    (32, 4, x.withdrawn.length), (36, 4, if x.skein then x.reports.length + 1 else 1), (40, 8, x.discarded), (48, 8, st.1), (56, 1, st.2)]

/-- BIND_OFF completes with CUT_TAKEN; a cut that is still not taken has no taken stitch, so that field is a free value. -/
def State.endBindOff (s : State) : State :=
  match s.cut with
  | some x => match x.tag with
    | some tag =>
      let d := s.free
      let ended := x.phase == .held || x.phase == .released
      let s1 := if ended then s else d.2
      let s2 := { s1 with cut := if x.phase == CutPhase.released then none else some { x with tag := none } }
      s2.finishData tag [stCutTaken] (s.cutRecord x (if ended then x.taken else d.1.toNat))
    | none => s
  | none => s

/-- BIND_OFF: the cut is recorded; the completion comes with the cut. -/
def State.bindOff (s : State) (c : Cmd) : State :=
  let t := c.op 40 8
  let skein := bitOf (c.op 48 1) 0
  let j := s.openJob? c.tag.jobId
  let bad := c.badLayout || decide (2 ≤ c.op 48 1) || !c.zero 49 15 || s.badSlot t || (c.tag.jobId != 0 && j.isNone) ||
    (skein && !((j.map (·.skein)).getD false))
  let busy := match s.cut with
    | some x => x.phase != .released
    | none => false
  match firstFailure [(bad, stBadField), (busy, stNoResource)] with
  | some k => s.finish c.tag [k] 0
  | none =>
    { s.endBindOff with cut := some { phase := .pending, tag := some c.tag, job := c.tag.jobId, skein := skein
                                      stitch := if t = 0 then s.firstSlot else t, taken := 0, drained := 0, withdrawn := [], aborted := [], discarded := 0
                                      reports := [], resume := none } }

def execBindOff (t : Stitch) (src : Src) (io : HostIo) (s : State) : Host.Outcome State Fault Refusal := s.host t src io 0x0030 false State.bindOff

/-! ### The cut stitch and withdrawal (13 R388) -/

/-- CUT_STITCH_REACHED: launches stop, and links that have drained send their CUT frames. -/
def State.cutStitch (s : State) : State :=
  { s with cut := s.cut.map (fun (x : Cut) => if x.phase = .pending ∧ x.stitch ≤ s.stitch then { x with phase := .stopping } else x) }

def execCutStitchReached (t : Stitch) (s : State) : Host.Outcome State Fault Refusal := s.act t (·.onLinks State.cutStitch)

/-- The last stitch at which the cut waits for frames. -/
def Cut.patience (x : Cut) : Nat := x.stitch + 10000000

/-- A withdrawn course starts over from nothing, without a count. -/
def State.withdraw (s : State) (c : Course) : State :=
  let s1 := (s.stopCourse c 3 0).purge c.id
  (s1.updCourse c.id (fun d => { d.clean with
    shadow := d.shadow, status := .withdrawn, launchedUnits := [], launchedAt := none, slot0 := none })).boundary c

/-- SEAM_COURSE_WITHDRAWAL: a link course launched before the cut still awaits frames 10 ms after it. -/
def State.seamWithdrawal (s : State) (id : Nat) : State :=
  match s.cut, s.course? id with
  | some x, some c =>
    if x.phase == .stopping && c.target == 4 && c.running && decide (0 < c.awaiting) && decide (c.launchedAt.getD s.stitch < x.stitch) &&
        decide (x.patience ≤ s.stitch) then
      let s1 := s.withdraw c
      { s1 with cut := s1.cut.map (fun (y : Cut) => { y with withdrawn := y.withdrawn ++ [id] }) }
    else s
  | _, _ => s

def execSeamCourseWithdrawal (t : Stitch) (course : Nat) (s : State) : Host.Outcome State Fault Refusal :=
  s.act t (·.onLinks (·.seamWithdrawal course))

/-! ### The taking of the cut (10 R310; 13 R388) -/

/-- What the peer sent on a link before its CUT frame is here, and what this side sent is acknowledged. -/
def Link.cutDone (l : Link) : Bool :=
  (match l.cutNeed with
    | some n => decide ((BitVec.ofNat 16 l.expectSeq - 1 - n).toNat < 32768)
    | none => false) &&
  l.resend.isEmpty && l.replay.all (fun r => !isData r.frame)

/-- The links of a direction: those that are up, and those that went down with their peer known (10 R298, R310). -/
def State.cutLinks (s : State) (k : Nat) : List Nat :=
  (List.range 32).filter (fun i => (s.link i).dir == (s.link k).dir && ((s.link i).state == 2 || (s.link i).cutMoved))

/-- A link's part of the cut: its own CUT frame is out, its peer's is here and both ways have drained.  The part of a link that went down
moves to the links of its direction: both its CUT frames travel there, so they hear as many as the direction has links.  A link to a
forerunner, and a direction all down, have no part; after 10 ms a link no longer counts (10 R310, R312; log 34, log 112). -/
def State.linkCut (s : State) (x : Cut) (k : Nat) : Bool :=
  let l := s.link k
  let ks := s.linksOf l.dir
  decide (x.patience ≤ s.stitch) ||
  (if l.state = 2 then l.cutSent && l.cutDone
   else if l.cutMoved && !ks.isEmpty then
     l.cutSent && ks.all (fun i => (s.link i).cutDone) && decide ((s.cutLinks k).length ≤ ((ks.map (fun i => (s.link i).cutHeard)).sum))
   else true)

/-- Every unit is at its boundary and every link has done its part. -/
def State.cutReady (s : State) (x : Cut) : Bool :=
  x.phase == .stopping && s.courses.all (fun c => !c.running) && (List.range 32).all (s.linkCut x)

/-- CUT_TAKEN: the cut holds; the members of a skein exchange their stitches; BIND_OFF completes when no report is missing. -/
def State.cutTaken (s : State) : State :=
  match s.cut with
  | some x =>
    if s.cutReady x then
      let y := { x with phase := .held, taken := s.stitch }
      let s1 := { s with cut := some y }
      let s2 := if x.skein then s1.reportAll x.job (cutBytes s.skein.device x.stitch s.stitch) else s1
      if s2.cutReported y then s2.endBindOff else s2
    else s
  | none => s

def execCutTaken (t : Stitch) (s : State) : Host.Outcome State Fault Refusal := s.act t (·.onLinks State.cutTaken)

/-- CUT_REPORT_RECEIVED: handed on; the first report of each other member counts. -/
def State.cutReport (s : State) (via : Arrival) (member : BitVec 16) (cut taken : Nat) : State :=
  let s0 := s.relayReport via member ((s.cut.map (·.job)).getD 0) (cutBytes member cut taken)
  match s0.cut with
  | some x =>
    if !x.skein || x.tag.isNone || member == s.skein.device || x.reports.any (·.1 == member) then s0
    else
      let y := { x with reports := x.reports ++ [(member, cut, taken)] }
      let s1 := { s0 with cut := some y }
      if (y.phase == .held || y.phase == .released) && s1.cutReported y then s1.endBindOff else s1
  | none => s0

def execCutReportReceived (t : Stitch) (sender : Sender) (cut taken : Nat) (s : State) : Host.Outcome State Fault Refusal :=
  s.act t (·.cutReport sender.via sender.member cut taken)

/-- BIND_OFF_REPORT_TIMEOUT: 1 s after the cut stitch BIND_OFF completes, without the reports that are missing and whether or not the cut is
taken. -/
def State.cutTimeout (s : State) : State :=
  match s.cut with
  | some x => if x.stitch + 1000000000 ≤ s.stitch then s.endBindOff else s
  | none => s

def execBindOffReportTimeout (t : Stitch) (s : State) : Host.Outcome State Fault Refusal := s.act t (·.cutTimeout)

/-! ### RESUME (13 R390) -/

/-- RESUME: recorded for its stitch; a cut must hold and no other RESUME wait. -/
def State.resume (s : State) (c : Cmd) : State :=
  let t := c.op 40 8
  let holds := match s.cut with
    | some x => x.phase == .held && x.resume.isNone
    | none => false
  match firstFailure [(c.badLayout || !c.zero 48 16 || s.badSlot t, stBadField), (!holds, stNoResource)] with
  | some k => s.finish c.tag [k] 0
  | none => { s with cut := s.cut.map (fun (x : Cut) => { x with resume := some (c.tag, if t = 0 then s.firstSlot else t) }) }

def execResume (t : Stitch) (src : Src) (io : HostIo) (s : State) : Host.Outcome State Fault Refusal := s.host t src io 0x0031 false State.resume

/-- A step's deadline moves by the held time, as does a restart due at or after the cut. -/
def Step.shift (p : Step) (cut held : Nat) : Step :=
  { p with deadline := p.deadline.map (· + held), moved := p.moved + held
           phase := match p.phase with
             | .restart r => .restart (if cut ≤ r then r + held else r)
             | q => q }

/-- A course that waits for a frog's restart due at or after the cut waits longer. -/
def Course.shift (c : Course) (cut held : Nat) : Course :=
  if c.status = .frogged ∧ cut ≤ c.restartAt.getD 0 then
    { c with restartAt := c.restartAt.map (· + held), launchStitch := c.launchStitch.map (· + held) }
  else c

/-- Withdrawn courses stand first in their queues. -/
def State.standFirst (s : State) (id : Nat) : State :=
  match s.course? id with
  | some c => c.units.foldl (fun (x : State) u => x.setQueue u (id :: x.queue u)) (s.updCourse id (fun c => { c with status := .queued }))
  | none => s

/-- A withdrawn course launches. -/
def State.relaunch (s : State) (id : Nat) : State :=
  match s.course? id with
  | some c => if c.status = .queued then s.courseLaunch (.link (c.links.headD 0)) else s
  | none => s

/-- RESUME_STITCH_REACHED: withdrawn courses launch, aborted ones run again, the queues go on, deadlines and restarts move by the held time, RESUME completes, and
what waited for the end of the hold is decided. -/
def State.resumeStitch (s : State) : State :=
  match s.cut with
  | some x => match x.resume with
    | some (tag, r) =>
      if x.phase != .held || decide (s.stitch < r) then s
      else
        let held := r - x.stitch
        let shift := fun (o : Option Step) => o.map (fun (p : Step) => p.shift x.stitch held)
        let s1 : State := { s with
          cut := if x.tag.isNone then none else some { x with phase := .released, resume := none }
          links := s.links.map (fun (l : Link) => { l with cutSent := false, cutNeed := none, cutHeard := 0, cutMoved := false })
          courses := s.courses.map (fun (c : Course) => c.shift x.stitch held)
          jobs := s.jobs.map (fun (j : Job) => { j with opened := shift j.opened, committing := shift j.committing }) }
        let s2 := x.withdrawn.foldl State.relaunch (x.withdrawn.reverse.foldl State.standFirst s1)
        let s3 := ((x.aborted.filter (fun id => s2.courses.any (fun c => c.id == id && c.status == .queued))).foldl State.runAgain s2).finish tag [stDone] 0
        let s4 := (s3.courses.filter (·.implicitStep)).foldl (fun (y : State) c => y.settleImplicit c.id) s3
        (s4.jobs.map (·.id)).foldl State.settle s4
    | none => s
  | none => s

def execResumeStitchReached (t : Stitch) (s : State) : Host.Outcome State Fault Refusal := s.act t (·.resumeStitch)

end Sys2Proof.Machine
end

