-- ==== Sys2Proof/Machine/Firmware.lean ====
section
/-! DEFINITION. Firmware update, attestation, SPDM and the Ethernet address (14 R409 to R415; 16 R451). -/

namespace Sys2Proof.Machine

/-! ### Staging (14 R410) -/

/-- The bank that does not run; in recovery none runs, and it is the bank that is not active. -/
def State.stagingB (s : State) : Bool := if s.dev.castOnPhase = 0xFE then !s.fw.activeB else !s.fw.runningB

/-- Replace a bank. -/
def Fw.setBank (f : Fw) (b : Bool) (k : Bank) : Fw := if b then { f with bankB := k } else { f with bankA := k }

/-- Check 1 of R410: the 64-byte header and payload_len. -/
def blockHeaderOk (c : Cmd) (bs : List Byte) : Bool :=
  let len := field bs 24 4
  let off := field bs 20 4
  let image := field bs 16 4
  decide (64 ≤ bs.length) && field bs 0 4 == 0x42465850 && field bs 4 2 == 1 && decide (field bs 6 2 < 2) &&
  decide (4096 ≤ image) && decide (image ≤ 268435456) && image % 64 == 0 && off % 4096 == 0 && decide (64 ≤ len) &&
  decide (len ≤ 4194304) && len % 64 == 0 && decide (off + len ≤ image) && zeroBytes bs 32 32 && c.payloadLen == 64 + len

/-- A 64-byte unit of an image is staged. -/
def Staging.covers (x : Staging) (unit : Nat) : Bool :=
  x.blocks.any (fun b => decide (b.1 ≤ 64 * unit) && decide (64 * unit < b.1 + b.2.length))

/-- Distinct bytes staged so far. -/
def Staging.count (x : Staging) : Nat := 64 * ((List.range (x.length / 64)).filter x.covers).length

/-- One staged unit: the newest block that covers it. -/
def Staging.unitBytes (x : Staging) (unit : Nat) : List Byte :=
  match x.blocks.find? (fun b => decide (b.1 ≤ 64 * unit) && decide (64 * unit < b.1 + b.2.length)) with
  | some b => (b.2.drop (64 * unit - b.1)).take 64
  | none => List.replicate 64 0

/-- The staged image. -/
def Staging.image (x : Staging) : List Byte := (List.range (x.length / 64)).flatMap x.unitBytes

/-- FW_BLOCK: the checks of R410 in order; begin discards what was staged and marks the staging bank invalid. -/
def State.fwBlock (s : State) (c : Cmd) : State :=
  let bs := c.data
  let start := field bs 6 2 == 1
  if c.badLayout || !c.noOperands || c.badPayload 64 || !blockHeaderOk c bs then s.finish c.tag [stBadField] 0
  else if !s.stashOk then s.finish c.tag [stDeviceFault] 0
  else
    let block := (bs.drop 64).take (field bs 24 4)
    if crc32c block ≠ field bs 28 4 then s.finish c.tag [stBlockCheckFail] 0
    else
      let old := if start then some (Staging.mk (BitVec.ofNat 64 (field bs 8 8)) (field bs 16 4) []) else s.fw.staging
      match old with
      | none => s.finish c.tag [stBadField] 0
      | some x =>
        if x.tag.toNat ≠ field bs 8 8 ∨ x.length ≠ field bs 16 4 then s.finish c.tag [stBadField] 0
        else
          let y := { x with blocks := (field bs 20 4, block) :: x.blocks }
          let b := s.stagingB
          let fw := { (s.fw.setBank b { s.fw.bank b with valid := false }) with staging := some y, otherOverwritten := true }
          ({ s with fw := fw, stash := { s.stash with bytesWritten := s.stash.bytesWritten + block.length } }).wear.finish c.tag
            [stDone] y.count

def execFwBlock (t : Stitch) (src : Src) (io : HostIo) (s : State) : Host.Outcome State Fault Refusal :=
  s.host t src io 0x0010 true State.fwBlock

/-! ### Activation (14 R411, R412) -/

/-- The header of an image (14 R409) fits a staged length. -/
def imageHeaderOk (bs : List Byte) (length : Nat) : Bool :=
  field bs 0 4 == 0x57465850 && field bs 4 2 == 1 && field bs 6 2 == deviceId && field bs 16 4 == length && zeroBytes bs 20 44

/-- The image's signature verifies against the Keadan production key (14 R409). -/
def imageSigned (bs : List Byte) : Bool :=
  Config.rsaVerifies Config.keadanModulus Config.keadanExponent (sha512 (bs.take (bs.length - 512))) (bs.drop (bs.length - 512))

/-- version in [31:0], security_version in [63:32]. -/
def versionResult (version security : Nat) : Nat := version + 2 ^ 32 * security

/-- Hibernate entry or exit is in progress. -/
def State.hibernating (s : State) : Bool :=
  (s.pw.module == 3 && s.pw.transition == 1) || (s.pw.module == 4 && s.pw.exits.any (·.1 == .module))

/-- The refusals of R411 for the staged image. -/
def State.stagedChecks (s : State) : List (Bool × Nat) :=
  match s.fw.staging with
  | none => [(true, stBadField)]
  | some x =>
    let whole := x.count == x.length
    let bs := x.image
    [(!whole || !imageHeaderOk bs x.length || decide (field bs 12 4 < s.fw.floor), stBadField), (whole && !imageSigned bs, stSignatureFail)]

/-- The refusals of R411 for the other bank's image. -/
def State.otherChecks (s : State) : List (Bool × Nat) :=
  let k := s.fw.bank s.stagingB
  [(s.fw.otherOverwritten || !k.valid || decide (k.security < s.fw.floor), stBadField),
   (!s.fw.otherOverwritten && k.valid && !k.signed, stSignatureFail)]

/-- Every unit that switches its microcode after a handover: panel sequencers by their first needle, engines, links, memory
controllers, the Stash controller (14 R412 step 6). -/
def reloadUnits : List Nat :=
  (List.range 12).map (12 * ·) ++ (List.range 8).map (144 + ·) ++ (List.range 32).map (152 + ·) ++ [186] ++ (List.range 12).map (188 + ·)

/-- The staged image as a bank. -/
def stagedBank (x : Staging) : Bank :=
  let bs := x.image
  { valid := true, signed := true, version := BitVec.ofNat 32 (field bs 8 4), security := field bs 12 4, image := bs }

/-- Activate the bank: the directory marks it active and on trial, one more write of the Stash; in recovery cast-on starts again at phase 0x02 with
it, otherwise the handover is awaited (14 R407, R412). -/
def State.activate (s0 : State) (c : Cmd) (action : Nat) : State :=
  let s := s0.wear
  let b := s.stagingB
  let fw0 := match s.fw.staging with
    | some x => if action = 1 then s.fw.setBank b (stagedBank x) else s.fw
    | none => s.fw
  let fw := { fw0 with activeB := b, trial := true }
  if s.dev.castOnPhase = 0xFE then
    let k := fw.bank b
    let s1 := ({ s with fw := { fw with staging := none, otherOverwritten := false } }).finish c.tag [stDone] (versionResult k.version.toNat k.security)
    { s1 with dev := { s1.dev with castOnPhase := 2, hostReady := false } }
  else { s with fw := { fw with activation := some (c.tag, action) } }

/-- FW_ACTIVATE (14 R411); an image that the Stash cannot rebuild ends it with BLOCK_CHECK_FAIL (12 R353). -/
def State.fwActivate (s : State) (c : Cmd) : State :=
  let action := c.op 40 1
  let layout := c.badLayout || decide (2 < action) || !c.zero 41 23
  let busy := s.fw.activation.isSome || !s.fw.reload.isEmpty || s.hibernating
  let checks := if action = 2 then s.otherChecks else if action < 2 then s.stagedChecks else []
  match firstFailure ((layout, stBadField) :: (!s.stashOk, stDeviceFault) :: (busy, stNoResource) :: checks) with
  | some k => s.finish c.tag [k] 0
  | none =>
    if c.stashBad then s.lostPage.finish c.tag [stBlockCheckFail] 0
    else if action = 0 then
      match s.fw.staging with
      | some x => s.finish c.tag [stDone] (versionResult (stagedBank x).version.toNat (stagedBank x).security)
      | none => s.finish c.tag [stDone] 0
    else s.activate c action

def execFwActivate (t : Stitch) (src : Src) (io : HostIo) (s : State) : Host.Outcome State Fault Refusal :=
  s.host t src io 0x0011 true State.fwActivate

/-- An unsettled verdict of a skein step, or its deadline within the next 4,000,000 stitches (14 R412 step 3). -/
def State.stepHolds (s : State) (p : Step) : Bool :=
  ((p.verdict.isSome || !p.reports.isEmpty) && (p.phase == .running || p.phase == .decided)) ||
  (match p.deadline with
   | some d => decide (s.stitch ≤ d) && decide (d < s.stitch + 4000000)
   | none => false)

/-- A handover point holds (14 R412 step 3). -/
def State.handoverPoint (s : State) : Bool :=
  s.admin.latched.isNone && s.rings.all (fun g => g.fetched.isEmpty && g.waiting.isNone) &&
  s.jobs.all (fun j => !j.skein || !(j.opened.toList ++ j.committing.toList).any s.stepHolds)

/-- The new Sundola has taken over: its version reads, the units await their reload, the completions and the records that waited are written, and
the command completes (14 R412 step 4; 15 R440). -/
def State.handedOver (s : State) (tag : CmdTag) : State :=
  let k := s.fw.bank s.fw.activeB
  let s1 := { s.majorChange s.fw.running k.version with
     dev := { s.dev with fwActivating := false }
     fw := { s.fw with late := [], runningB := s.fw.activeB, running := k.version, runningSec := k.security, trialSince := s.stitch, activation := none,
                       staging := none, otherOverwritten := false, reload := reloadUnits, before := s.fw.running } }
  (s.fw.late.foldl State.complete s1).writeHeld.finish tag [stDone] (versionResult k.version.toNat k.security)

/-- FW_HANDOVER: at a handover point the handover begins and fw_activating is set; given again, it ends (14 R412 step 4;
log 25). -/
def State.fwHandover (s : State) : State :=
  match s.fw.activation with
  | none => s
  | some (tag, _) =>
    if s.dev.fwActivating then s.handedOver tag
    else if s.handoverPoint then { s with dev := { s.dev with fwActivating := true } } else s

def execFwHandover (t : Stitch) (s : State) : Host.Outcome State Fault Refusal := s.act t (·.fwHandover)

/-- A unit stands at the boundary where it may switch (14 R412 step 6); panels and engines that are off in Standby or Hibernate reload when
they exit (14 R401). -/
def State.mayReload (s : State) (u : Nat) : Bool :=
  if u < 144 then s.pw.module == 0 && !(s.courses.any (·.runsOn (.panel (u / 12))))
  else if u < 152 then s.pw.module == 0 && !(s.courses.any (·.runsOn (.engine (u - 144))))
  else if u < 184 then s.stitch % 2048 == 0 else true

/-- UNIT_MICROCODE_SWITCH: the unit runs the new code from its second bank. -/
def State.microcodeSwitch (s : State) (u : Nat) : State :=
  if s.fw.reload.contains u && s.mayReload u then { s with fw := { s.fw with reload := s.fw.reload.filter (· != u) } } else s

def execUnitMicrocodeSwitch (t : Stitch) (unit : Nat) (s : State) : Host.Outcome State Fault Refusal := s.act t (·.microcodeSwitch unit)

/-- FW_TRIAL_EXPIRY: after 60 s the trial mark clears and the floor rises to the running security_version (14 R412 step 7). -/
def State.trialExpiry (s : State) : State :=
  if s.fw.trial && s.fw.activation.isNone && s.fw.runningB == s.fw.activeB && decide (s.fw.trialSince + 60000000000 ≤ s.stitch) then
    { s with fw := { s.fw with trial := false, floor := max s.fw.floor s.fw.runningSec } }
  else s

def execFwTrialExpiry (t : Stitch) (s : State) : Host.Outcome State Fault Refusal := s.act t (·.trialExpiry)

/-! ### Attestation (14 R413, R414) -/

/-- Packs in ascending pack_id. -/
def packsInOrder (ps : List Pack) : List Pack :=
  ps.foldl (fun acc p => acc.takeWhile (fun x => decide (x.id.toNat < p.id.toNat)) ++ [p] ++ acc.dropWhile (fun x => decide (x.id.toNat < p.id.toNat))) []

/-- The digest of the running firmware image before its signature. -/
def State.imageDigest (s : State) : List Byte :=
  let img := (s.fw.bank s.fw.runningB).image
  if img.isEmpty then Config.firmwareDigest s.fw.running else sha512 (img.take (img.length - 512))

/-- The digest of the configuration record in force; all zeros under factory defaults. -/
def State.recordDigest (s : State) : List Byte :=
  if s.dev.configFactory then List.replicate 64 0
  else match (if s.cfg.inForceB then s.cfg.slotB else s.cfg.slotA) with
    | some r => sha512 r.bytes
    | none => List.replicate 64 0

/-- One measurement, 64 bytes (14 R413). -/
def State.measurement (s : State) (i : Nat) : List Byte :=
  slice (match i with
    | 1 => Config.bootRomDigest
    | 2 => s.imageDigest
    | 3 => Config.microcodeDigest s.fw.running s.fw.before s.fw.reload
    | 4 => s.recordDigest
    | 5 => s.cfg.fields.ownerKeyDigest
    | 6 => sha512 ((packsInOrder s.stash.packs).flatMap (fun p => sha512 p.bytes))
    | 7 => sha512 (le 4 s.fw.runningSec ++ le 4 s.fw.floor ++ [s.dev.stepping])
    | _ => sha512 s.tokenBytes) 0 64

/-- The measurements a mask selects, ascending. -/
def maskIndices (m : Nat) : List Nat := (List.range 9).filter (fun i => bitOf m i)

/-- The signed report (14 R414). -/
def State.attestReport (s : State) (mask : Nat) (nonce : List Byte) : List Byte :=
  let ix := maskIndices mask
  let body := overlayBytes (record 64 [(0, 4, 0x54415850), (4, 2, 1), (6, 1, ix.length), (40, 8, s.dev.serial.toNat), (48, 8, s.stitch),
      (56, 4, s.fw.running.toNat), (60, 4, s.fw.runningSec)]) 8 (slice nonce 0 32) ++
    ix.flatMap (fun i => record 8 [(0, 1, i)] ++ s.measurement i)
  body ++ slice (Config.rsaSign (sha512 body)) 0 512

/-- ATTEST (14 R414). -/
def State.attest (s : State) (c : Cmd) : State :=
  let action := c.op 40 1
  let mask := c.op 44 4
  let bad := c.badLayout || decide (1 < action) || !c.zero 41 3 || !c.zero 48 16 ||
    (action == 0 && (mask == 0 || mask % 2 == 1 || decide (512 ≤ mask) || c.badPayload 32))
  if bad then s.finish c.tag [stBadField] 0
  else if action = 1 then s.finishData c.tag [stDone] Config.certChain
  else s.finishData c.tag [stDone] (s.attestReport mask c.data)

def execAttest (t : Stitch) (src : Src) (io : HostIo) (s : State) : Host.Outcome State Fault Refusal :=
  s.host t src io 0x0012 true State.attest

/-! ### SPDM (14 R415; code points and layouts are DMTF's: log 26) -/

/-- An answer signed by the PUF-derived key. -/
def spdmSigned (body : List Byte) : List Byte := body ++ Config.spdmSign body

/-- The answer to a request, `none` for one that the responder refuses. -/
def State.spdmAnswer (s : State) (r : SpdmReq) : Option (List Byte) :=
  match r with
  | .getVersion => some (Config.spdmBody 0x84 0 ++ [0x12, 0x13])
  | .getCapabilities => some (Config.spdmBody 0xE1 0)
  | .negotiateAlgorithms sig hash => if sig.getLsbD 5 && hash.getLsbD 2 then some (Config.spdmBody 0xE3 0) else none
  | .getDigests => if s.mgmt.spdmNegotiated then some (Config.spdmBody 0x81 0 ++ sha512 Config.certChain) else none
  | .getCertificate slot off len =>
    if s.mgmt.spdmNegotiated && slot == 0 then some (Config.spdmBody 0x82 0 ++ (Config.certChain.drop off.toNat).take len.toNat) else none
  | .challenge slot nonce =>
    if s.mgmt.spdmNegotiated && slot == 0 then some (spdmSigned (Config.spdmBody 0x83 0 ++ nonce)) else none
  | .getMeasurements i nonce =>
    if s.mgmt.spdmNegotiated && decide (1 ≤ i.toNat) && decide (i.toNat ≤ 8) then
      some (spdmSigned (Config.spdmBody 0xE0 i.toNat ++ s.measurement i.toNat ++ nonce))
    else none
  | .other _ => none

/-- A request reaches the responder: over SMBus at the strapped address, or over the Ethernet port, once it has an address, in a UDP datagram to
port 61,440 (16 R450, R451). -/
def State.spdmReaches (s : State) : MgmtPath → Bool
  | .smbus address => address == 0x40 + s.mgmt.strap.toNat
  | .udp port => port == 61440 && s.mgmt.ipv4.isSome

/-- SPDM_REQUEST: what reaches the responder is answered, a refused request with an error. -/
def State.spdm (s : State) (via : MgmtPath) (r : SpdmReq) : State :=
  if !s.spdmReaches via then s
  else
    let ok := (s.spdmAnswer r).isSome
    let m := match r with
      | .getVersion => { s.mgmt with spdmNegotiated := false, spdmVersion := 0x13 }
      | .negotiateAlgorithms _ _ => { s.mgmt with spdmNegotiated := ok }
      | _ => s.mgmt
    ({ s with mgmt := m }).emit (.spdm ((s.spdmAnswer r).getD (Config.spdmBody 0x7F 0)))

def execSpdmRequest (t : Stitch) (via : MgmtPath) (req : SpdmReq) (s : State) : Host.Outcome State Fault Refusal :=
  s.act t (·.spdm via req)

/-! ### The Ethernet port (16 R451) -/

/-- DHCP_ADDRESS: the port has its address. -/
def State.dhcpAddress (s : State) (addr : Word) : State := { s with mgmt := { s.mgmt with ipv4 := some addr, linkLocal := false } }

def execDhcpAddress (t : Stitch) (addr : Word) (s : State) : Host.Outcome State Fault Refusal := s.act t (·.dhcpAddress addr)

/-- DHCP_FALLBACK_TIMEOUT: without an address after 10 s, counted from the counter's release, the port takes a link-local one, 169.254.x.y with x and y free. -/
def State.dhcpFallback (s : State) : State :=
  if s.mgmt.ipv4.isSome || decide (s.stitch < s.mgmt.dhcpSince + 10000000000) then s
  else
    let f := s.free
    { f.2 with mgmt := { f.2.mgmt with ipv4 := some (0xA9FE0000 + (f.1.setWidth 16).setWidth 32), linkLocal := true } }

def execDhcpFallbackTimeout (t : Stitch) (s : State) : Host.Outcome State Fault Refusal := s.act t (·.dhcpFallback)

end Sys2Proof.Machine
end

