-- ==== Sys2Proof/Machine/Darn.lean ====
section
/-! DEFINITION. Darning packs: their layout and checks, DARN_LOAD, and whether an item's expected output is the one the operation gives
(13 R382, R383). -/

namespace Sys2Proof.Machine

/-! ### Items (13 R382) -/

/-- An item of a pack. -/
structure Item where
  id : Nat
  op : Nat
  mode : Nat
  flags : Nat
  params : List Byte
  dataAt : Nat
  dataLen : Nat

/-- Item i of a body. -/
def itemAt (body : List Byte) (i : Nat) : Item :=
  let r := (body.drop (64 * i)).take 64
  { id := field r 0 4, op := field r 4 2, mode := field r 6 1, flags := field r 7 1, params := slice r 8 48, dataAt := field r 56 4
    dataLen := field r 60 4 }

/-- The body of a pack. -/
def packBody (b : List Byte) : List Byte := (b.drop 48).take (field b 32 4)

/-- The items of a pack. -/
def packItems (b : List Byte) : List Item := (List.range (field b 12 4)).map (itemAt (packBody b))

/-- An item as an operation record whose slots 0 to 3 are dst, A, B and C; B is there when the operation reads it, C when the item says so. -/
def Item.asRecord (x : Item) : OpRec :=
  { index := 0, op := x.op, flags := (if bitOf x.flags 1 then 4 else 0) + x.flags / 4 % 4 * 8, dst := 0, a := 1
    b := if x.op == 0x0003 && (decide (fnArity (field x.params 0 2) < 2) || bitOf (field x.params 2 2) 0) then noSlot else 2
    c := if bitOf x.flags 0 then 3 else noSlot, constRef := 0, params := x.params }

/-- The format of a slot of an item: a VEC_MAP item states none, so which formats of the vector units it has is a free value (log 36). -/
def Item.format (x : Item) (slot : Nat) : Nat :=
  if x.op = 0x0003 then
    [0x08, 0x07, 0x05, 0x06, 0x02, 0x03, 0x04, 0x09, 0x0A].getD ((Config.mapItemFormats x.params).toList.getD slot 0 % 9) 0x08
  else if x.op = 0x0001 then [field x.params 14 1, field x.params 12 1, field x.params 13 1, field x.params 14 1].getD slot 0x08
  else 0x08

/-- A pattern image of four slots of open format and the item's array mode. -/
def Item.image (x : Item) : List Byte := record 64 [(6, 1, 1), (7, 1, x.mode), (12, 2, 1), (14, 2, 4)]

/-- Bytes of a section of elements. -/
def sectionBytes (count width : Nat) : Nat := (count * width + 7) / 8

/-- The sections of a MATMUL item's data: elements and width of A, B, C and the expected output. -/
def Item.sections (x : Item) : List (Nat × Nat) :=
  let p := fun off n => field x.params off n
  let m := p 0 4
  let n := p 4 4
  let k := p 8 4
  [(m * k, fmtBits (p 12 1)), (k * n, fmtBits (p 13 1))] ++ (if bitOf x.flags 0 then [(m * n, fmtBits (p 14 1))] else []) ++ [(m * n, fmtBits (p 14 1))]

/-- The slots of a VEC_MAP item's data in order: A, B and C where they are there, and the expected output. -/
def Item.mapSlots (x : Item) : List Nat :=
  [1] ++ (if x.asRecord.b = noSlot then [] else [2]) ++ (if x.asRecord.c = noSlot then [] else [3]) ++ [0]

/-- Bytes of the elements of a slot of a VEC_MAP item, and of all its slots. -/
def Item.mapSize (x : Item) (slot : Nat) : Nat := fmtBits (x.format slot) / 8
def Item.mapStride (x : Item) : Nat := (x.mapSlots.map x.mapSize).sum

/-- An item breaks its ranges, or R155 or R210. -/
def Item.bad (x : Item) (count bodyLength : Nat) : Bool :=
  let p := fun off n => field x.params off n
  let k := checkMap 4 x.format x.asRecord
  decide (16 ≤ x.flags) || x.flags / 4 % 4 == 3 || x.dataAt % 64 != 0 || decide (x.dataAt < 64 * count) || decide (bodyLength < x.dataAt + x.dataLen) ||
  (if x.op = 0x0001 then
     decide (2 < x.mode) || p 16 2 != 0 || p 20 4 != 1 || decide (64 < p 0 4) || decide (64 < p 4 4) || decide (64 < p 8 4) ||
     (checkMatmul x.image x.asRecord).params.any (·.2) || (bitOf x.flags 1 && badStochastic x.asRecord (p 14 1)) || x.dataLen != (x.sections.map (fun s => sectionBytes s.1 s.2)).sum
   else if x.op = 0x0003 then
     x.mode != 0 || k.flags || k.a || k.b || k.c || k.params.any (·.2) || x.dataLen % x.mapStride != 0
   else if x.op = 0x0020 then
     x.mode != 0 || p 0 4 == 0 || decide (64 < p 0 4) || !zeroBytes x.params 4 44 || x.dataLen != 8 * (p 0 4 * p 0 4 + 2 * p 0 4)
   else true)

/-! ### What an item gives -/

/-- Element i of packed data of a width. -/
def packedAt (d : List Byte) (w i : Nat) : Nat :=
  if w < 8 then (d.getD (i * w / 8) 0).toNat / 2 ^ (i * w % 8) % 2 ^ w else leVal ((d.drop (i * w / 8)).take (w / 8))

/-- A MATMUL item gives its expected output: keyed with seed 0, step 0 and the item's identifier as the tensor's. -/
def Item.matmulOk (x : Item) (data : List Byte) : Bool :=
  let p := fun off n => field x.params off n
  let n := p 4 4
  let k := p 8 4
  let fl := p 15 1
  let out := p 14 1
  let bytes := x.sections.map (fun s => sectionBytes s.1 s.2)
  let sec := fun (i : Nat) => data.drop ((bytes.take i).sum)
  let el := fun (d : List Byte) (f i : Nat) => decodeElem f (packedAt d (fmtBits f) i) 0x7F
  let a := fun i q => el (sec 0) (p 12 1) (if bitOf fl 0 then i + p 0 4 * q else q + k * i)
  let b := fun j q => el (sec 1) (p 13 1) (if bitOf fl 1 then j + n * q else q + k * j)
  let hasC := bitOf x.flags 0
  let c := fun i j => if hasC then some (el (sec 2) out (j + n * i)) else none
  let want := sec (if hasC then 3 else 2)
  let rd : Rounding := if bitOf x.flags 1 then .stochastic x.asRecord.bits (({ seed := 0, step := 0 } : Lane).key x.id 0) else .nearest
  (List.range (p 0 4)).all (fun i => (List.range n).all (fun j =>
    let v := (productValue (p 12 1) (bitOf fl 2) (c i j) ((List.range k).map (fun q => some (a i q, b j q)))).1
    (writeElem out 0x7F rd [j, i, 0, 0] v).1 == packedAt want (fmtBits out) (j + n * i)))

/-- The solution of a SOLVE_STEP item: a general structure with every entry stored, τ = 2⁻⁴⁰, no refinement. -/
def denseSolve (n : Nat) (a b : List Val) : List Val :=
  let es := (List.range n).flatMap (fun i => (List.range n).map (fun j => (i, j, a.getD (j + n * i) Val.zero)))
  let rows := List.replicate n (List.range n)
  let f0 : Fac := { es := [], rep := [], ok := !(a.any (fun v => !v.finite) || a.all Val.isZero) }
  let f := (List.range n).foldl (facColumn 0 (-40) es rows) f0
  if f.ok then (f.factor 0).solve 0 n false b else nans n

/-- A SOLVE_STEP item gives its expected output. -/
def Item.solveOk (x : Item) (data : List Byte) : Bool :=
  let n := field x.params 0 4
  let v := fun i => fp64.decode (packedAt data 64 i)
  let got := denseSolve n ((List.range (n * n)).map v) ((List.range n).map (fun i => v (n * n + i)))
  (List.range n).all (fun i => bits64 (got.getD i Val.zero) == packedAt data 64 (n * n + n + i))

/-- A VEC_MAP item gives its expected output: as many elements as its data holds, in one dimension (log 36), keyed as a MATMUL item's; an
element whose predicate is zero is not written. -/
def Item.mapOk (x : Item) (data : List Byte) : Bool :=
  let r := x.asRecord
  let fn := r.par 0 2
  let mf := r.par 2 2
  let n := data.length / x.mapStride
  let sec := fun (slot : Nat) => data.drop (n * ((x.mapSlots.takeWhile (· != slot)).map x.mapSize).sum)
  let el := fun (slot i : Nat) => decodeElem (x.format slot) (packedAt (sec slot) (8 * x.mapSize slot) i) 0x7F
  let rd : Rounding := if r.stochastic then .stochastic r.bits (({ seed := 0, step := 0 } : Lane).key x.id 0) else .nearest
  (List.range n).all (fun i =>
    let b := if bitOf mf 0 then fp64.decode (r.par 8 8) else if r.b = noSlot then Val.zero else el 2 i
    let c := if bitOf mf 1 then fp64.decode (r.par 16 8) else if r.c = noSlot then Val.zero else el 3 i
    (bitOf mf 2 && c.isZero) ||
      (writeElem (x.format 0) 0x7F rd [i, 0, 0, 0] (mapValue fn (el 1 i) b c)).1 == packedAt (sec 0) (8 * x.mapSize 0) i)

/-- What the operation of an item gives is what the pack expects. -/
def Item.expected (x : Item) (body : List Byte) : Bool :=
  let data := (body.drop x.dataAt).take x.dataLen
  if x.op = 0x0001 then x.matmulOk data else if x.op = 0x0020 then x.solveOk data else x.mapOk data

/-! ### DARN_LOAD (13 R383) -/

/-- The length of a pack by its header. -/
def packLength (b : List Byte) : Nat := 48 + field b 32 4 + (if field b 6 2 = 1 then 516 else 0) + 512

/-- Step 1 of R383. -/
def packBad (b : List Byte) : Bool :=
  let n := field b 12 4
  let len := field b 32 4
  field b 0 4 != 0x4E445850 || field b 4 2 != 1 || decide (1 < field b 6 2) || field b 8 4 == 0 || n == 0 || decide (65535 < n) ||
  len % 64 != 0 || decide (len < 64 * n) || !zeroBytes b 36 12 || decide (b.length < packLength b) ||
  (packItems b).any (fun x => x.bad n len) || decide (((packItems b).map (·.id)).dedup.length < n)

/-- Bytes of the darning area (12 R352). -/
def darnBytes : Nat := 4 * 2 ^ 30

/-- A running SELF_TEST uses a pack. -/
def State.packInUse (s : State) (id : Word) : Bool := s.selfTests.any (fun r => r.testSet != 0 && r.packs.any (·.id == id))

/-- Action 0: check and store a pack; one of the same pack_id is replaced; the pack_id of action 1 is no field of it (log 15). -/
def State.packIn (s : State) (c : Cmd) : State :=
  let d := c.data
  let b := d.take (packLength d)
  let id := BitVec.ofNat 32 (field b 8 4)
  let others := s.stash.packs.filter (·.id != id)
  let layout := c.badLayout || !c.zero 41 3 || !c.zero 48 16 || c.badPayload 48 || decide (67108864 < c.payloadLen)
  if layout then s.finish c.tag [stBadField] 0
  else match inOrder [
      (packBad b, stBadField), (!s.signedOk (field b 6 2) b, stSignatureFail),
      ((field b 24 8 != 0 && field b 24 8 != s.dev.serial.toNat) ||
        s.stash.packs.any (fun p => p.id == id && decide (field b 16 8 ≤ p.sequence)), stBadField),
      (decide (256 ≤ others.length) || decide (darnBytes < ((others.map (fun p => p.bytes.length)).sum + b.length)), stNoResource),
      (!s.stashOk, stDeviceFault)] with
  | some k => s.finish c.tag [k] 0
  | none =>
    ({ s with stash := { s.stash with
        packs := others ++ [Pack.mk id (field b 16 8) b]
        bytesWritten := s.stash.bytesWritten + b.length } }).wear.finish c.tag [stDone] 0

/-- Action 1: delete a pack; one that is not loaded is BAD_FIELD (log 37). -/
def State.packOut (s : State) (c : Cmd) : State :=
  let id := BitVec.ofNat 32 (c.op 44 4)
  match firstFailure [(c.badLayout || !c.zero 41 3 || !c.zero 48 16 || !(s.stash.packs.any (·.id == id)), stBadField),
      (s.packInUse id, stNoResource), (!s.stashOk, stDeviceFault)] with
  | some k => s.finish c.tag [k] 0
  | none => ({ s with stash := { s.stash with packs := s.stash.packs.filter (·.id != id) } }).wear.finish c.tag [stDone] 0

/-- DARN_LOAD. -/
def State.darnLoad (s : State) (c : Cmd) : State :=
  if c.op 40 1 = 0 then s.packIn c else if c.op 40 1 = 1 then s.packOut c else s.finish c.tag [stBadField] 0

def execDarnLoad (t : Stitch) (src : Src) (io : HostIo) (s : State) : Host.Outcome State Fault Refusal := s.host t src io 0x0013 false State.darnLoad

end Sys2Proof.Machine
end

