-- ==== Sys2Proof/Machine/Engines.lean ====
section
/-! DEFINITION. The commands of the cable engines: start, cut-off, deadline and end of operations, and the loss of an engine
(09 R260, R262, R279, R280, R283 to R285, R289). -/

namespace Sys2Proof.Machine

/-! ### ENGINE_OPERATION_START (09 R262, R289) -/

/-- A launch whose structure uses a lost engine ends as after a third abort. -/
def State.abandonAtLaunch (s : State) (c : Course) : State :=
  let s1 := if c.kind = .solve then s else s.traceRetire c 2 7
  match s1.course? c.id with
  | some d => s1.abandon { d with abortCauses := d.abortCauses ++ [7] }
  | none => s1

/-- The course or SOLVE at the head of an engine's queue starts once it heads the queue of every engine of its mask. -/
def State.engineStart (s : State) (e : Nat) : State :=
  match s.headCourse (.engine e) with
  | none => s
  | some c =>
    if !s.mayLaunch c (.engine e) then s
    else if c.engines.any (fun k => !((s.engines[k]?).map (·.up)).getD false) then s.abandonAtLaunch c
    else (s.start c c.units).startRun c.id 0

def execEngineOperationStart (t : Stitch) (engine : Nat) (s : State) : Host.Outcome State Fault Refusal := s.act t (·.engineStart engine)

/-! ### Cut-off and deadline (09 R279, R280) -/

/-- The operation that a course runs: its job, its structure, what it asks for. -/
def State.running? (s : State) (c : Course) : Option (Job × Structure × SolveSpec × SolveRun) :=
  match s.job? c.job, c.run with
  | some j, some r => match (s.specs c j)[r.index]? with
    | some q => (j.structures.find? (·.handle == q.handle)).map (fun x => (j, x, q, r))
    | none => none
  | _, _ => none

/-- SOLVE_FACTOR_CUTOFF: the new factor is abandoned while it is being computed. -/
def State.factorCutoff (s : State) (id : Nat) : State :=
  match s.course? id with
  | none => s
  | some c => match s.running? c with
    | none => s
    | some (j, x, q, r) => match r.deadline with
      | none => s
      | some d =>
        if bitOf q.phases 1 && cutoffPast d (x.reserve (q.limit j)) s.stitch then
          s.updCourse id (fun c => { c with run := some { r with factorCut := true } })
        else s

def execSolveFactorCutoff (t : Stitch) (op : Nat) (s : State) : Host.Outcome State Fault Refusal := s.act t (·.factorCutoff op)

/-- SOLVE_DEADLINE_REACHED: no further phase or refinement step starts; how many tests had passed is a free value. -/
def State.solveDeadlineReached (s : State) (id : Nat) : State :=
  match s.course? id with
  | none => s
  | some c => match c.run with
    | none => s
    | some r => match r.deadline with
      | none => s
      | some d =>
        if d ≤ s.stitch ∧ r.deadlineCut.isNone then
          let f := s.free
          f.2.updCourse id (fun c => { c with run := some { r with deadlineCut := some (f.1.toNat % 9) } })
        else s

def execSolveDeadlineReached (t : Stitch) (op : Nat) (s : State) : Host.Outcome State Fault Refusal := s.act t (·.solveDeadlineReached op)

/-! ### SOLVE_OPERATION_END (09 R260, R283 to R285) -/

/-- The results of an operation enter its course: staging, flags, maxima, and the version in progress; the next record starts. -/
def State.endRecord (s : State) (c : Course) (j : Job) (q : SolveSpec) (r : SolveRun) (v : SolveRes) (d : Done) : State :=
  let keep := c.progress.map (fun (p : Progress) => if p.handle = q.handle then { p with version := v.version, made := p.made + (if v.made then 1 else 0) } else p)
  let s1 := s.updCourse c.id (fun c => { c.takeDone d with progress := keep, run := none })
  if r.index + 1 < (s.specs c j).length then s1.startRun c.id (r.index + 1) else s1

/-- A SOLVE ends: its outputs are published and seen by the host, its version installed, its record written (09 R283). -/
def State.endSolve (s : State) (id : Nat) (v : SolveRes) : State :=
  match s.course? id with
  | none => s
  | some c =>
    let s1 := c.flags.foldl (fun x f => x.flagTile c f) s
    let s2 := ((s1.publish c).installAll c).expose (fun e => e.course == id)
    let s3 := s2.bookAttempt c false
    let s4 := (({ s3 with courses := s3.courses.filter (·.id != id) }).boundary c).sweepViews c.job
    (s4.finishData c.tag v.codes v.bytes).tryClose c.job

/-- SOLVE_OPERATION_END: an operation computes, writes its outputs and its record; without staging pages it waits for them. -/
def State.operationEnd (s : State) (id : Nat) : State :=
  match s.course? id with
  | none => s
  | some c => match s.running? c with
    | none => s
    | some (j, x, q, r) => match j.startVersion c q.handle with
      | none => s
      | some v0 =>
        if c.status != .launched then s
        else
          let made := (c.progress.filter (·.handle == q.handle)).map (·.made)
          let v := x.operate j.tauLog2 (s.solveReq c j x q r) v0 (x.factorGen + made.sum)
          let o := s.solveOut c j x q v
          let d0 := o.writes.foldl Done.put (s.doneOf c)
          let d := { d0 with flags := d0.flags ++ o.flags }
          let s1 := { s with freeCtr := s.freeCtr + launchDraws }
          if !s.poolServes j ((d.view.ovs.headD Overlay.empty).added c.staging) then
            let o := d.view.ovs.headD Overlay.empty
            let got := (s1.poolGives j [] (o.added c.staging).pages).foldl View.touch (s1.courseView c)
            s1.updCourse id (fun c => { c with staging := got.ovs.headD c.staging, status := .waitPages, stalled := [.engine (c.engines.headD 0)] })
          else
            let s2 := s1.endRecord c j q r v d
            if c.kind = .solve then s2.endSolve id v else s2

def execSolveOperationEnd (t : Stitch) (op : Nat) (s : State) : Host.Outcome State Fault Refusal := s.act t (·.operationEnd op)

/-! ### CABLE_ENGINE_LOST (09 R289) -/

/-- The operation on a lost engine aborts, and its structure uses the engine: it ends as after a third abort. -/
def State.engineLost (s : State) (e : Nat) : State :=
  if ((s.engines[e]?).map (·.up)).getD false then
    let s1 := { s with engines := s.engines.modify e (fun x => { x with up := false }) }
    let s2 := (s1.cper { cls := 9, sev := sevRecoverable, unit := 144 + e, detail := [BitVec.ofNat 8 e] }).raiseFault 0
    match s2.onUnit (.engine e) with
    | some c => s2.faultCourse c (144 + e) 7 none true
    | none => s2
  else s

def execCableEngineLost (t : Stitch) (engine : Nat) (s : State) : Host.Outcome State Fault Refusal := s.act t (·.engineLost engine)

end Sys2Proof.Machine
end

