-- ==== Sys2Proof/Machine/Mailbox.lean ====
section
/-! DEFINITION. The host interface: the admin mailbox, the command rings, interrupts, plain registers, resets and the PCIe link
(02 R40 to R62; 00 R12). -/

namespace Sys2Proof.Machine

/-- ADMIN_DOORBELL: bit 0 submits; ignored while host_ready reads 0; while busy it is ignored and sets overrun; else all 64
bytes of ADMIN_COMMAND are copied into the Hook, busy rises and done falls (02 R43, R53, R54). -/
def State.adminDoorbell (s : State) (value : Word) : State :=
  if !value.getLsbD 0 || !s.dev.hostReady then s
  else if s.admin.busy then ({ s.wakeModule with admin := { s.admin with overrun := true } }).raise { overrun := true }
  else { s.wakeModule with admin := { s.admin with latched := some s.admin.command, busy := true, done := false } }

def execAdminDoorbell (t : Stitch) (value : Word) (s : State) : Host.Outcome State Fault Refusal :=
  s.act t (·.adminDoorbell value)

/-- RING_DOORBELL: ignored while host_ready reads 0 (02 R43); a value of size or more raises BAD_TAIL and halts; any other is
the new sq_tail without further check (02 R57); a doorbell wakes the module (14 R395). -/
def State.ringDoorbell (s : State) (r : Nat) (value : Word) : State :=
  let tail := value.toNat % 65536
  if !s.dev.hostReady then s
  else if (s.ring r).size ≤ tail then s.wakeModule.attention r 1
  else s.wakeModule.updRing r (fun g => { g with sqTail := tail })

def execRingDoorbell (t : Stitch) (r : Nat) (value : Word) (s : State) : Host.Outcome State Fault Refusal :=
  s.act t (·.ringDoorbell r value)

/-- RING_CQ_DOORBELL: a head of size or more, or outside cq_head to cq_tail taken round the ring, is ignored, raises
BAD_CQ_HEAD and halts (02 R59). -/
def State.ringCqDoorbell (s : State) (r : Nat) (value : Word) : State :=
  let g := s.ring r
  let head := value.toNat % 65536
  if !s.dev.hostReady then s
  else if g.size ≤ head || (g.cqTail + g.size - g.cqHead) % g.size < (head + g.size - g.cqHead) % g.size then s.wakeModule.attention r 5
  else s.wakeModule.updRing r (fun g => { g with cqHead := head })

def execRingCqDoorbell (t : Stitch) (r : Nat) (value : Word) (s : State) : Host.Outcome State Fault Refusal :=
  s.act t (·.ringCqDoorbell r value)

/-- A write of RING_CONTROL with enable 1: the interrupt bit is stored; enable starts the ring anew when enabled reads 0, is
ignored while the drain after a clear runs, and is ignored in recovery and while host_ready reads 0 (02 R43, R55, R61,
14 R407). -/
def State.ringEnable (s : State) (r : Nat) (intEnable : Bool) : State :=
  let s1 := s.updRing r (fun g => { g with intEnable := intEnable })
  if (s.ring r).enable || (s.ring r).enabled || s.dev.castOnPhase = 0xFE || !s.dev.hostReady then s1
  else s1.updRing r (fun g =>
    { g with enable := true, enabled := true, halted := false, attn := 0, sqHead := 0, sqTail := 0, cqHead := 0, cqTail := 0,
             phase := true, held := [], fetched := [], waiting := none, outstanding := 0 })

def execRingEnable (t : Stitch) (r : Nat) (intEnable : Bool) (s : State) : Host.Outcome State Fault Refusal :=
  s.act t (·.ringEnable r intEnable)

/-- A write of RING_CONTROL with enable 0: the Hook stops fetching and the drain begins (02 R61). -/
def State.ringDisable (s : State) (r : Nat) (intEnable : Bool) : State :=
  s.updRing r (fun g => { g with enable := false, intEnable := intEnable })

def execRingDisable (t : Stitch) (r : Nat) (intEnable : Bool) (s : State) : Host.Outcome State Fault Refusal :=
  s.act t (·.ringDisable r intEnable)

/-- Every fetched command of a ring has written or dropped its completion (02 R61). -/
def Ring.drained (g : Ring) : Bool := g.fetched.isEmpty && g.waiting.isNone && g.outstanding == 0 && g.held.isEmpty

/-- RING_DRAIN_DONE: enabled falls to 0 once the disabled ring has drained (02 R61). -/
def State.ringDrainDone (s : State) (r : Nat) : State :=
  s.updRing r (fun g => if !g.enable && g.enabled && g.drained then { g with enabled := false } else g)

def execRingDrainDone (t : Stitch) (r : Nat) (s : State) : Host.Outcome State Fault Refusal :=
  s.act t (·.ringDrainDone r)

/-- RING_CONFIG_WRITE: ignored with an attention of cause 4 while enabled; bases drop bits [11:0]; a size outside 4 to 12, a
revision of 0 or 3, and revision 1 while REV1_RINGS_ALLOWED is 0 are ignored (02 R55, R56). -/
def State.ringConfigWrite (s : State) (r : Nat) (reg : RingReg) (value : Dword) : State :=
  if (s.ring r).enabled then s.attention r 4
  else match reg with
    | .sqBase => s.updRing r (fun g => { g with sqBase := value &&& ~~~0xFFF })
    | .cqBase => s.updRing r (fun g => { g with cqBase := value &&& ~~~0xFFF })
    | .size =>
      let n := value.toNat % 16
      if 4 ≤ n ∧ n ≤ 12 then s.updRing r (fun g => { g with sizeLog2 := n }) else s
    | .revision =>
      let v := value.toNat % 4
      if v = 2 ∨ (v = 1 ∧ s.cfg.fields.rev1Allowed = 1) then s.updRing r (fun g => { g with revision := v }) else s

def execRingConfigWrite (t : Stitch) (r : Nat) (reg : RingReg) (value : Dword) (s : State) : Host.Outcome State Fault Refusal :=
  s.act t (·.ringConfigWrite r reg value)

/-- Entries between sq_head and sq_tail (02 R57). -/
def Ring.available (g : Ring) : Nat := (g.sqTail + g.size - g.sqHead) % g.size

/-- The Hook may fetch from a ring: enabled, not halted, fewer than 64 held completions, its earlier entries accepted
(02 R58 to R61). -/
def Ring.mayFetch (g : Ring) : Bool :=
  g.enable && g.enabled && !g.halted && decide (g.held.length < 64) && decide (0 < g.available) && g.fetched.isEmpty &&
  g.waiting.isNone

/-- The ring whose turn comes next in the round robin (02 R62). -/
def State.nextRing (s : State) : Option Nat :=
  ((List.range 32).map (fun i => (s.dev.rrRing + i) % 32)).find? (fun r => (s.ring r).mayFetch)

/-- Take entries as fetched, each with sq_head after it (02 R64). -/
def Ring.fetch (g : Ring) : List (List Byte) → Ring
  | [] => g
  | e :: es =>
    let h := (g.sqHead + 1) % g.size
    Ring.fetch { g with sqHead := h, fetched := g.fetched ++ [{ entry := slice e 0 (if g.revision = 2 then 64 else 32), sqHead := h }] } es

/-- RING_FETCH: after the admin mailbox, the next ring of the round robin has its turn; up to its weight and up to 16 entries
are read; a read fault raises SQ_READ_FAULT (02 R60, R62). -/
def State.ringFetch (s : State) (entries : Option (List (List Byte))) : State :=
  if s.admin.latched.isSome || s.dev.fwActivating then s
  else match s.nextRing with
    | none => s
    | some r =>
      let s1 := { s with dev := { s.dev with rrRing := (r + 1) % 32 } }
      match entries with
      | none => s1.attention r 2
      | some es => s1.updRing r (fun g => g.fetch (es.take (min (min (2 ^ (g.priority % 4)) g.available) 16)))

def execRingFetch (t : Stitch) (entries : Option (List (List Byte))) (s : State) : Host.Outcome State Fault Refusal :=
  s.act t (·.ringFetch entries)

/-- HELD_COMPLETION_WRITE: the completion ring has room, and the oldest held completion is written (02 R59), but not during a
firmware handover (14 R412 step 4). -/
def State.heldCompletionWrite (s : State) (r : Nat) (fault : Bool) : State :=
  match (s.ring r).held with
  | [] => s
  | c :: cs => if (s.ring r).cqFull || s.dev.fwActivating then s else (s.updRing r (fun g => { g with held := cs })).writeRingCpl r fault c

def execHeldCompletionWrite (t : Stitch) (r : Nat) (fault : Bool) (s : State) : Host.Outcome State Fault Refusal :=
  s.act t (·.heldCompletionWrite r fault)

/-! ### Interrupt registers -/

/-- The causes a register of R52 holds. -/
def causesOf : CauseReg → List Nat
  | .main => [0, 1, 2]
  | .ringCpl => (List.range 32).map (· + 3)
  | .ringAttn => (List.range 32).map (· + 35)
  | .faultSummary => [2]
  | .timingSummary => [1]
  | .adminStatus => []

/-- The register's W1C bits written 1 are cleared, but for those the module has set in the same Hook cycle (00 R12, 02 R51, R53);
clearing a ring's attention bit clears an attention_cause of 4 (02 R55). -/
def clearCause (reg : CauseReg) (value : Word) (s : State) : State :=
  let keep := s.freshCauses
  match reg with
  | .main => if value.getLsbD 0 && !keep.admin then { s with intr := { s.intr with admin := false } } else s
  | .ringCpl => { s with intr := { s.intr with ringCpl := s.intr.ringCpl &&& (~~~value ||| keep.ringCpl) } }
  | .ringAttn =>
    let gone := value &&& ~~~keep.ringAttn
    { s with intr := { s.intr with ringAttn := s.intr.ringAttn &&& ~~~gone }
             rings := s.rings.zipIdx.map (fun p => if gone.getLsbD p.2 && p.1.attn = 4 then { p.1 with attn := 0 } else p.1) }
  | .faultSummary => { s with intr := { s.intr with fault := s.intr.fault &&& (~~~(value.setWidth 8) ||| keep.fault) } }
  | .timingSummary => { s with intr := { s.intr with timing := s.intr.timing &&& (~~~(value.setWidth 5) ||| keep.timing) } }
  | .adminStatus => if value.getLsbD 2 && !keep.overrun then { s with admin := { s.admin with overrun := false } } else s

/-- INTR_CAUSE_CLEAR: the bits are cleared, and every vector of the register's causes whose OR is still 1 is sent a further
message (02 R52). -/
def State.intrCauseClear (s : State) (reg : CauseReg) (value : Word) : State :=
  let s0 := clearCause reg value s
  let s1 := { s0 with intr := s0.intr.serviced }
  let mine := (causesOf reg).map s1.intr.vectorOf
  ((List.range 66).filter (fun v => mine.contains v && s1.intr.high.contains v)).foldl State.sendVector s1

def execIntrCauseClear (t : Stitch) (reg : CauseReg) (value : Word) (s : State) : Host.Outcome State Fault Refusal :=
  s.act t (·.intrCauseClear reg value)

/-- A message that waits in the pending-bit array is sent once neither mask holds it (02 R52). -/
def State.releasePending (s : State) (v : Nat) : State :=
  if s.intr.pba.getD v false then
    let e := s.intr.msix.getD v { addr := 0, data := 0, masked := true }
    if s.intr.fnMask || e.masked then s
    else ({ s with intr := { s.intr with pba := s.intr.pba.set v false } }).emit (.msix v e.addr e.data)
  else s

/-- INTR_MASK_WRITE: a mask, a vector map entry (a vector above 65 is ignored) or an MSI-X mask is written, and messages that
this raises or releases are sent (02 R51, R52). -/
def State.intrMaskWrite (s : State) (reg : MaskReg) (value : Word) : State :=
  match reg with
  | .main => s.setIntr { s.intr with maskMain := value.setWidth 3 }
  | .ringCpl => s.setIntr { s.intr with maskRingCpl := value }
  | .ringAttn => s.setIntr { s.intr with maskRingAttn := value }
  | .vectorMap c =>
    if value.toNat % 128 ≤ 65 then s.setIntr { s.intr with vectorMap := s.intr.vectorMap.set c (value.setWidth 7) } else s
  | .msixMask v =>
    ({ s with intr := { s.intr with msix := s.intr.msix.modify v (fun e => { e with masked := value.getLsbD 0 }) } }).releasePending v
  | .msixFunction =>
    (List.range 66).foldl State.releasePending { s with intr := { s.intr with fnMask := value.getLsbD 0 } }

def execIntrMaskWrite (t : Stitch) (reg : MaskReg) (value : Word) (s : State) : Host.Outcome State Fault Refusal :=
  s.act t (·.intrMaskWrite reg value)

/-! ### Plain registers -/

/-- Replace bytes of a 64-bit register: a 32-bit write at its low or high half, or a 64-bit write. -/
def mergeHalf (old : Dword) (high wide : Bool) (v : Dword) : Dword :=
  if wide then v
  else if high then ((v.setWidth 32) ++ (old.setWidth 32 : BitVec 32))
  else ((old >>> 32).setWidth 32 ++ (v.setWidth 32 : BitVec 32))

/-- The window base: bits [39:size_log2] are kept (02 R47). -/
def bar2BaseOf (sizeLog2 v : Nat) : Nat := v % 2 ^ 40 / 2 ^ sizeLog2 * 2 ^ sizeLog2

/-- Write one 32-bit word of the MSI-X table: message address, message data, vector control (02 R50; the entry layout is
PCIe's, PRESUMED: log 14). -/
def State.msixWrite (s : State) (v word : Nat) (x : Word) : State :=
  match word with
  | 0 => { s with intr := { s.intr with msix := s.intr.msix.modify v (fun e => { e with addr := mergeHalf e.addr false false (x.setWidth 64) }) } }
  | 1 => { s with intr := { s.intr with msix := s.intr.msix.modify v (fun e => { e with addr := mergeHalf e.addr true false (x.setWidth 64) }) } }
  | 2 => { s with intr := { s.intr with msix := s.intr.msix.modify v (fun e => { e with data := x }) } }
  | _ => s

/-- One 32-bit word written to a register with no behaviour of its own; read-only registers, reserved ranges and registers that
have a row of their own ignore it here (00 R12, 02 R45, R46). -/
def State.wordWrite (s : State) (off : Nat) (x : Word) : State :=
  if off = 0x00C then { s with dev := { s.dev with scratch := x } }
  else if off = 0x040 then
    { s with dev := { s.dev with bar2Base := bar2BaseOf s.dev.bar2SizeLog2 (s.dev.bar2Base / 2 ^ 32 * 2 ^ 32 + x.toNat) } }
  else if off = 0x044 then
    { s with dev := { s.dev with bar2Base := bar2BaseOf s.dev.bar2SizeLog2 (s.dev.bar2Base % 2 ^ 32 + x.toNat * 2 ^ 32) } }
  else if 0x10000 ≤ off ∧ off < 0x10040 then
    { s with admin := { s.admin with command := overlayBytes s.admin.command (off - 0x10000) (le 4 x.toNat) } }
  else if 0x20000 ≤ off ∧ off < 0x40000 ∧ off % 0x1000 = 0x030 then
    s.updRing ((off - 0x20000) / 0x1000) (fun g => { g with priority := x.toNat % 4 })
  else if off = 0x50070 then { s with time := { s.time with outputControl := x.setWidth 2
                                                            lastPulse := if s.time.outputControl.getLsbD 0 then s.time.lastPulse else s.stitch } }
  else if off = 0x70010 then { s with cnt := { s.cnt with jobSelect := x } }
  else if 0x100000 ≤ off ∧ off < 0x100000 + 66 * 16 then s.msixWrite ((off - 0x100000) / 16) (off % 16 / 4) x
  else s

/-- REGISTER_WRITE: one or two words. -/
def State.registerWrite (s : State) (off : Nat) (wide : Bool) (value : Dword) : State :=
  let s1 := s.wordWrite off (value.setWidth 32)
  if wide then s1.wordWrite (off + 4) ((value >>> 32).setWidth 32) else s1

def execRegisterWrite (t : Stitch) (off : Nat) (wide : Bool) (value : Dword) (s : State) : Host.Outcome State Fault Refusal :=
  s.act t (·.registerWrite off wide value)

/-- TIME_STITCH_READ: a 64-bit read is atomic; a 32-bit read of offset 0 latches bits [63:32] into TIME_STITCH_HI
(04 R124). -/
def State.timeStitchRead (s : State) (wide : Bool) : State :=
  if wide then s.emit (.reply (le 8 s.stitch))
  else ({ s with time := { s.time with stitchHi := BitVec.ofNat 32 (s.stitch / 2 ^ 32) } }).emit (.reply (le 4 s.stitch))

def execTimeStitchRead (t : Stitch) (wide : Bool) (s : State) : Host.Outcome State Fault Refusal :=
  s.actRead t (if wide then 8 else 4) (·.timeStitchRead wide)

/-- Missed launches counted in this Hook cycle (00 R12). -/
def State.missedNow (s : State) : Nat := if s.time.missedAt = s.stitch then s.time.missedFresh else 0

/-- TIME_MISSED_LAUNCHES_READ: the count is returned and cleared; launches missed in the same Hook cycle are set after it and wait for
the next read (04 R124, 00 R12 RC; log 93). -/
def State.timeMissedLaunchesRead (s : State) : State :=
  ({ s with time := { s.time with missed := s.missedNow } }).emit (.reply (le 4 (s.time.missed - s.missedNow)))

def execTimeMissedLaunchesRead (t : Stitch) (s : State) : Host.Outcome State Fault Refusal :=
  s.actRead t 4 (·.timeMissedLaunchesRead)

/-- Stitches counted as stretched in this Hook cycle (00 R12). -/
def State.throttleNow (s : State) : Nat := if s.pw.throttleAt = s.stitch then min 1 s.pw.throttle else 0

/-- POWER_THROTTLE_STITCHES_READ: the count is returned and cleared; a stretched stitch counted in the same Hook cycle is set after it and
waits for the next read (14 R404, 00 R12 RC; log 93). -/
def State.powerThrottleStitchesRead (s : State) : State :=
  ({ s with pw := { s.pw with throttle := s.throttleNow } }).emit (.reply (le 8 (s.pw.throttle - s.throttleNow)))

def execPowerThrottleStitchesRead (t : Stitch) (s : State) : Host.Outcome State Fault Refusal :=
  s.actRead t 8 (·.powerThrottleStitchesRead)

/-- POWER_HOST_CAP_WRITE: bits [15:0], below 600 stored as 600, above 1,650 as 1,650 (14 R404). -/
def State.powerHostCapWrite (s : State) (value : Word) : State :=
  { s with pw := { s.pw with hostCap := min 1650 (max 600 (value.toNat % 65536)) } }

def execPowerHostCapWrite (t : Stitch) (value : Word) (s : State) : Host.Outcome State Fault Refusal :=
  s.act t (·.powerHostCapWrite value)

/-! ### Resets and the PCIe link -/

/-- HOST_INTERFACE_RESET (an admin command that a doorbell has handed to the Hook and the Hook has not yet taken is not accepted, so it goes
with the ADMIN registers: DESIGN CHOICE, log 97): the mailbox and the rings are disabled and reset with the DEV_BAR2_BASE, INTR and MSI-X registers,
unaccepted commands and unwritten completions are dropped, host_ready clears, and the RESET fields of the configuration take
effect; nothing else changes (02 R43, R78). -/
def State.hostInterfaceReset (s : State) : State :=
  { s with
    admin := Admin.reset, rings := List.replicate 32 Ring.reset, intr := Intr.reset
    bar2Wait := []
    dev := { s.dev with bar2Base := 0, hostReady := false, epoch := s.dev.epoch + 1, bar2SizeLog2 := s.cfg.fields.bar2SizeLog2 }
    cfg := { s.cfg with resetSpeed := s.cfg.fields.pcieMaxSpeed, resetBar2 := s.cfg.fields.bar2SizeLog2 } }

def execHostInterfaceReset (t : Stitch) (_kind : ResetKind) (s : State) : Host.Outcome State Fault Refusal :=
  s.act t (·.hostInterfaceReset)

/-- HOST_INTERFACE_READY: the Hook has brought the host interface up again and sets host_ready (02 R43). -/
def State.hostInterfaceReady (s : State) : State :=
  if s.dev.castOnComplete || s.dev.castOnPhase = 0xFE then { s with dev := { s.dev with hostReady := true } } else s

def execHostInterfaceReady (t : Stitch) (s : State) : Host.Outcome State Fault Refusal := s.act t (·.hostInterfaceReady)

/-- The speed a link trains at: the highest both partners and PCIE_MAX_SPEED permit, the next lower where equalisation
fails (02 R40); 0 when none is left. -/
def pcieSpeed (limit : Nat) (eqFail : List Nat) : Nat :=
  ([6, 5, 4, 3].find? (fun g => decide (g ≤ limit) && !eqFail.contains g)).getD 0

/-- The width a link trains at (02 R40); 0 when fewer than four lanes train. -/
def pcieWidth (limit : Nat) : Nat := if 16 ≤ limit then 16 else if 8 ≤ limit then 8 else if 4 ≤ limit then 4 else 0

/-- PCIE_LINK_TRAIN: the link trains; with fewer than four lanes the function is not exposed and the width fault is reported
(02 R40). -/
def State.pcieLinkTrain (s : State) (partnerSpeed partnerWidth lanes : Nat) (eqFail : List Nat) : State :=
  let speed := pcieSpeed (min partnerSpeed s.cfg.resetSpeed) eqFail
  let width := pcieWidth (min partnerWidth lanes)
  let ok := decide (4 ≤ lanes) && width != 0 && speed != 0
  { s with pcie := { speed := if ok then speed else 0, width := if ok then width else 0, exposed := ok,
                     widthFault := decide (lanes < 4) } }

def execPcieLinkTrain (t : Stitch) (partnerSpeed partnerWidth lanes : Nat) (eqFail : List Nat) (s : State) :
    Host.Outcome State Fault Refusal :=
  s.act t (·.pcieLinkTrain partnerSpeed partnerWidth lanes eqFail)

/-- CONFIG_REQUEST_RETRY: during cast-on, before phase 0x03, a configuration request is answered with Configuration Request
Retry Status (02 R44, 14 R405). -/
def State.configRequestRetry (s : State) : State :=
  if s.castingOn && decide (s.dev.castOnPhase.toNat < 3) then s.emit .retryStatus else s

def execConfigRequestRetry (t : Stitch) (s : State) : Host.Outcome State Fault Refusal := s.act t (·.configRequestRetry)

/-- PTM_RESPONSE_RECEIVED: the arrival is stamped and the master time recorded (04 R124). -/
def State.ptmResponse (s : State) (master : Dword) : State :=
  { s with time := { s.time with ptmStitch := s.stitch, ptmMaster := master } }

def execPtmResponseReceived (t : Stitch) (master : Dword) (s : State) : Host.Outcome State Fault Refusal :=
  s.act t (·.ptmResponse master)

/-- RESIZABLE_BAR_WRITE: a size_log2 from 36 to 40 becomes BAR2's size; base bits below it read as zero (02 R47). -/
def State.resizableBarWrite (s : State) (sizeLog2 : Nat) : State :=
  if 36 ≤ sizeLog2 ∧ sizeLog2 ≤ 40 then
    { s with dev := { s.dev with bar2SizeLog2 := sizeLog2, bar2Base := bar2BaseOf sizeLog2 s.dev.bar2Base } }
  else s

def execResizableBarWrite (t : Stitch) (sizeLog2 : Nat) (s : State) : Host.Outcome State Fault Refusal :=
  s.act t (·.resizableBarWrite sizeLog2)

end Sys2Proof.Machine
end

