-- ==== Sys2Proof/Machine/Samples.lean ====
section
/-! DEFINITION. What the observation port samples: the groups of 15 R438 (15 R437 to R439). -/

namespace Sys2Proof.Machine

/-- The units of a launch queue (00 R4). -/
def queueUnits : LUnit → List Nat
  | .panel p => (List.range 12).map (fun i => 12 * p + i)
  | .engine e => [144 + e]
  | .link k => [152 + k]

/-- The cause a queue shows: of its head course, of the course that runs, or of the empty queue (15 R438; log 19). -/
def State.queueCause (s : State) (u : LUnit) (mine : Option Course) : Nat :=
  match s.headCourse u with
  | some c => s.headCause u c
  | none => match mine with
    | some c => if c.status = .waitPages then 3 else 0
    | none => if (queueUnits u).any (fun n => (s.hostWaits n u).isSome) then 5 else 1

/-- Sixteen bits of a panel or an engine: cause, power state, queue entries. -/
def State.queueSample (s : State) (u : LUnit) (mine : Option Course) (power : Nat) : State × Nat :=
  let k := s.queueCause u mine
  let f := if k = 255 then ((s.free).2, (s.free).1.toNat % 9) else (s, k)
  (f.1, f.2 % 16 + power % 16 * 16 + (s.queue u).length % 256 * 256)

/-- Frames that a link has sent in the slot of a stitch, up to that stitch. -/
def Link.sentNow (l : Link) (t : Nat) : Nat := ((l.inSlot t).slotSends.filter (fun x => decide (x ≤ t))).length

/-- Frames that plans may send on a link in the slot that runs: those of the earliest-launched plan that holds it (10 R308). -/
def State.slotFrames (s : State) (k : Nat) : Nat :=
  let held := (s.linkCourses.filterMap s.course?).flatMap (fun c => match c.slot0 with
    | some s0 => ((s.planOf c).filter (fun q => q.2.1.link == k && planOnTime c s0 (slotOf s.stitch) q.2.1)).map (·.2.1.frames)
    | none => [])
  held.headD 0

/-- The frame time that runs on a link is one that a plan has been allotted: plans take the data frame times of a slot from the first on. -/
def State.allotted (s : State) (k : Nat) : Bool :=
  let r := (s.link k).rate
  let i := (s.stitch - slotOf s.stitch) * 100 / frameLength r
  i % 40 != 0 && decide (i < Use.index .reserve r 0) && decide (Use.before .data r i < s.slotFrames k)

/-- The content of a group (15 R438); a group that is not listed reads 0. -/
def State.groupValue (s : State) (g : Nat) : State × Nat :=
  if g = 0x000 then (s, s.stitch % 65536)
  else if g = 0x001 then (s, s.stitch / 65536 % 65536)
  else if g = 0x002 then (s, s.gauge.readAt s.stitch / 65536 % 65536)
  else if g = 0x003 then (s, s.gauge.readAt s.stitch / 2 ^ 32 % 65536)
  else if 0x010 ≤ g ∧ g < 0x01C then
    let p := g - 0x010
    s.queueSample (.panel p) (s.courses.find? (·.runsOn (.panel p))) (s.pw.panels.getD p 0)
  else if 0x020 ≤ g ∧ g < 0x028 then
    let e := g - 0x020
    s.queueSample (.engine e) (s.onUnit (.engine e)) (s.pw.engines.getD e 0)
  else if 0x030 ≤ g ∧ g < 0x050 then
    let k := g - 0x030
    (s, (s.link k).state % 4 + (if s.allotted k then 4 else 0) + (s.link k).sentNow s.stitch % 8192 * 8)
  else if 0x050 ≤ g ∧ g < 0x05C then
    let x := s.mem.stackTab.getD (g - 0x050) Stack.reset
    (s, x.step % 8 + min x.temp 255 * 256)
  else (s, 0)

/-- OBS_SAMPLE: one sample of the selected group, zeros for a refused one, with OBS_SYNC in the sample in which the stitch crosses
a multiple of 65,536 (15 R437 to R439). -/
def State.obsSample (s : State) : State :=
  if s.obsActive then
    let g := s.dbg.obsSelect.toNat
    let v := if s.groupRefused then (s, 0) else if 0x100 ≤ g then (s, (Config.privateGroup s.dbg.obsSelect s.stitch).toNat) else s.groupValue g
    let sync := s.dbg.obsControl.getLsbD 1 && decide (s.dbg.lastSync / 65536 < s.stitch / 65536)
    ({ v.1 with dbg := { v.1.dbg with samples := satAdd 64 v.1.dbg.samples 1, lastSync := s.stitch } }).emit (.obs (BitVec.ofNat 16 v.2) sync)
  else s

def execObsSample (t : Stitch) (s : State) : Host.Outcome State Fault Refusal := s.act t (fun x => x.sweep.obsSample)

end Sys2Proof.Machine
end

