-- ==== Sys2Proof/Machine/Swatch.lean ====
section
/-! DEFINITION. Swatches: selection, replica, comparison, tiebreak and verdict; the telemetry of narrow against wide; the end of
suspicion (13 R367 to R373, R386; 08 R249, R250). -/

namespace Sys2Proof.Machine

/-! ### Tiles as bytes (13 R367, R371) -/

/-- Bytes of an element in a compared tile. -/
def TileEl.size (e : TileEl) : Nat := max 1 (e.width / 8)

/-- A tile as it is compared: its elements in order, then its flag record without the stitch. -/
def TileRec.bytes (t : TileRec) : List Byte :=
  t.elems.flatMap (fun e => le e.size e.bits) ++ (match t.flag with
    | some f => f.bytes 0
    | none => List.replicate 48 0)

/-- The bits of a tile's elements read from compared bytes. -/
def unpackTile : List TileEl → List Byte → List Nat
  | [], _ => []
  | e :: es, b => leVal (b.take e.size) :: unpackTile es (b.drop e.size)

/-- A course holds in its staging what a needle has written for a tile. -/
def Course.takeTile (c : Course) (t : TileRec) (b : List Byte) : Course :=
  let v := (t.elems.zip (unpackTile t.elems b)).foldl (fun (v : View) e => v.putBits (e.1.addr, e.1.width, e.2)) { ovs := [c.staging], base := [] }
  { c with staging := v.ovs.headD Overlay.empty }

/-- The tile of a swatch. -/
def State.tileOf (s : State) (w : Swatch) : Option (Course × TileRec) := (s.course? w.course).bind (fun c => (c.tiles[w.tile]?).map (fun t => (c, t)))

/-- Change a swatch. -/
def State.updSwatch (s : State) (id : Nat) (f : Swatch → Swatch) : State := { s with swatches := s.swatches.map (fun w => if w.id = id then f w else w) }

/-! ### SWATCH_SELECT (13 R368) -/

/-- A short-format product of an array, whose swatches may feed the telemetry (08 R249). -/
def TileRec.short (t : TileRec) : Bool := t.elems.any (·.wide.isSome)

/-- The swatch that a tile becomes; every 16th one of a short-format product is compared narrow against wide. -/
def State.newSwatch (s : State) (u : Nat) (c : Course) (tile : Nat) (t : TileRec) (got : List Byte) : State :=
  let n := s.shortSwatches + (if t.short then 1 else 0)
  let w : Swatch :=
    { id := s.nextSwatch, course := c.id, job := c.job, inStep := c.inStep, view := c.viewNo
      reads := ((s.job? c.job).map (·.inputRanges c t.op)).getD [], held := []
      attempt := c.attempt, source := u, replica := none, op := t.op, tile := tile, sourceBits := got
      correct := t.bytes, replicaBits := [], phase := .chosen, lastTried := none, doneAt := 0, compareWide := t.short && n % 16 == 0 }
  let s1 := (s.updNeedle u (fun x => { x with source := x.source + 1 })).count 7 1
  let s2 := { s1 with swatches := s1.swatches ++ [w], nextSwatch := s1.nextSwatch + 1, shortSwatches := n }
  if got = t.bytes then s2 else s2.updCourse c.id (fun c => c.takeTile t got)

/-- The tiles up to and with the selected one are counted, and the counter is loaded again. -/
def State.countTo (s : State) (u : Nat) (upTo : List (Nat × Nat)) : State :=
  let ids := (upTo.map (·.1)).dedup
  (ids.foldl (fun (x : State) id => x.countTiles id u ((upTo.filter (·.1 == id)).length)) s).loadSample u

/-- SWATCH_SELECT: the tile that brings a needle's sample counter to 0; `written` is what the needle wrote when that differs from what the
operation gives. -/
def State.swatchSelect (s : State) (u id op tile : Nat) (written : Option (List Byte)) : State :=
  match (s.course? id).bind (fun c => (c.tiles[tile]?).map (fun t => (c, t))) with
  | none => s
  | some (c, t) =>
    let n := (s.needle u).sample
    let q := s.uncounted u
    if n = 0 ∨ t.op ≠ op ∨ (q.drop (n - 1)).head? ≠ some (id, tile) then s
    else
      let got := (written.filter (fun b => b.length == t.bytes.length)).getD t.bytes
      (s.countTo u (q.take n)).newSwatch u c tile t got

def execSwatchSelect (t : Stitch) (needle course op tile : Nat) (written : Option (List Byte)) (s : State) : Host.Outcome State Fault Refusal :=
  s.act t (·.swatchSelect needle course op tile written)

/-! ### Replica and tiebreak needles (13 R369) -/

/-- The needle that recomputes next after another in its panel, that one itself last: enabled, not suspect and running no test item; where every
other enabled needle is suspect, the next enabled one. -/
def State.nextServing (s : State) (after : Nat) (except : List Nat) : Option Nat :=
  let ring := ((List.range 12).map (fun i => after / 12 * 12 + (after % 12 + 1 + i) % 12)).filter (fun u => (s.needle u).serves && !except.contains u)
  if ring.all (fun u => (s.needle u).isSuspect) then ring.head?
  else ring.find? (fun u => !(s.needle u).isSuspect && (s.needle u).item.isNone)

/-- The needle that recomputes a swatch: the next qualifying one, after the one that faulted where one did (13 R372). -/
def State.recomputer (s : State) (w : Swatch) (after : Nat) (except : List Nat) : Option Nat := s.nextServing (w.lastTried.getD after) except

/-- A needle works on a tile: its next idle interval begins after it; the stitches it takes are not stated, so their number is a free value,
booked as they pass (13 R369; 15 R416, R421; log 126). -/
def State.recompute (s : State) (u : Nat) : State :=
  let d := s.free
  let s1 := (d.2.dropItem u).fillStores [u] []
  let left := (s.needle u).swatchLeft + d.1.toNat % 65536
  State.updNeedle { s1 with pw := { s1.pw with panelIdle := s1.pw.panelIdle.set (u / 12) (s.stitch + left) } } u (fun x =>
    { x with idleSince := s.stitch + left, swatchLeft := left })

/-- A needle has recomputed a tile: counted (13 R376). -/
def State.recomputed (s : State) (u : Nat) : State := (s.recompute u).updNeedle u (fun x => { x with replica := x.replica + 1 })

/-- What a recomputation gave: the correct tile, other bytes, or nothing where the needle faulted. -/
def Swatch.gave (w : Swatch) : Recomputed → Option (List Byte)
  | .correct => some w.correct
  | .other b => some b
  | .faults => none

/-- The needle that recomputes a swatch faults: no mismatch is counted, and the next qualifying needle does it again (13 R372, R393). -/
def State.recomputeFault (s : State) (w : Swatch) (u : Nat) : State := (s.recompute u).updSwatch w.id (fun w => { w with lastTried := some u })

/-! ### Narrow against wide (08 R249, R250) -/

/-- The spacing of a format at a value: of the value's binade, or of the smallest normal one below it. -/
def Fmt.spacing (f : Fmt) (v : Val) : Val :=
  match v with
  | .num _ m e _ => if m = 0 then .num false 1 (1 - (f.bias : Int) - f.frac) false else .num false 1 (f.quantum m e) false
  | _ => Val.zero

/-- The elements of a tile as a needle has written them. -/
def TileRec.written (t : TileRec) (got : List Byte) : List TileEl := (t.elems.zip (unpackTile t.elems got)).map (fun e => { e.1 with bits := e.2 })

/-- Where an element falls: 0 equal, 1 to 5 within 1, 4, 16 or 256 units and beyond, 6 beyond with one of the two not finite; none when
both are not finite. -/
def wideBucket (f : Fmt) (code : Nat) (e : TileEl) : Option Nat :=
  match e.wide with
  | none => none
  | some w =>
    let wide := fp64.decode w
    let narrow := decodeElem f.code e.bits code
    if !wide.finite && !narrow.finite then none
    else if !wide.finite || !narrow.finite then some 6
    else if (decodeElem f.code (writeElem f.code code .nearest [0, 0, 0, 0] wide).1 code).eqv narrow then some 0
    else
      let d := (narrow.sub wide).abs
      let le := fun (k : Nat) => !(((f.spacing wide).mul (.ofInt k)).lt d)
      some (if le 1 then 1 else if le 4 then 2 else if le 16 then 3 else if le 256 then 4 else 5)

/-- A compared tile adds to its job's totals and is traced at the stitch at which the replica finished; narrow is what the source needle wrote. -/
def State.telemetry (s : State) (c : Course) (t : TileRec) (got : List Byte) (u at0 : Nat) : State :=
  match (s.job? c.job).bind (fun j => (j.tensors.find? (·.id == t.tensor)).map (fun d => (j, d))) with
  | none => s
  | some (j, d) => match fmtOf d.format with
    | none => s
    | some f =>
      let code := (s.ctx c j []).scaleCode t.op 0 d [0, 0, 0, 0]
      let bs := (t.written got).map (wideBucket f code)
      let cnt := fun (k : Nat) => (bs.filter (· == some k)).length
      let sums := [t.elems.length, cnt 0, cnt 1, cnt 2, cnt 3, cnt 4, cnt 5 + cnt 6]
      let s1 := (sums.zipIdx).foldl (fun (x : State) (p : Nat × Nat) => x.countJob c.job (7 + p.2) p.1) (s.countJob c.job 6 1)
      let sto := ((opRecs (j.image c))[t.op]?).any OpRec.stochastic
      s1.traceRec (some c.job) 0x0A u at0 true
        (record 32 ([(0, 4, t.tensor.toNat), (4, 2, t.op), (6, 1, d.format), (7, 1, (if sto then 1 else 0) + (if cnt 6 = 0 then 0 else 2)),
          (8, 8, at0), (16, 2, t.elems.length)] ++ ((sums.drop 1).zipIdx).map (fun (p : Nat × Nat) => (20 + 2 * p.2, 2, p.1))))

/-! ### SWATCH_REPLICA_RUN (13 R370) -/

/-- The replica recomputes the tile; `result` is how that ended. -/
def State.replicaRun (s : State) (id : Nat) (result : Recomputed) : State :=
  match (s.swatches.find? (fun w => w.id == id && w.phase == .chosen)) with
  | none => s
  | some w => match s.recomputer w w.source [w.source] with
    | none => s
    | some u => match w.gave result with
      | none => s.recomputeFault w u
      | some got =>
        let s1 := s.recomputed u
        s1.updSwatch id (fun w =>
          { w with replica := some u, replicaBits := got, phase := .replicated, lastTried := none, doneAt := (s1.needle u).idleSince })

def execSwatchReplicaRun (t : Stitch) (swatch : Nat) (result : Recomputed) (s : State) : Host.Outcome State Fault Refusal :=
  s.act t (·.replicaRun swatch result)

/-! ### Verdicts (13 R371, R372) -/

/-- A swatch has its verdict: what waited for it may be decided. -/
def State.endSwatch (s : State) (w : Swatch) : State :=
  let s1 := { s with swatches := s.swatches.filter (·.id != w.id) }
  match s1.course? w.course with
  | some c => if c.implicitStep then (s1.settleImplicit c.id).tryClose c.job else if c.inStep then s1.settle c.job else s1
  | none => s1

/-- A replica's tile is compared narrow against wide, where its swatch is a 16th one (08 R249). -/
def State.compareWide (s : State) (w : Swatch) : State :=
  match s.tileOf w, w.replica with
  | some (c, t), some u => if w.compareWide then s.telemetry c t w.sourceBits u w.doneAt else s
  | _, _ => s

/-- SWATCH_COMPARE, once the replica has finished: agreement is PASS; a mismatch calls a tiebreak. -/
def State.swatchCompare (s : State) (id : Nat) : State :=
  match s.swatches.find? (fun w => w.id == id && w.phase == .replicated) with
  | none => s
  | some w =>
    if s.stitch < w.doneAt then s
    else
      let s1 := s.compareWide w
      if w.replicaBits = w.sourceBits then s1.endSwatch w else (s1.updSwatch id (fun w => { w with phase := .tiebreak })).count 8 1

def execSwatchCompare (t : Stitch) (swatch : Nat) (s : State) : Host.Outcome State Fault Refusal := s.act t (·.swatchCompare swatch)

/-- A needle takes part in a mismatch: counted, and suspect from now (13 R371, R373). -/
def State.mismatched (s : State) (u : Nat) : State := (s.updNeedle u (fun x => { x with mismatches := x.mismatches + 1 })).makeSuspect u

/-- The error record of a mismatch (13 R386). -/
def State.mismatchRecord (s : State) (w : Swatch) (c : Course) (t : TileRec) (replica tie : Nat) (attributed : Option Nat) : State :=
  let diff := ((unpackTile t.elems w.sourceBits).zip (unpackTile t.elems w.replicaBits)).zip t.elems
  let out := diff.filter (fun e => e.1.1 != e.1.2)
  let window := (s.needle (attributed.getD w.source)).attributable.length
  s.cper { cls := 2, sev := sevCorrected, unit := w.source, job := c.job.toNat, step := c.stepField, tensor := t.tensor.toNat, attempt := w.attempt
           detail := [BitVec.ofNat 8 w.source, BitVec.ofNat 8 replica, BitVec.ofNat 8 tie, BitVec.ofNat 8 (attributed.getD 0xFF)] ++ le 2 w.op ++
             le 2 (if out.isEmpty then 0xFFFF else out.foldl (fun m e => min m e.2.pos) 0xFFFF) ++ le 4 t.row ++ le 4 t.col ++ le 4 t.batch ++
             le 2 out.length ++ le 2 window ++ le 8 c.patternTag.toNat }

/-- A FAIL takes effect where the source tile's course runs. -/
def State.failSwatch (s : State) (w : Swatch) (c : Course) (attributed : Option Nat) : State :=
  if c.inStep then
    let set := fun (o : Option Step) => o.map (fun (p : Step) => if p.number = c.step then { p with swatchFailed := true } else p)
    (s.updJob c.job (fun j => { j with opened := set j.opened, committing := set j.committing })).endSwatch w
  else if c.implicitStep then (s.updCourse c.id (fun c => { c with swatchFailed := true })).endSwatch w
  else s.faultCourse c (attributed.getD w.source) 5 none false

/-- The tiebreak needle `u` has recomputed a swatch whose replica was `r`: its result decides the verdict, the attribution and the suspects. -/
def State.tiebreak (s : State) (w : Swatch) (c : Course) (t : TileRec) (r u : Nat) (got : List Byte) : State :=
  let source := got == w.sourceBits
  let attributed := if source then some r else if got = w.replicaBits then some w.source else none
  let s1 := [w.source, r].foldl State.mismatched (s.recomputed u)
  let s2 := if attributed.isNone then s1.mismatched u else s1
  let s3 := match attributed with
    | some a => s2.attribute a 1
    | none => s2
  let s4 := s3.mismatchRecord w c t r u attributed
  if source then s4.endSwatch w else s4.failSwatch w c attributed

/-- SWATCH_TIEBREAK: a third needle recomputes the tile and decides. -/
def State.swatchTiebreak (s : State) (id : Nat) (result : Recomputed) : State :=
  match s.swatches.find? (fun w => w.id == id && w.phase == .tiebreak) with
  | none => s
  | some w => match s.tileOf w, w.replica with
    | some (c, t), some r => match s.recomputer w r [w.source, r] with
      | none => s
      | some u => match w.gave result with
        | none => s.recomputeFault w u
        | some got => s.tiebreak w c t r u got
    | _, _ => s

def execSwatchTiebreak (t : Stitch) (swatch : Nat) (result : Recomputed) (s : State) : Host.Outcome State Fault Refusal :=
  s.act t (·.swatchTiebreak swatch result)

/-! ### SUSPECT_CLEAR (13 R373) -/

/-- A needle that has written 1,000,000 eligible tiles without a mismatch and without failing an item is not suspect any more. -/
def State.suspectClear (s : State) (u : Nat) : State :=
  if (s.needle u).isSuspect && decide (1000000 ≤ (s.needle u).clean) then s.clearSuspect u else s

def execSuspectClear (t : Stitch) (needle : Nat) (s : State) : Host.Outcome State Fault Refusal := s.act t (·.suspectClear needle)

end Sys2Proof.Machine
end

