-- ==== Sys2Proof/Machine/SelfTest.lean ====
section
/-! DEFINITION. Test items on needles and cable engines: idle intervals of suspect needles, and SELF_TEST (13 R373 to R375, R380, R381). -/

namespace Sys2Proof.Machine

/-! ### Items and units -/

/-- The item in progress on a unit. -/
def State.itemOn (s : State) (u : Nat) : Option TestItem :=
  if u < 144 then (s.needle u).item else (s.engines[u - 144]?).bind (·.item)

/-- Put an item on a unit, or take it off, from when on the unit may be idle anew (14 R394). -/
def State.setItem (s : State) (u : Nat) (x : Option TestItem) : State :=
  if u < 144 then
    let s1 := s.updNeedle u (fun n => { n with item := x })
    { s1 with pw := { s1.pw with panelIdle := s1.pw.panelIdle.set (u / 12) s.stitch } }
  else
    { s with
      engines := s.engines.modify (u - 144) (fun e => { e with item := x })
      pw := { s.pw with engineIdle := s.pw.engineIdle.set (u - 144) s.stitch } }

/-- The items that a unit runs: the built-in set as pack 0, then the packs' items in ascending pack_id and item_id; products and vector maps
run on needles, solves on engines (log 38). -/
def itemList (engine builtin : Bool) (packs : List Pack) : List (Word × Word) :=
  let mine := fun (x : Item) => if engine then x.op == 0x0020 else x.op != 0x0020
  let ids := fun (b : List Byte) => (((packItems b).filter mine).map (·.id)).foldl (fun (acc : List Nat) i =>
    acc.takeWhile (fun k => decide (k < i)) ++ [i] ++ acc.dropWhile (fun k => decide (k < i))) []
  (if builtin then (List.range Config.builtinItems).map (fun i => ((0 : Word), BitVec.ofNat 32 i)) else []) ++
  (packsInOrder packs).flatMap (fun p => (ids p.bytes).map (fun i => (p.id, BitVec.ofNat 32 i)))

/-- What an item gives is what its pack expects; a built-in item's content is not documented. -/
def itemExpected (packs : List Pack) (x : TestItem) : Bool :=
  match packs.find? (·.id == x.pack) with
  | none => true
  | some p => ((packItems p.bytes).find? (fun i => i.id == x.item.toNat)).all (fun i => i.expected (packBody p.bytes))

/-! ### Idle intervals (13 R375) -/

/-- The head of a panel's queue is a timed course due within 200,000 stitches. -/
def State.dueSoon (s : State) (p : Nat) : Bool :=
  match s.headCourse (.panel p) with
  | some c => decide (2 ≤ c.launchKind) && (match c.launchStitch with
      | some l => decide (l ≤ s.stitch + 200000)
      | none => false)
  | none => false

/-- IDLE_TEST_ITEM_START: a suspect needle that has been idle for 100 µs starts its next item. -/
def State.idleItem (s : State) (u : Nat) : State :=
  let x := s.needle u
  let items := itemList false true s.stash.packs
  let may := x.isSuspect && x.state != .retired && x.state != .pending && x.item.isNone && !s.needleBusy u && !s.underTest u &&
    decide (x.idleSince + 100000 ≤ s.stitch) && s.awake (.panel (u / 12)) && !s.dueSoon (u / 12)
  match items[x.nextItem % max items.length 1]? with
  | some i => if may then s.setItem u (some { pack := i.1, item := i.2, idle := true, start := s.stitch }) else s
  | none => s

def execIdleTestItemStart (t : Stitch) (needle : Nat) (s : State) : Host.Outcome State Fault Refusal := s.act t (·.idleItem needle)

/-! ### Running SELF_TESTs (13 R380, R381) -/

/-- A target is under test. -/
def StTarget.active (t : StTarget) : Bool := t.taken.isSome && t.released.isNone

/-- The items of a target, once. -/
def SelfTestRun.items (r : SelfTestRun) (u : Nat) : List (Word × Word) := itemList (decide (144 ≤ u)) (r.testSet != 1) r.packs

/-- The run that a unit is under test for. -/
def State.testOf (s : State) (u : Nat) : Option (SelfTestRun × StTarget) :=
  s.selfTests.findSome? (fun r => (r.targets.find? (fun t => t.unit == u && t.active)).map (fun t => (r, t)))

/-- Change the target of a unit that a predicate names, in the first run that has one. -/
def updTarget (p : StTarget → Bool) (f : StTarget → StTarget) : List SelfTestRun → List SelfTestRun
  | [] => []
  | r :: rs => if r.targets.any p then { r with targets := r.targets.map (fun t => if p t then f t else t) } :: rs else r :: updTarget p f rs

def State.updTested (s : State) (u : Nat) (f : StTarget → StTarget) : State :=
  { s with selfTests := updTarget (fun t => t.unit == u && t.active) f s.selfTests }

/-- The next item of a target; none when it has run them all. -/
def State.nextTest (s : State) (r : SelfTestRun) (t : StTarget) : Option TestItem :=
  let items := r.items t.unit
  if items.length * r.repeats ≤ t.run then none
  else (items[t.run % max items.length 1]?).map (fun i => TestItem.mk i.1 i.2 false s.stitch)

/-- A failed item counts as one attributable mismatch and makes the needle suspect (13 R374, R381). -/
def State.failedItem (s : State) (u : Nat) : State :=
  ((s.updNeedle u (fun n => { n with failed := n.failed + 1 })).makeSuspect u).attribute u 2

/-- The outcome of an item of a SELF_TEST: a failure is recorded; an engine that fails in two repeats is lost. -/
def State.testedItem (s : State) (u : Nat) (r : SelfTestRun) (t : StTarget) (x : TestItem) (pass : Bool) : State :=
  let rep := t.run / max (r.items u).length 1
  let s1 := s.updTested u (fun t =>
    if pass then { t with run := t.run + 1 }
    else { t with run := t.run + 1, failed := t.failed + 1, failedIn := some rep
                  firstPack := if t.failed = 0 then x.pack else t.firstPack, firstItem := if t.failed = 0 then x.item else t.firstItem })
  let s2 := if pass then s1 else s1.cper { cls := 14, sev := sevRecoverable, unit := u, job := r.tag.jobId.toNat, detail := le 4 x.pack.toNat ++ le 4 x.item.toNat }
  let again := match t.failedIn with
    | some q => decide (q < rep)
    | none => false
  if !pass && decide (144 ≤ u) && again then s2.engineLost (u - 144) else s2

/-- The unit can go on with items. -/
def State.testable (s : State) (u : Nat) : Bool := if u < 144 then (s.needle u).state != .retired else ((s.engines[u - 144]?).map (·.up)).getD false

/-- The next item of a unit under test starts, unless a failure stops it or it is out of service. -/
def State.goOn (s : State) (u : Nat) (pass : Bool) : State :=
  match s.testOf u with
  | some (r, t) => if s.testable u && (pass || !r.stopFirst) then s.setItem u (s.nextTest r t) else s
  | none => s

/-- TEST_ITEM_COMPLETE: `ok` says that the unit computed as the operation states; a pack's item passes when its expected output is that. -/
def State.itemDone (s : State) (u : Nat) (ok : Bool) : State :=
  match s.itemOn u with
  | none => s
  | some x =>
    let run := if x.idle then none else s.testOf u
    let packs := match run with
      | some (r, _) => r.packs
      | none => s.stash.packs
    let pass := ok && (x.pack == 0 || itemExpected packs x)
    let s1 := s.setItem u none
    let s2 := if u < 144 then
        let y := s1.fillStores [u] [u / 12]
        if pass then y.updNeedle u (fun n => { n with passed := n.passed + 1 }) else y.failedItem u
      else s1
    match run with
    | some (r, t) => (s2.testedItem u r t x pass).goOn u pass
    | none => s2.updNeedle u (fun n => { n with nextItem := n.nextItem + 1 })

def execTestItemComplete (t : Stitch) (unit : Nat) (builtinPass : Bool) (s : State) : Host.Outcome State Fault Refusal :=
  s.act t (·.itemDone unit builtinPass)

/-- A unit is at a course boundary, under no other test, and a needle has finished the tiles that it recomputes (13 R381, R393). -/
def State.atBoundary (s : State) (u : Nat) : Bool :=
  !s.underTest u && (if u < 144 then !s.needleBusy u && (s.needle u).swatchLeft == 0 else (s.onUnit (.engine (u - 144))).isNone)

/-- SELF_TEST_TARGET_TAKEN: an idle item gives way, and the first item starts. -/
def State.targetTaken (s : State) (u : Nat) : State :=
  let waits := fun (t : StTarget) => t.unit == u && t.taken.isNone && t.released.isNone
  if s.testable u && s.atBoundary u && s.selfTests.any (fun r => r.targets.any waits) then
    let s1 := if u < 144 then s.dropItem u else s
    ({ s1 with selfTests := updTarget waits (fun t => { t with taken := some s.stitch }) s1.selfTests }).goOn u true
  else s

def execSelfTestTargetTaken (t : Stitch) (unit : Nat) (s : State) : Host.Outcome State Fault Refusal := s.act t (·.targetTaken unit)

/-- The outcome of a released target. -/
def State.outcomeOf (s : State) (r : SelfTestRun) (t : StTarget) : Nat :=
  if t.unit < 144 && (s.needle t.unit).state == .retired then 3
  else if t.failed ≠ 0 then 1
  else if t.taken.isNone || decide (t.run < (r.items t.unit).length * r.repeats) then 2 else 0

/-- The result record of R381; when no target was taken the stitch of the first taken one is a free value. -/
def testRecord (r : SelfTestRun) (none0 : Nat) : List Byte :=
  let ts := r.targets
  let taken := ts.filterMap (·.taken)
  let first := match taken with
    | [] => none0
    | x :: xs => xs.foldl min x
  record 32 [(0, 4, 0x52545850), (4, 2, 1), (6, 2, ts.length), (8, 8, first), (16, 8, (ts.filterMap (·.released)).foldl max 0),
    (24, 4, (ts.map (·.run)).sum), (28, 4, (ts.map (·.failed)).sum)] ++
  ts.flatMap (fun t => record 16 [(0, 1, t.unit), (1, 1, t.outcome), (2, 2, t.run), (4, 2, t.failed), (8, 4, t.firstPack.toNat), (12, 4, t.firstItem.toNat)])

/-- The last release completes SELF_TEST. -/
def State.endTests (s : State) : State :=
  s.selfTests.foldl (fun (x : State) r =>
    if r.targets.all (·.released.isSome) then
      let d := x.free
      let y : State := { d.2 with selfTests := d.2.selfTests.erase r }
      y.finishData r.tag [if r.targets.all (fun t => t.failed == 0) then stDone else stDeviceFault] (testRecord r d.1.toNat)
    else x) s

/-- A target may be released: done, retired or lost, or at max_duration. -/
def State.releasable (s : State) (r : SelfTestRun) (t : StTarget) : Bool :=
  (t.taken.isSome && (s.itemOn t.unit).isNone) || !s.testable t.unit || (r.maxMs != 0 && decide (r.accepted + r.maxMs * 1000000 ≤ s.stitch))

/-- SELF_TEST_TARGET_RELEASED. -/
def State.targetReleased (s : State) (u : Nat) : State :=
  let mine := fun (t : StTarget) => t.unit == u && t.released.isNone
  match s.selfTests.findSome? (fun r => (r.targets.find? mine).map (fun t => (r, t))) with
  | none => s
  | some (r, t) =>
    if s.releasable r t then
      let s1 := if t.taken.isSome then s.setItem u none else s
      let s2 := if u < 144 then s1.updNeedle u (fun n => { n with idleSince := s.stitch }) else s1
      ({ s2 with selfTests := updTarget mine (fun t => { t with released := some s.stitch, outcome := s2.outcomeOf r t }) s2.selfTests }).endTests
    else s

def execSelfTestTargetReleased (t : Stitch) (unit : Nat) (s : State) : Host.Outcome State Fault Refusal := s.act t (·.targetReleased unit)

/-! ### SELF_TEST (13 R380) -/

/-- The units that a needle set, an engine mask and a panel mask name, ascending. -/
def State.testUnits (s : State) (needles engines panels : Nat) : List Nat :=
  (List.range 144).filter (fun u =>
    (match s.logicalOf u with
     | some l => bitOf needles l
     | none => false) ||
    (bitOf panels (u / 12) && (s.needle u).state != .retired && (s.needle u).state != .pending)) ++
  ((List.range 8).filter (fun e => bitOf engines e && ((s.engines[e]?).map (·.up)).getD false)).map (144 + ·)

/-- A SELF_TEST begins; with no unit in service among its targets it ends at once. -/
def State.beginTest (s : State) (r : SelfTestRun) (units : List Nat) : State :=
  let targets := units.map (fun u => { unit := u, taken := none, released := none, outcome := 2, run := 0, failed := 0, failedIn := none
                                       firstPack := 0xFFFFFFFF, firstItem := 0xFFFFFFFF : StTarget })
  ({ s with selfTests := s.selfTests ++ [{ r with targets := targets }] }).endTests

/-- SELF_TEST. -/
def State.selfTest (s : State) (c : Cmd) : State :=
  if c.rev1 then
    if c.badLayout || decide (4096 ≤ c.operand1) || c.operand1 == 0 then s.finish c.tag [stBadField] 0
    else s.beginTest { tag := c.tag, accepted := s.stitch, testSet := 0, stopFirst := false, repeats := 1, packs := [], maxMs := 0, targets := [] }
      (s.testUnits 0 0 c.operand1)
  else
    let p := c.data
    let pack := c.op 44 4
    let bad := c.badLayout || c.badPayload 32 || decide (2 < c.op 40 1) || decide (1 < c.op 41 1) || c.op 42 2 == 0 || decide (1000 < c.op 42 2) ||
      c.op 48 4 == 0 || decide (600000 < c.op 48 4) || !c.zero 52 12 || zeroBytes p 0 20 || decide (4096 ≤ field p 18 2) || !zeroBytes p 20 12 ||
      (pack != 0 && !(s.stash.packs.any (fun x => x.id.toNat == pack)))
    let packs := if c.op 40 1 = 0 then [] else s.stash.packs.filter (fun x => pack == 0 || x.id.toNat == pack)
    if bad then s.finish c.tag [stBadField] 0
    else if c.stashBad && !packs.isEmpty then s.lostPage.finish c.tag [stBlockCheckFail] 0
    else
      s.beginTest { tag := c.tag, accepted := s.stitch, testSet := c.op 40 1, stopFirst := bitOf (c.op 41 1) 0, repeats := c.op 42 2
                    packs := packs, maxMs := c.op 48 4, targets := [] }
        (s.testUnits (field p 0 17) (field p 17 1) (field p 18 2))

def execSelfTest (t : Stitch) (src : Src) (io : HostIo) (s : State) : Host.Outcome State Fault Refusal := s.host t src io 0x0062 false State.selfTest

end Sys2Proof.Machine
end

