-- ==== Sys2Proof/Machine/StackLoss.lean ====
section
/-! DEFINITION. The interface of a memory stack: retrains, and a stack that leaves service (12 R341). -/

namespace Sys2Proof.Machine

/-! ### Commands that run when a stack leaves service -/

/-- A command of an open job. -/
def State.ofOpenJob (s : State) (t : CmdTag) : Bool := (s.job? t.jobId).isSome

/-- A STEP_BEGIN that waits and a STEP_COMMIT whose outcome is open end; the steps themselves stay. -/
def State.failSteps (s : State) (j : Job) : State :=
  let mark := fun (o : Option Step) => o.map (fun (p : Step) => { p with answered := p.commit.isSome })
  let open_ := fun (p : Step) => if p.answered then none else p.commit
  let tags := j.beginWait.toList ++ (j.committing.toList ++ j.opened.toList).filterMap open_
  tags.foldl (fun x t => x.finish t [stDeviceFault] 0)
    (s.updJob j.id (fun k => { k with beginWait := none, committing := mark k.committing, opened := mark k.opened }))

/-- The DELTA_UPDATEs that wait for earlier operations end and change nothing. -/
def State.failDeltas (s : State) (j : Job) : State :=
  ((j.structures.flatMap (·.deltas)).map (·.tag)).foldl (fun x t => x.finish t [stDeviceFault] 0)
    (s.updJob j.id (fun k => { k with structures := k.structures.map (fun y => { y with deltas := [] }) }))

/-- A SOLVE ends, wherever it stands. -/
def State.failSolve (s : State) (c : Course) : State :=
  let s1 := ((s.stopCourse c 1 0).leaveAll c.id).purge c.id
  ({ s1 with courses := s1.courses.filter (·.id != c.id) }.boundary c).finish c.tag [stDeviceFault] 0

/-- A SNAPSHOT_READ ends; what it has written is to be discarded. -/
def State.failSnap (s : State) (x : SnapRun) : State := ({ s with snaps := s.snaps.erase x }).finish x.tag [stDeviceFault] 0

/-- The CHECKPOINT or RESTORE that runs ends, and those that wait. -/
def State.failRuns (s : State) : State :=
  let waiting := s.stash.runs.filter (fun r => !r.started)
  let s1 := waiting.foldl (fun x r => x.finish r.tag [stDeviceFault] 0) { s with stash := { s.stash with runs := s.stash.runs.filter (·.started) } }
  match s1.stash.runs with
  | [] => s1
  | r :: _ => match r.image with
    | none => s1.endRun r [stDeviceFault] 0
    | some k => if r.restore then s1.failRestore r k else s1.failWrite r k

/-- A BIND_OFF or a RESUME of an open job ends; the cut stays as it is, and a RESUME does not come. -/
def State.failCut (s : State) : State :=
  match s.cut with
  | none => s
  | some x =>
    let mine := x.tag.filter s.ofOpenJob
    let back := (x.resume.map (·.1)).filter s.ofOpenJob
    (mine.toList ++ back.toList).foldl (fun y t => y.finish t [stDeviceFault] 0)
      { s with cut := some { x with tag := if mine.isSome then none else x.tag, resume := if back.isSome then none else x.resume } }

/-- Every command of every open job that has not completed, JOB_CLOSE apart, completes with DEVICE_FAULT (12 R341). -/
def State.failCommands (s : State) : State :=
  let s1 := s.jobs.foldl (fun (x : State) j => (x.failSteps j).failDeltas j) s
  let s2 := (s1.courses.filter (·.kind == .solve)).foldl State.failSolve s1
  let s3 := (s2.snaps.foldl State.failSnap s2).failRuns.failCut
  s3.jobs.foldl (fun (x : State) j => (x.sweepViews j.id).tryClose j.id) s3

/-- A stack leaves service: its granules count as poisoned, no course launches, the commands of open jobs fail (12 R341). -/
def State.loseStack (s : State) (k : Nat) : State :=
  let s1 := s.updStack k (fun x => { x with state := 2 })
  ((({ s1 with dev := { s1.dev with stackLost := true, issuingStopped := true } }).raiseFault 2).memEvent 7 k 0 0 0).failCommands

/-! ### Retrains -/

/-- Stitches within which a retrain ends. -/
def retrainMax : Nat := 400000

/-- A retrain begins: accesses to the stack wait. -/
def State.beginRetrain (s : State) (k : Nat) : State :=
  s.updStack k (fun x => { x with
    state := 1, parityRetries := satAdd 32 x.parityRetries 4, retrains := satAdd 16 x.retrains 1
    recentRetrains := s.stitch :: x.recentRetrains.filter (fun t => decide (s.stitch < t + 1000000000)) })

/-- A retrain ends: the stack serves again, and the accesses that waited are served; one that failed or did not end in time, or the third
within 1 s, takes the stack out of service. -/
def State.endRetrain (s : State) (k : Nat) (ok : Bool) : State :=
  let x := s.mem.stackTab.getD k Stack.reset
  let late := decide (x.recentRetrains.headD 0 + retrainMax < s.stitch)
  if !ok || late || decide (3 ≤ x.recentRetrains.length) then (s.loseStack k).serveBar2.drainSpill
  else ((s.updStack k (fun x => { x with state := 0 })).memEvent 5 k 0 0 0).serveBar2.drainSpill

/-- STACK_INTERFACE_RETRAIN: the fifth attempt of a transfer failed and the interface retrains; given again, the retrain ends, well or not
(12 R341; log 123). -/
def State.stackRetrain (s : State) (k : Nat) (ok : Bool) : State :=
  let st := (s.mem.stackTab.getD k Stack.reset).state
  if st = 2 then s else if st = 1 then s.endRetrain k ok else s.beginRetrain k

def execStackInterfaceRetrain (t : Stitch) (stack : Nat) (ok : Bool) (s : State) : Host.Outcome State Fault Refusal :=
  s.act t (·.stackRetrain stack ok)

end Sys2Proof.Machine
end

