-- ==== Sys2Proof/Machine/Dispatch.lean ====
section
/-! DEFINITION. One arm per command: a direct call of its meaning. -/

namespace Sys2Proof.Machine

def exec (i : Instr) (s : State) : Host.Outcome State Fault Refusal :=
  match i with
  | .identify t src io => Sys2Proof.Machine.execIdentify t src io s
  | .setConfig t src io => Sys2Proof.Machine.execSetConfig t src io s
  | .getConfigReport t src io => Sys2Proof.Machine.execGetConfigReport t src io s
  | .setLatencyTolerance t src io => Sys2Proof.Machine.execSetLatencyTolerance t src io s
  | .fwBlock t src io => Sys2Proof.Machine.execFwBlock t src io s
  | .fwActivate t src io => Sys2Proof.Machine.execFwActivate t src io s
  | .attest t src io => Sys2Proof.Machine.execAttest t src io s
  | .darnLoad t src io => Sys2Proof.Machine.execDarnLoad t src io s
  | .jobOpen t src io => Sys2Proof.Machine.execJobOpen t src io s
  | .jobClose t src io => Sys2Proof.Machine.execJobClose t src io s
  | .patternLoad t src io => Sys2Proof.Machine.execPatternLoad t src io s
  | .tensorMap t src io => Sys2Proof.Machine.execTensorMap t src io s
  | .courseSubmit t src io => Sys2Proof.Machine.execCourseSubmit t src io s
  | .stepBegin t src io => Sys2Proof.Machine.execStepBegin t src io s
  | .stepCommit t src io => Sys2Proof.Machine.execStepCommit t src io s
  | .snapshotRead t src io => Sys2Proof.Machine.execSnapshotRead t src io s
  | .bindOff t src io => Sys2Proof.Machine.execBindOff t src io s
  | .resume t src io => Sys2Proof.Machine.execResume t src io s
  | .structureLoad t src io => Sys2Proof.Machine.execStructureLoad t src io s
  | .deltaUpdate t src io => Sys2Proof.Machine.execDeltaUpdate t src io s
  | .solve t src io => Sys2Proof.Machine.execSolve t src io s
  | .checkpoint t src io => Sys2Proof.Machine.execCheckpoint t src io s
  | .restore t src io imageOk => Sys2Proof.Machine.execRestore t src io imageOk s
  | .traceControl t src io => Sys2Proof.Machine.execTraceControl t src io s
  | .countersRead t src io => Sys2Proof.Machine.execCountersRead t src io s
  | .selfTest t src io => Sys2Proof.Machine.execSelfTest t src io s
  | .unknownOpcode t src io => Sys2Proof.Machine.execUnknownOpcode t src io s
  | .ringDoorbell t r value => Sys2Proof.Machine.execRingDoorbell t r value s
  | .ringCqDoorbell t r value => Sys2Proof.Machine.execRingCqDoorbell t r value s
  | .ringEnable t r intEnable => Sys2Proof.Machine.execRingEnable t r intEnable s
  | .ringDisable t r intEnable => Sys2Proof.Machine.execRingDisable t r intEnable s
  | .ringDrainDone t r => Sys2Proof.Machine.execRingDrainDone t r s
  | .ringConfigWrite t r reg value => Sys2Proof.Machine.execRingConfigWrite t r reg value s
  | .ringFetch t entries => Sys2Proof.Machine.execRingFetch t entries s
  | .holdEntryAccept t r => Sys2Proof.Machine.execHoldEntryAccept t r s
  | .heldCourseEnqueue t u => Sys2Proof.Machine.execHeldCourseEnqueue t u s
  | .heldCompletionWrite t r fault => Sys2Proof.Machine.execHeldCompletionWrite t r fault s
  | .intrCauseClear t reg value => Sys2Proof.Machine.execIntrCauseClear t reg value s
  | .registerWrite t off wide value => Sys2Proof.Machine.execRegisterWrite t off wide value s
  | .timeStitchRead t wide => Sys2Proof.Machine.execTimeStitchRead t wide s
  | .timeGaugeRead t => Sys2Proof.Machine.execTimeGaugeRead t s
  | .timeMissedLaunchesRead t => Sys2Proof.Machine.execTimeMissedLaunchesRead t s
  | .powerThrottleStitchesRead t => Sys2Proof.Machine.execPowerThrottleStitchesRead t s
  | .timeGaugeControlWrite t value => Sys2Proof.Machine.execTimeGaugeControlWrite t value s
  | .timeGaugeDelayWrite t value => Sys2Proof.Machine.execTimeGaugeDelayWrite t value s
  | .powerHostCapWrite t value => Sys2Proof.Machine.execPowerHostCapWrite t value s
  | .cntSnapshot t value => Sys2Proof.Machine.execCntSnapshot t value s
  | .obsRegisterAccess t off write => Sys2Proof.Machine.execObsRegisterAccess t off write s
  | .bar2Read t off len => Sys2Proof.Machine.execBar2Read t off len s
  | .bar2Write t off data => Sys2Proof.Machine.execBar2Write t off data s
  | .hostInterfaceReset t kind => Sys2Proof.Machine.execHostInterfaceReset t kind s
  | .hostInterfaceReady t => Sys2Proof.Machine.execHostInterfaceReady t s
  | .pcieLinkTrain t partnerSpeed partnerWidth lanes eqFail => Sys2Proof.Machine.execPcieLinkTrain t partnerSpeed partnerWidth lanes eqFail s
  | .configRequestRetry t => Sys2Proof.Machine.execConfigRequestRetry t s
  | .ptmResponseReceived t master => Sys2Proof.Machine.execPtmResponseReceived t master s
  | .courseLaunch t u => Sys2Proof.Machine.execCourseLaunch t u s
  | .panelReadyReport t course u => Sys2Proof.Machine.execPanelReadyReport t course u s
  | .batchWaitExpiry t p => Sys2Proof.Machine.execBatchWaitExpiry t p s
  | .courseRetire t course => Sys2Proof.Machine.execCourseRetire t course s
  | .markerComplete t job marker panel => Sys2Proof.Machine.execMarkerComplete t job marker panel s
  | .markerReportReceived t sender job marker mark => Sys2Proof.Machine.execMarkerReportReceived t sender job marker mark s
  | .stagingPageAvailable t job => Sys2Proof.Machine.execStagingPageAvailable t job s
  | .courseFault t course unit cause addr row => Sys2Proof.Machine.execCourseFault t course unit cause addr row s
  | .courseWatchdogExpiry t course unit => Sys2Proof.Machine.execCourseWatchdogExpiry t course unit s
  | .implicitStepCommit t course => Sys2Proof.Machine.execImplicitStepCommit t course s
  | .swatchSelect t needle course op tile written => Sys2Proof.Machine.execSwatchSelect t needle course op tile written s
  | .swatchReplicaRun t swatch result => Sys2Proof.Machine.execSwatchReplicaRun t swatch result s
  | .swatchCompare t swatch => Sys2Proof.Machine.execSwatchCompare t swatch s
  | .swatchTiebreak t swatch result => Sys2Proof.Machine.execSwatchTiebreak t swatch result s
  | .suspectClear t needle => Sys2Proof.Machine.execSuspectClear t needle s
  | .idleTestItemStart t needle => Sys2Proof.Machine.execIdleTestItemStart t needle s
  | .testItemComplete t unit builtinPass => Sys2Proof.Machine.execTestItemComplete t unit builtinPass s
  | .selfTestTargetTaken t unit => Sys2Proof.Machine.execSelfTestTargetTaken t unit s
  | .selfTestTargetReleased t unit => Sys2Proof.Machine.execSelfTestTargetReleased t unit s
  | .stepDeadline t job => Sys2Proof.Machine.execStepDeadline t job s
  | .verdictReportReceived t sender job step verdict decided => Sys2Proof.Machine.execVerdictReportReceived t sender job step verdict decided s
  | .verdictTimeout t job => Sys2Proof.Machine.execVerdictTimeout t job s
  | .frogRestart t job => Sys2Proof.Machine.execFrogRestart t job s
  | .abandonDropWindowEnd t job => Sys2Proof.Machine.execAbandonDropWindowEnd t job s
  | .jobOpenExchangeReceived t job report => Sys2Proof.Machine.execJobOpenExchangeReceived t job report s
  | .jobOpenAgreeTimeout t job => Sys2Proof.Machine.execJobOpenAgreeTimeout t job s
  | .delayMeasurement t link t1 t2 t3 t4 => Sys2Proof.Machine.execDelayMeasurement t link t1 t2 t3 t4 s
  | .timeMessageSend t => Sys2Proof.Machine.execTimeMessageSend t s
  | .timeMessageReceived t link counter => Sys2Proof.Machine.execTimeMessageReceived t link counter s
  | .holdoverEntry t => Sys2Proof.Machine.execHoldoverEntry t s
  | .masterTakeover t => Sys2Proof.Machine.execMasterTakeover t s
  | .holdoverExpiry t => Sys2Proof.Machine.execHoldoverExpiry t s
  | .electionMessageReceived t link msg => Sys2Proof.Machine.execElectionMessageReceived t link msg s
  | .ppsInEdge edge => Sys2Proof.Machine.execPpsInEdge edge s
  | .refLossTimeout t what => Sys2Proof.Machine.execRefLossTimeout t what s
  | .ppsOutPulse t => Sys2Proof.Machine.execPpsOutPulse t s
  | .ptpMessage t masterTime => Sys2Proof.Machine.execPtpMessage t masterTime s
  | .cycInEdge t edge => Sys2Proof.Machine.execCycInEdge t edge s
  | .quadCount t counts => Sys2Proof.Machine.execQuadCount t counts s
  | .gaugeCoastedRecord t => Sys2Proof.Machine.execGaugeCoastedRecord t s
  | .gaugeRecordReceived t link rec => Sys2Proof.Machine.execGaugeRecordReceived t link rec s
  | .cycOutPulse t => Sys2Proof.Machine.execCycOutPulse t s
  | .cycDetChange t connected => Sys2Proof.Machine.execCycDetChange t connected s
  | .timedWake t u => Sys2Proof.Machine.execTimedWake t u s
  | .linkTraining t training => Sys2Proof.Machine.execLinkTraining t training s
  | .linkUp t link result => Sys2Proof.Machine.execLinkUp t link result s
  | .linkLossOfLock t link => Sys2Proof.Machine.execLinkLossOfLock t link s
  | .linkRetryTimer t link => Sys2Proof.Machine.execLinkRetryTimer t link s
  | .linkPlanRejoin t link => Sys2Proof.Machine.execLinkPlanRejoin t link s
  | .skeinFormation t wires members => Sys2Proof.Machine.execSkeinFormation t wires members s
  | .idleFrameReceived t link ack => Sys2Proof.Machine.execIdleFrameReceived t link ack s
  | .ackFrameReceived t link acks naks => Sys2Proof.Machine.execAckFrameReceived t link acks naks s
  | .retransmitTimeout t link seq => Sys2Proof.Machine.execRetransmitTimeout t link seq s
  | .uncorrectableFrame t link seq => Sys2Proof.Machine.execUncorrectableFrame t link seq s
  | .delayFrameReceived t link t1 t2 => Sys2Proof.Machine.execDelayFrameReceived t link t1 t2 s
  | .trainingFrameReceived t link serial peerLink die generation => Sys2Proof.Machine.execTrainingFrameReceived t link serial peerLink die generation s
  | .cutFrameReceived t link cutStitch lastSeq => Sys2Proof.Machine.execCutFrameReceived t link cutStitch lastSeq s
  | .dataFrameReceived t link frame => Sys2Proof.Machine.execDataFrameReceived t link frame s
  | .unscheduledFrameReceived t link frame => Sys2Proof.Machine.execUnscheduledFrameReceived t link frame s
  | .unknownFrameDropped t link frameType => Sys2Proof.Machine.execUnknownFrameDropped t link frameType s
  | .slotBoundary t => Sys2Proof.Machine.execSlotBoundary t s
  | .seamCourseWithdrawal t course => Sys2Proof.Machine.execSeamCourseWithdrawal t course s
  | .cutStitchReached t => Sys2Proof.Machine.execCutStitchReached t s
  | .cutTaken t => Sys2Proof.Machine.execCutTaken t s
  | .cutReportReceived t sender cut taken => Sys2Proof.Machine.execCutReportReceived t sender cut taken s
  | .bindOffReportTimeout t => Sys2Proof.Machine.execBindOffReportTimeout t s
  | .resumeStitchReached t => Sys2Proof.Machine.execResumeStitchReached t s
  | .engineOperationStart t engine => Sys2Proof.Machine.execEngineOperationStart t engine s
  | .solveFactorCutoff t op => Sys2Proof.Machine.execSolveFactorCutoff t op s
  | .solveDeadlineReached t op => Sys2Proof.Machine.execSolveDeadlineReached t op s
  | .solveOperationEnd t op => Sys2Proof.Machine.execSolveOperationEnd t op s
  | .cableEngineLost t engine => Sys2Proof.Machine.execCableEngineLost t engine s
  | .patrolScrub t addr corrected uncorrectable => Sys2Proof.Machine.execPatrolScrub t addr corrected uncorrectable s
  | .rowRepair t addr uncorrectable => Sys2Proof.Machine.execRowRepair t addr uncorrectable s
  | .pageRetirement t addr uncorrectable => Sys2Proof.Machine.execPageRetirement t addr uncorrectable s
  | .stackInterfaceRetrain t stack ok => Sys2Proof.Machine.execStackInterfaceRetrain t stack ok s
  | .stackTemperatureSample t stack temp => Sys2Proof.Machine.execStackTemperatureSample t stack temp s
  | .bar2ThermalAbort t off => Sys2Proof.Machine.execBar2ThermalAbort t off s
  | .stashChannelChange t channel up => Sys2Proof.Machine.execStashChannelChange t channel up s
  | .retentionScrub t block => Sys2Proof.Machine.execRetentionScrub t block s
  | .wearLevelMove t fromBlock toBlock => Sys2Proof.Machine.execWearLevelMove t fromBlock toBlock s
  | .checkpointWriteDone t ok => Sys2Proof.Machine.execCheckpointWriteDone t ok s
  | .restoreDone t firstBadSection => Sys2Proof.Machine.execRestoreDone t firstBadSection s
  | .idleShallowEntry t u => Sys2Proof.Machine.execIdleShallowEntry t u s
  | .idleDeepEntry t u => Sys2Proof.Machine.execIdleDeepEntry t u s
  | .standbyEntry t => Sys2Proof.Machine.execStandbyEntry t s
  | .hibernateEntry t => Sys2Proof.Machine.execHibernateEntry t s
  | .powerStateWake t u => Sys2Proof.Machine.execPowerStateWake t u s
  | .hibernateExit t badChunks => Sys2Proof.Machine.execHibernateExit t badChunks s
  | .powerStateExitDone t u => Sys2Proof.Machine.execPowerStateExitDone t u s
  | .powerSample t east draw voltage current => Sys2Proof.Machine.execPowerSample t east draw voltage current s
  | .overcurrentEvent t current => Sys2Proof.Machine.execOvercurrentEvent t current s
  | .dieOvertempShutdown t east temp => Sys2Proof.Machine.execDieOvertempShutdown t east temp s
  | .powerGood t f => Sys2Proof.Machine.execPowerGood t f s
  | .inputPowerLoss t cause => Sys2Proof.Machine.execInputPowerLoss t cause s
  | .overvoltageTurnOff t vin => Sys2Proof.Machine.execOvervoltageTurnOff t vin s
  | .pwrCycleAssert t duration => Sys2Proof.Machine.execPwrCycleAssert t duration s
  | .hookWatchdogExpiry t => Sys2Proof.Machine.execHookWatchdogExpiry t s
  | .bridgeLaneGroupFail t group => Sys2Proof.Machine.execBridgeLaneGroupFail t group s
  | .fwHandover t => Sys2Proof.Machine.execFwHandover t s
  | .unitMicrocodeSwitch t unit => Sys2Proof.Machine.execUnitMicrocodeSwitch t unit s
  | .fwTrialExpiry t => Sys2Proof.Machine.execFwTrialExpiry t s
  | .debugTokenExpiry t => Sys2Proof.Machine.execDebugTokenExpiry t s
  | .spdmRequest t via req => Sys2Proof.Machine.execSpdmRequest t via req s
  | .dhcpFallbackTimeout t => Sys2Proof.Machine.execDhcpFallbackTimeout t s
  | .uartRxCharacter t ch => Sys2Proof.Machine.execUartRxCharacter t ch s
  | .adminDoorbell t value => Sys2Proof.Machine.execAdminDoorbell t value s
  | .intrMaskWrite t reg value => Sys2Proof.Machine.execIntrMaskWrite t reg value s
  | .resizableBarWrite t sizeLog2 => Sys2Proof.Machine.execResizableBarWrite t sizeLog2 s
  | .snapshotReadDone t job commandId => Sys2Proof.Machine.execSnapshotReadDone t job commandId s
  | .dieThrottleTemperature t east temp => Sys2Proof.Machine.execDieThrottleTemperature t east temp s
  | .obsSample t => Sys2Proof.Machine.execObsSample t s
  | .jtagInstruction t ins => Sys2Proof.Machine.execJtagInstruction t ins s
  | .dhcpAddress t addr => Sys2Proof.Machine.execDhcpAddress t addr s

end Sys2Proof.Machine
end

