-- ==== Sys2Proof/Machine/Registers.lean ====
section
/-! DEFINITION. What the registers of BAR0 that have no row of their own read as (02 R45, R46, R51, R53, R55; 04 R124; 14 R404; 15 R419,
R420).  The opcode table has rows for the reads that change something; a read of these registers changes nothing, so it is no
command, and these values are views of the state. -/

namespace Sys2Proof.Machine

/-- A bit as a number. -/
def bit01 (b : Bool) : Nat := if b then 1 else 0

/-- DEV_ID (02 R46). -/
def State.devId (s : State) : Nat := deviceId * 2 ^ 16 + s.dev.stepping.toNat * 256 + 2

/-- DEV_STATUS (02 R46). -/
def State.devStatus (s : State) : Nat :=
  s.dev.castOnPhase.toNat * 256 + bit01 (!s.jobs.isEmpty) * 64 + bit01 ((s.cut.map (fun c => c.phase == CutPhase.held)).getD false) * 32 +
  bit01 s.dev.fwActivating * 16 + bit01 s.dev.configFactory * 8 + bit01 (s.intr.fault != 0) * 4 + bit01 s.dev.castOnComplete * 2 + bit01 s.dev.hostReady

/-- DEV_DEVICE_NUMBER (02 R46). -/
def State.devNumber (s : State) : Nat := if s.skein.member then 2 ^ 16 + s.skein.device.toNat else 0

/-- The DEV block. -/
def State.devReg (s : State) (off : Nat) : Nat :=
  match off with
  | 0x000 => s.devId
  | 0x004 => s.fw.running.toNat
  | 0x008 => s.devStatus
  | 0x00C => s.dev.scratch.toNat
  | 0x010 => s.devNumber
  | 0x018 => s.dev.usablePages
  | 0x020 => s.cfg.sequence
  | 0x040 => s.dev.bar2Base
  | 0x048 => s.dev.bar2SizeLog2
  | _ => 0

/-- ADMIN_STATUS (02 R53). -/
def Admin.status (a : Admin) : Nat := bit01 a.overrun * 4 + bit01 a.done * 2 + bit01 a.busy

/-- The ADMIN block, word by word. -/
def State.adminReg (s : State) (off : Nat) : Nat :=
  if off < 0x040 then field s.admin.command off 4
  else if off = 0x044 then s.admin.status
  else if 0x080 ≤ off ∧ off < 0x0A0 then field s.admin.completion (off - 0x080) 4
  else 0

/-- RING_STATUS (02 R55). -/
def Ring.status (g : Ring) : Nat := g.held.length * 2 ^ 16 + g.attn * 16 + bit01 g.halted * 2 + bit01 g.enabled

/-- A ring block (02 R55). -/
def Ring.reg (g : Ring) (off : Nat) : Nat :=
  match off with
  | 0x000 => g.sqBase.toNat
  | 0x008 => g.cqBase.toNat
  | 0x010 => g.sizeLog2
  | 0x014 => bit01 g.intEnable * 2 + bit01 g.enable
  | 0x018 => g.revision
  | 0x01C => g.status
  | 0x024 => g.sqHead
  | 0x02C => g.cqTail
  | 0x030 => g.priority
  | _ => 0

/-- INTR_CAUSE_MAIN (02 R51): fault and timing are levels of their summaries. -/
def Intr.causeMain (i : Intr) : Nat := bit01 (i.fault != 0) * 4 + bit01 (i.timing != 0) * 2 + bit01 i.admin

/-- The INTR block (02 R51). -/
def Intr.reg (i : Intr) (off : Nat) : Nat :=
  match off with
  | 0x000 => i.causeMain
  | 0x004 => i.ringCpl.toNat
  | 0x008 => i.ringAttn.toNat
  | 0x010 => i.maskMain.toNat
  | 0x014 => i.maskRingCpl.toNat
  | 0x018 => i.maskRingAttn.toNat
  | 0x020 => i.fault.toNat
  | 0x024 => i.timing.toNat
  | _ => if 0x100 ≤ off ∧ off < 0x100 + 4 * 67 then (i.vectorMap.getD ((off - 0x100) / 4) 0).toNat else 0

/-- TIME_STATUS (04 R124). -/
def State.timeStatus (s : State) : Nat :=
  s.gauge.state * 2 ^ 20 + bit01 s.gauge.conflict * 2 ^ 19 + bit01 s.gauge.mismatch * 2 ^ 18 + bit01 s.gauge.active * 2 ^ 17 +
  s.cfg.castTimeSource * 2 ^ 8 + bit01 s.time.refValid * 32 + bit01 s.time.unaligned * 16 + bit01 s.time.expired * 8 +
  bit01 s.time.holdoverStart.isSome * 4 + s.time.role

/-- TIME_HOLDOVER_LEFT (04 R124): whole milliseconds left of 10 s. -/
def State.holdoverLeft (s : State) : Nat :=
  if s.time.expired then 0 else match s.time.holdoverStart with
    | none => 10000
    | some h => (h + 10000000000 - s.stitch) / 1000000

/-- The TIME block (04 R124). -/
def State.timeReg (s : State) (off : Nat) : Nat :=
  let r := s.gauge.records.head?
  match off with
  | 0x008 => s.time.stitchHi.toNat
  | 0x018 => s.time.gaugeAt
  | 0x020 => s.timeStatus
  | 0x024 => bit01 s.time.masterValid * 2 ^ 16 + s.time.master.toNat
  | 0x028 => ((List.range 4).map (fun i => (s.time.standbys.getD i 0xFFFF).toNat * 2 ^ (16 * i))).sum
  | 0x030 => unsigned 32 s.time.offset
  | 0x034 => s.holdoverLeft
  | 0x040 => s.gauge.control.toNat
  | 0x044 => s.gauge.delay.toNat
  | 0x050 => (r.map (·.periodQ)).getD 0
  | 0x058 => (r.map (·.stitch)).getD 0
  | 0x060 => (r.map (·.value.toNat)).getD 0
  | 0x070 => s.time.outputControl.toNat
  | 0x080 => s.time.ptmStitch
  | 0x088 => s.time.ptmMaster.toNat
  | _ => 0

/-- The term that sets the draw (14 R404): 4 while a die is stretched for its temperature and the draw lies below every power
term, else the lowest code among the least terms. -/
def State.binding (s : State) : Nat :=
  let l := s.powerLimit
  if ((s.pw.hotW && decide (s.pw.clockW < 1300)) || (s.pw.hotE && decide (s.pw.clockE < 1300))) && decide (s.pw.draw < l) then 4
  else if s.cfg.fields.powerLimit = l then 0 else if s.startLimit = l then 1 else if s.pw.hostCap = l then 2 else 3

/-- POWER_EXIT_LATENCY of a state code (14 R397, R404). -/
def State.exitReg (s : State) (code : Nat) : Nat :=
  let h := s.pw.histories.getD (code - 1) []
  bit01 (decide (64 ≤ h.length)) * 2 ^ 40 + min h.length 64 * 2 ^ 32 + s.exitLatency code

/-- The POWER block (14 R404). -/
def State.powerReg (s : State) (off : Nat) : Nat :=
  let codes := fun (l : List Nat) => (l.zipIdx.map (fun p => p.1 * 4 ^ p.2)).sum
  match off with
  | 0x000 => s.deepest * 256 + s.pw.transition * 16 + s.pw.module
  | 0x004 => codes s.pw.panels
  | 0x008 => codes s.pw.engines
  | 0x00C => s.pw.tolerance
  | 0x010 => s.binding * 2 ^ 16 + s.powerLimit
  | 0x014 => s.pw.hostCap
  | 0x018 => s.pw.average s.stitch (·.voltage) s.pw.vin * 2 ^ 16 + s.pw.average s.stitch (·.current) s.pw.current
  | 0x01C => s.pw.peakNow s.stitch * 2 ^ 16 + s.pw.drawNow s.stitch
  | 0x020 => s.pw.clockE * 2 ^ 16 + s.pw.clockW
  | 0x024 => s.pw.tempE * 256 + s.pw.tempW
  | _ => if 0x040 ≤ off ∧ off < 0x060 ∧ off % 8 = 0 then s.exitReg ((off - 0x040) / 8 + 1) else 0

/-- A host read of POWER_STATE: what it gives, and the state after it, which has cleared transition 3.  No row of the table is such a read (log 88). -/
def State.powerStateRead (s : State) : Nat × State :=
  (s.powerReg 0x000, if s.pw.transition = 3 then { s with pw := { s.pw with transition := 0 } } else s)

/-! ### Pins that follow the state (16 R445, R446, R450, R454) -/

/-- SMBALERT# is low: DEV_STATUS.fault_summary is 1; without power the pin is high-impedance. -/
def State.smbAlertLow (s : State) : Bool := s.stage.good && s.intr.fault != 0

/-- MOD_FAULT# is low: the module is lost or in recovery. -/
def State.modFaultLow (s : State) : Bool := s.stage.lost || (s.stage.good && s.dev.castOnPhase == 0xFE)

/-- The SMBus address: 0x40 + 2 × ADDR1 + ADDR0, as strapped at power-good. -/
def State.smbusAddress (s : State) : Nat := 0x40 + s.mgmt.strap.toNat

/-- UART_TX stays high and transmits nothing: DEBUG_CONSOLE is 0. -/
def State.uartSilent (s : State) : Bool := s.cfg.castConsole == 0

/-- OBS_CLK is low and OBS_D is 0: the observation port is not active (15 R439). -/
def State.obsIdle (s : State) : Bool := !s.obsActive

/-- The COUNTERS window (15 R419, R420): from 0x100 on the values of the snapshot. -/
def State.counterReg (s : State) (off : Nat) : Nat :=
  let c := s.cnt
  match off with
  | 0x008 => c.snapStitch
  | 0x010 => c.jobSelect.toNat
  | 0x014 => bit01 c.jobStatus
  | _ =>
    if 0x100 ≤ off ∧ off < 0x200 then c.snapPorts.getD ((off - 0x100) / 8) 0
    else if 0x200 ≤ off ∧ off < 0x400 then c.snapEvents.getD ((off - 0x200) / 8) 0
    else if 0x800 ≤ off ∧ off < 0x900 then c.snapJob.getD ((off - 0x800) / 8) 0
    else if 0x1000 ≤ off ∧ off < 0x1000 + 128 * 200 then (c.snapUnits.getD ((off - 0x1000) / 128) []).getD (off % 128 / 8) 0
    else 0

/-- The MSI-X table, word by word, and the pending bits in 64-bit words (02 R50; the layouts are PCIe's, PRESUMED: log 14). -/
def Intr.msixReg (i : Intr) (off : Nat) : Nat :=
  let e := i.msix.getD (off / 16) { addr := 0, data := 0, masked := true }
  if off < 66 * 16 then
    (if off % 16 / 4 = 0 then e.addr.toNat % 2 ^ 32 else if off % 16 / 4 = 1 then e.addr.toNat / 2 ^ 32
     else if off % 16 / 4 = 2 then e.data.toNat else bit01 e.masked)
  else if 0x800 ≤ off ∧ off < 0x810 then
    ((List.range 64).map (fun b => bit01 (i.pba.getD ((off - 0x800) * 8 + b) false) * 2 ^ b)).sum
  else 0

/-- What a register of BAR0 reads as, by its offset (02 R45); reserved ranges and write-only registers read as zero. -/
def State.reg (s : State) (off : Nat) : Nat :=
  if off < 0x10000 then s.devReg off
  else if off < 0x20000 then s.adminReg (off - 0x10000)
  else if off < 0x40000 then (s.ring ((off - 0x20000) / 0x1000)).reg (off % 0x1000)
  else if off < 0x50000 then s.intr.reg (off - 0x40000)
  else if off < 0x60000 then s.timeReg (off - 0x50000)
  else if off < 0x70000 then s.powerReg (off - 0x60000)
  else if off < 0x80000 then s.counterReg (off - 0x70000)
  else if 0x100000 ≤ off then s.intr.msixReg (off - 0x100000)
  else 0

end Sys2Proof.Machine
end

