-- ==== Sys2Proof/Safety.lean ====
section
/-! DEFINITION. What counts as a safe run, and the words in which claims are stated.  A run is safe when every step answers a next
state; the only fault is the one 16 R445 leaves undefined. -/

namespace Sys2Proof.Machine

/-- The outcome is a next state. -/
def isNext : Host.Outcome State Fault Refusal → Prop
  | .next _ => True
  | _ => False

/-- A state steps safely. -/
def State.Safe (s : State) : Prop := isNext (step s)

/-- The Hook takes an entry of a source now as the command of a table row: the module is up, the entry stands at the head of its
source, its opcode is the row's where it was sent, the module is not in recovery, and no lost stack keeps the job's commands away
(02 R58, R68; 12 R341; 14 R407). -/
def State.hookTakes (s : State) (src : Src) (op : Nat) (f : Fetched) : Prop :=
  s.up = true ∧ s.headEntry src = some f ∧ opcodeRow src (s.srcRev src) (entryOpcode (s.srcRev src) f.entry) = some op ∧
  s.dev.castOnPhase ≠ 0xFE ∧ s.jobFault (s.cmd src ⟨none, false, false⟩ f).tag op = false

/-- The host commands: each row's stitch, source, host memory and opcode, and whether it is served in recovery (02 R68; 14 R407). -/
def hostRow : Instr → Option (Stitch × Src × HostIo × Nat × Bool)
  | .identify t src io => some (t, src, io, 0x0001, true)
  | .setConfig t src io => some (t, src, io, 0x0002, false)
  | .getConfigReport t src io => some (t, src, io, 0x0003, false)
  | .setLatencyTolerance t src io => some (t, src, io, 0x0004, false)
  | .fwBlock t src io => some (t, src, io, 0x0010, true)
  | .fwActivate t src io => some (t, src, io, 0x0011, true)
  | .attest t src io => some (t, src, io, 0x0012, true)
  | .darnLoad t src io => some (t, src, io, 0x0013, false)
  | .jobOpen t src io => some (t, src, io, 0x0020, false)
  | .jobClose t src io => some (t, src, io, 0x0021, false)
  | .patternLoad t src io => some (t, src, io, 0x0022, false)
  | .tensorMap t src io => some (t, src, io, 0x0023, false)
  | .courseSubmit t src io => some (t, src, io, 0x0024, false)
  | .stepBegin t src io => some (t, src, io, 0x0028, false)
  | .stepCommit t src io => some (t, src, io, 0x0029, false)
  | .snapshotRead t src io => some (t, src, io, 0x002A, false)
  | .bindOff t src io => some (t, src, io, 0x0030, false)
  | .resume t src io => some (t, src, io, 0x0031, false)
  | .structureLoad t src io => some (t, src, io, 0x0040, false)
  | .deltaUpdate t src io => some (t, src, io, 0x0041, false)
  | .solve t src io => some (t, src, io, 0x0042, false)
  | .checkpoint t src io => some (t, src, io, 0x0050, false)
  | .restore t src io _ => some (t, src, io, 0x0051, false)
  | .traceControl t src io => some (t, src, io, 0x0060, false)
  | .countersRead t src io => some (t, src, io, 0x0061, true)
  | .selfTest t src io => some (t, src, io, 0x0062, false)
  | _ => none

/-- The command that an entry stands for when its stitch has come. -/
def State.given (s : State) (t : Stitch) (src : Src) (io : HostIo) (f : Fetched) : Cmd := (s.advance t).cmd src io f

/-- The state with the command's stitch reached and its entry taken from its source. -/
def State.popped (s : State) (t : Stitch) (src : Src) : State := (s.advance t).pop src

/-- `a` is the state at a command's stitch, of a module that has power and is not lost. -/
def State.Reached (s : State) (t : Stitch) (a : State) : Prop := a = s.advance t ∧ a.up = true

/-- The state without what the ending of a command may change beside the command's own effect: rings, the admin mailbox, interrupts, the
module's event counters, error records and the bytes they take in the Stash, the completions that a firmware handover keeps back, and what is
driven outward. -/
def State.sansEnds (s : State) : State :=
  { s with rings := [], admin := Admin.reset, intr := Intr.reset, out := [], cnt := { s.cnt with events := [] }
           stash := { s.stash with cper := [], cperNext := 0, bytesWritten := 0 }, fw := { s.fw with late := [] } }

/-- The invariant of device memory: the contents, and the image that hibernation keeps of them, are in canonical form. -/
def State.MemOk (s : State) : Prop := Memory.wf s.mem.cells = true ∧ ∀ m, s.stash.hibernate = some m → Memory.wf m = true

/-- An emission that nothing takes back.  A frame of a link is written with the stitch at which it leaves, and goes again when its link or its
course ends before that stitch (10 R308; 11 R332). -/
def Emission.lasting (e : Emission) : Bool :=
  match e with
  | .frame _ _ _ _ _ => false
  | _ => true

/-- What was driven outward for good, in order. -/
def State.lastingOut (s : State) : List Emission := s.out.filter Emission.lasting

/-- What no command changes against its sense: the queue of waiting commands stays, what was driven outward for good stays driven, and device
memory keeps its form. -/
def State.Keeps (s u : State) : Prop := u.pending = s.pending ∧ s.lastingOut <+: u.lastingOut ∧ (s.MemOk → u.MemOk)

end Sys2Proof.Machine
end

