-- ==== Sys2Proof/Certificates/Slice0/Obligations.lean ====
section
/-! DEFINITION. The statements about the block.  Where a statement names a state after `advance`, time has passed to the command's
stitch; what the passing of time changes is a statement of its own.  In the statements on host commands `c` is the command that the
entry at the head of its source stands for, and `b` the state without that entry. -/

section

open Sys2Proof Sys2Proof.Machine

/-! ### Host commands -/

/-- IDENTIFY, GET_CONFIG_REPORT, ATTEST and COUNTERS_READ answer their records and change nothing else; a record is copied to result_addr:
its first result_len bytes are written, the result field gives the full length, and result_truncated says whether some were left out; error
records that the Stash cannot rebuild end the command with BLOCK_CHECK_FAIL. Forms whose own effect completes here: identify,
getConfigReport, attest, countersRead (02 R64, R71, R80; 12 R353; 14 R414; 15 R434). -/
def Obligations.RecordsAnswered : Prop :=
  ∀ (s b : State) (t : Stitch) (src : Src) (io : HostIo) (f : Fetched) (c : Cmd),
    b = s.popped t src → c = s.given t src io f → c.badLayout = false →
    ((s.advance t).hookTakes src 0x0001 f → c.noOperands = true →
      exec (.identify t src io) s = .next (b.finishData c.tag [0] (if c.rev1 then b.identify1 else b.identify2))) ∧
    ((s.advance t).hookTakes src 0x0003 f → c.noOperands = true →
      exec (.getConfigReport t src io) s = .next (b.finishData c.tag [0] (s.advance t).cfg.report)) ∧
    ((s.advance t).hookTakes src 0x0012 f → c.op 40 1 = 1 → c.zero 41 3 = true → c.zero 48 16 = true →
      exec (.attest t src io) s = .next (b.finishData c.tag [0] Config.certChain)) ∧
    ((s.advance t).hookTakes src 0x0012 f → c.op 40 1 = 0 → c.zero 41 3 = true → c.zero 48 16 = true → c.badPayload 32 = false →
      c.op 44 4 ≠ 0 → c.op 44 4 % 2 = 0 → c.op 44 4 < 512 →
      exec (.attest t src io) s = .next (b.finishData c.tag [0] (b.attestReport (c.op 44 4) c.data))) ∧
    ((s.advance t).hookTakes src 0x0061 f → c.countersReserved = false →
      (c.selector = 0 → exec (.countersRead t src io) s = .next (b.finishData c.tag [0] (b.snapshotCopy c.tag.jobId))) ∧
      (c.selector = 2 → exec (.countersRead t src io) s = .next (b.finishData c.tag [0] b.skeinBytes)) ∧
      (c.selector = 3 → exec (.countersRead t src io) s = .next (b.finishData c.tag [0] b.memoryBytes)) ∧
      (c.selector = 4 → exec (.countersRead t src io) s = .next (b.finishData c.tag [0] b.healthBytes)) ∧
      (c.selector = 6 → c.rev1 = false → exec (.countersRead t src io) s = .next (b.finishData c.tag [0] b.tokenBytes)) ∧
      (∀ j, c.selector = 1 → c.rev1 = false → b.openJob? c.tag.jobId = some j →
        exec (.countersRead t src io) s = .next (b.finishData c.tag [0] j.scale.bytes)) ∧
      (∀ all : List (List Byte), c.selector = 5 → c.rev1 = false → b.stashOk = true → c.stashBad = false → c.tag.resultAddr ≠ 0 →
        all = b.stash.cper.drop (c.op 48 8 - (b.stash.cperNext - b.stash.cper.length)) →
        exec (.countersRead t src io) s = .next (b.finishData c.tag [0] (fitRecords c.tag.resultLen all)
          (decide ((fitRecords c.tag.resultLen all).length < (all.map List.length).sum)))) ∧
      (c.selector = 5 → c.rev1 = false → b.stashOk = true → c.stashBad = true →
        exec (.countersRead t src io) s = .next (b.lostPage.finish c.tag [0x0501] 0))) ∧
    (∀ data : List Byte, c.rev1 = false → c.tag.resultAddr ≠ 0 → 0 < c.tag.resultLen → data ≠ [] →
      b.finishData c.tag [0] data = (b.emit (.hostWrite c.tag.resultAddr.toNat (data.take c.tag.resultLen))).complete
        { tag := c.tag, status := 0, secondary := 0, reportAttached := false
          truncated := decide (c.tag.resultLen < data.length), result := BitVec.ofNat 64 data.length })

/-- A completion of a command from a ring with room is the next entry of the completion ring: its 32 or 16 bytes are written at the tail,
the tail advances and the phase turns where it wraps; while the ring is full its completions are held, in order, and nothing is written;
one whose write faults is dropped and counted, and raises CQ_WRITE_FAULT; during a firmware handover a completion waits (02 R59, R60, R64,
R66; 14 R412). -/
def Obligations.CompletionWritten : Prop :=
  ∀ (s : State) (x : Completion) (r : Nat), x.tag.src = .ring r → r < s.rings.length → x.tag.epoch = s.dev.epoch →
    (s.dev.fwActivating = true → s.complete x = { s with fw := { s.fw with late := s.fw.late ++ [x] } }) ∧
    (s.dev.fwActivating = false →
    (∀ q, q ≠ r → (s.complete x).ring q = s.ring q) ∧ (s.complete x).admin = s.admin ∧
    (s.complete x).stash = s.stash ∧ (s.complete x).sansEnds = s.sansEnds ∧
    ((s.ring r).cqFull = true ∨ (s.ring r).held ≠ [] →
      ((s.complete x).ring r).held = (s.ring r).held ++ [x] ∧ (s.complete x).out = s.out ∧ (s.complete x).intr = s.intr ∧
      (s.complete x).cnt = s.cnt) ∧
    ((s.ring r).cqFull = false → (s.ring r).held = [] → x.tag.cplFault = true →
      s.complete x = State.attention (State.count (s.updRing r (fun (g : Ring) => { g with outstanding := g.outstanding - 1 })) 10 1) r 3) ∧
    ((s.ring r).cqFull = false → (s.ring r).held = [] → x.tag.cplFault = false →
    s.out ++ [.hostWrite ((s.ring r).cqBase.toNat + (s.ring r).cqTail * cplBytes (s.ring r).revision)
      (s.completionBytes (s.ring r).phase x)] <+: (s.complete x).out ∧ (s.complete x).cnt = s.cnt ∧
    ((s.complete x).ring r).cqTail = ((s.ring r).cqTail + 1) % (s.ring r).size ∧
    ((s.complete x).ring r).phase = (if ((s.ring r).cqTail + 1) % (s.ring r).size = 0 then !(s.ring r).phase else (s.ring r).phase) ∧
    (s.complete x).intr.ringCpl = (if x.tag.intr && (s.ring r).intEnable then s.intr.ringCpl ||| BitVec.ofNat 32 (2 ^ r) else s.intr.ringCpl)))

/-- An accepted doorbell copies all 64 bytes of ADMIN_COMMAND into the Hook, and a later write changes the window alone; a doorbell while
busy is ignored and sets overrun; the completion stands in its window and turns the phase, which is 1 after reset; while an admin command
is pending no ring entry is fetched or served. Forms whose own effect completes here: registerWrite, hostInterfaceReset, adminDoorbell (02
R54). -/
def Obligations.AdminMailbox : Prop :=
  ∀ (s a : State) (t : Stitch) (value : Word), s.Reached t a →
    (a.dev.hostReady = true → value.getLsbD 0 = true → a.admin.busy = false → exec (.adminDoorbell t value) s =
      .next { a.wakeModule with admin := { a.admin with latched := some a.admin.command, busy := true, done := false } }) ∧
    (∀ (i : Nat) (v : Dword), i < 16 → exec (.registerWrite t (0x10000 + 4 * i) false v) s = .next
      { a with admin := { a.admin with command := overlayBytes a.admin.command (4 * i) (le 4 (v.setWidth 32 : Word).toNat) } }) ∧
    (a.dev.hostReady = true → value.getLsbD 0 = true → a.admin.busy = true → exec (.adminDoorbell t value) s =
      .next (State.raise { a.wakeModule with admin := { a.admin with overrun := true } } { overrun := true })) ∧
    (∀ x : Completion, x.tag.src = .admin → x.tag.epoch = a.dev.epoch → a.dev.fwActivating = false →
      (a.complete x).admin = { a.admin with busy := false, done := true, phase := !a.admin.phase
                                            completion := a.completionBytes a.admin.phase x } ∧
      (a.complete x).rings = a.rings ∧ (a.complete x).cnt = a.cnt ∧ (a.complete x).stash = a.stash ∧
      (a.complete x).sansEnds = a.sansEnds ∧ (a.complete x).intr.admin = (a.intr.admin || x.tag.intr)) ∧
    State.reset.admin.phase = true ∧ a.unpowered.admin.phase = true ∧
    (∀ kind u, exec (.hostInterfaceReset t kind) s = .next u → u.admin.phase = true) ∧
    (a.admin.latched.isSome = true → (∀ es, exec (.ringFetch t es) s = .next a) ∧ ∀ r, a.headEntry (.ring r) = none)

/-- SET_CONFIG with a well-formed record of a higher sequence whose fields all apply: with a good signature the record is stored in the
slot not in force, the slots change, and the fields apply, the Stash being written; without one the command ends with SIGNATURE_FAIL. Forms
whose own effect completes here: setConfig (02 R72, R75, R76). -/
def Obligations.ConfigTaken : Prop :=
  ∀ (s b : State) (t : Stitch) (src : Src) (io : HostIo) (f : Fetched) (c : Cmd) (r : CfgRecord) (e : Evaluation),
    b = s.popped t src → c = s.given t src io f → (s.advance t).hookTakes src 0x0002 f → c.badLayout = false →
    c.noOperands = true → c.badPayload 32 = false → parseRecord c.data = some r →
    (r.serial = 0 ∨ r.serial = b.dev.serial.toNat) → b.cfg.sequence < r.sequence → e = evaluate b.cfg.fields r.entries →
    e.ok = true → b.stashOk = true →
    exec (.setConfig t src io) s =
      .next (if b.signedOk r.signer r.bytes then (b.applyRecord r e).wear.endSetConfig c (if e.clamped then 0x0001 else 0x0000) r e.rows
             else b.finish c.tag [0x0500] 0)

/-- FW_BLOCK stages its block and marks the staging bank invalid; FW_ACTIVATE of the other bank makes it active and on trial; DARN_LOAD
deletes a pack; each writes the Stash; another bank whose signature fails is SIGNATURE_FAIL, and one that the Stash cannot rebuild
BLOCK_CHECK_FAIL; SET_LATENCY_TOLERANCE keeps the tolerance and wakes what rests too deep. Forms whose own effect completes here:
setLatencyTolerance, fwBlock, fwActivate, darnLoad (12 R353; 13 R382; 14 R396, R410, R411). -/
def Obligations.AdminCommandsTaken : Prop :=
  ∀ (s b : State) (t : Stitch) (src : Src) (io : HostIo) (f : Fetched) (c : Cmd),
    b = s.popped t src → c = s.given t src io f → c.badLayout = false →
    (∀ (x : Staging) (block : List Byte), (s.advance t).hookTakes src 0x0010 f → c.noOperands = true → c.badPayload 64 = false →
      blockHeaderOk c c.data = true → b.stashOk = true → block = (c.data.drop 64).take (field c.data 24 4) →
      crc32c block = field c.data 28 4 → field c.data 6 2 ≠ 1 → b.fw.staging = some x →
      x.tag.toNat = field c.data 8 8 → x.length = field c.data 16 4 →
      exec (.fwBlock t src io) s = .next (State.finish (State.wear { b with
          fw := { b.fw.setBank b.stagingB { b.fw.bank b.stagingB with valid := false } with
            staging := some { x with blocks := (field c.data 20 4, block) :: x.blocks }, otherOverwritten := true }
          stash := { b.stash with bytesWritten := b.stash.bytesWritten + block.length } })
        c.tag [0] (Staging.count { x with blocks := (field c.data 20 4, block) :: x.blocks }))) ∧
    ((s.advance t).hookTakes src 0x0011 f → c.op 40 1 = 2 → c.zero 41 23 = true → b.stashOk = true → b.dev.castOnPhase ≠ 0xFE →
      b.fw.activation = none → b.fw.reload = [] → b.hibernating = false → b.fw.otherOverwritten = false →
      (b.fw.bank b.stagingB).valid = true → b.fw.floor ≤ (b.fw.bank b.stagingB).security →
      ((b.fw.bank b.stagingB).signed = false → exec (.fwActivate t src io) s = .next (b.finish c.tag [0x0500] 0)) ∧
      ((b.fw.bank b.stagingB).signed = true → c.stashBad = true → exec (.fwActivate t src io) s = .next (b.lostPage.finish c.tag [0x0501] 0)) ∧
      ((b.fw.bank b.stagingB).signed = true → c.stashBad = false → exec (.fwActivate t src io) s =
        .next { b.wear with fw := { b.fw with activeB := b.stagingB, trial := true, activation := some (c.tag, 2) } })) ∧
    ((s.advance t).hookTakes src 0x0013 f → c.op 40 1 = 1 → c.zero 41 3 = true → c.zero 48 16 = true → b.stashOk = true →
      b.packInUse (BitVec.ofNat 32 (c.op 44 4)) = false → b.stash.packs.any (fun p => p.id == BitVec.ofNat 32 (c.op 44 4)) = true →
      exec (.darnLoad t src io) s = .next (State.finish (State.wear { b with
          stash := { b.stash with packs := b.stash.packs.filter (fun p => p.id != BitVec.ofNat 32 (c.op 44 4)) } }) c.tag [0] 0)) ∧
    (∀ (u : State), (s.advance t).hookTakes src 0x0004 f → c.op 44 1 < 2 → c.zero 45 19 = true →
      u = { b with pw := { b.pw with tolerance := c.op 40 4, allowHib := c.op 44 1 == 1, tolWait := some c.tag } } →
      exec (.setLatencyTolerance t src io) s =
        .next ((allTargets.filter (fun x => u.pwOf x != 0 && !u.permits (u.pwOf x))).foldl State.wake u).settleTolerance)

/-- JOB_OPEN of a sound descriptor with room for the job: a local job opens with its descriptor's values and the JOB fields of the
configuration; a skein job enters its exchange with the other members. JOB_CLOSE marks the job and ends it when its work has ended. Forms
whose own effect completes here: jobOpen, jobClose (03 R86, R87, R88). -/
def Obligations.JobsOpenAndClose : Prop :=
  ∀ (s b : State) (t : Stitch) (src : Src) (io : HostIo) (f : Fetched) (c : Cmd),
    b = s.popped t src → c = s.given t src io f →
    ((s.advance t).hookTakes src 0x0020 f → b.badJob c = false → b.jobs.length + b.openings.length < 192 →
      ((b.newJob c).skein = false →
        exec (.jobOpen t src io) s = .next (State.finish { b with
            jobs := b.jobs ++ [b.newJob c], cfg := { b.cfg with standbysNow := b.cfg.fields.standbyCount } } c.tag [0] 0)) ∧
      ((b.newJob c).skein = true → exec (.jobOpen t src io) s = .next (b.startOpening c (b.newJob c)))) ∧
    (∀ (j : Job) (d : State), (s.advance t).hookTakes src 0x0021 f → b.openJob? c.tag.jobId = some j → c.badLayout = false →
      (if c.rev1 then c.operand1 != 0 else !c.zero 40 24) = false →
      d = b.updJob j.id (fun k => { k with closing := some c.tag }) →
      exec (.jobClose t src io) s = .next ((if d.cutStops then d.closeUnderCut j else d.closeOpenStep j).settle j.id))

/-- TENSOR_MAP maps a sound descriptor into every view of its job and unmaps a tensor that nothing uses; PATTERN_LOAD keeps a checked image
under the next handle, which is its result, and drops a handle that nothing uses. Forms whose own effect completes here: patternLoad,
tensorMap (03 R89, R94, R96 to R98). -/
def Obligations.TensorsAndPatternsKept : Prop :=
  ∀ (s b : State) (t : Stitch) (src : Src) (io : HostIo) (f : Fetched) (c : Cmd) (j : Job),
    b = s.popped t src → c = s.given t src io f → b.openJob? c.tag.jobId = some j → c.badLayout = false → c.actionReserved = false →
    ((s.advance t).hookTakes src 0x0023 f → c.actionId = (0, 0) → c.badPayload 96 = false → b.badTensor j c.data = false →
      j.tensors.length < 65536 → b.noStack (tensorOf c.data) = false →
      exec (.tensorMap t src io) s = .next ((b.mapTensor j (tensorOf c.data)).finish c.tag [0] 0)) ∧
    (∀ (x : Tensor) (id : Nat), (s.advance t).hookTakes src 0x0023 f → c.actionId = (1, id) →
      j.tensors.find? (·.id == BitVec.ofNat 32 id) = some x → x.managed = false →
      j.tensors.any (fun y => y.managed && y.scaleId == BitVec.ofNat 32 id) = false → b.tensorBusy j x = false →
      exec (.tensorMap t src io) s = .next (State.finish (State.serveDeferred (b.updJob j.id (fun (k : Job) =>
        { k with tensors := k.tensors.filter (fun y => !(x.id == y.id)), scale := k.scale.onUnmap x.id }))) c.tag [0] 0)) ∧
    ((s.advance t).hookTakes src 0x0022 f → c.actionId = (0, 0) → c.badPayload 64 = false → imageFailure j c.data c.payloadLen = none →
      j.patterns.length < 4096 → c.data.length ≤ imageMax →
      exec (.patternLoad t src io) s = .next (State.finish (b.updJob j.id (fun (k : Job) =>
        { k with patterns := k.patterns ++ [⟨k.nextPattern, c.data⟩], nextPattern := k.nextPattern + 1 })) c.tag [0] j.nextPattern)) ∧
    (∀ h : Nat, (s.advance t).hookTakes src 0x0022 f → c.actionId = (1, h) → j.patterns.all (·.handle != h) = false →
      b.courses.any (fun x => x.job == j.id && x.kind == .course && x.live && x.pattern == h) = false →
      exec (.patternLoad t src io) s = .next (State.finish (b.updJob j.id (fun (k : Job) =>
        { k with patterns := k.patterns.filter (·.handle != h) })) c.tag [0] 0))

/-- COURSE_SUBMIT of a sound descriptor enters the course into the queues of its units in acceptance order, makes its emission known and
completes; a SOLVE enters the queues of its structure's engines and completes later; either waits on its ring where the hold is full. Forms
whose own effect completes here: courseSubmit, solve (01 R19, R37; 03 R100, R107; 09 R262). -/
def Obligations.WorkQueued : Prop :=
  ∀ (s b : State) (t : Stitch) (src : Src) (io : HostIo) (f : Fetched) (c : Cmd) (j : Job),
    b = s.popped t src → c = s.given t src io f → b.openJob? c.tag.jobId = some j → c.badLayout = false →
    (∀ (d : Desc) (p : Pattern), (s.advance t).hookTakes src 0x0024 f → d = c.desc → d.wrong = false → c.badCourseEntry = false →
      j.patterns.find? (·.handle == d.pattern) = some p →
      b.badCourse c j p.image d = false → b.courseResource c j d = false →
      (b.holdFull (b.newCourse c j d) = false →
        exec (.courseSubmit t src io) s = .next (b.acceptCourse c (b.newCourse c j d) d.scope)) ∧
      (b.holdFull (b.newCourse c j d) = true → exec (.courseSubmit t src io) s = .next (b.holdCommand c))) ∧
    (∀ x : Structure, (s.advance t).hookTakes src 0x0042 f → j.structures.find? (·.handle == c.op 40 4) = some x →
      j.badSolveCmd c x = false → (x.stepWritten && bitOf (c.op 44 1) 1 && (j.opened.isSome || j.committing.isSome)) = false →
      (b.holdFull (b.newSolve c j x) = false → exec (.solve t src io) s = .next (b.enqueue (b.newSolve c j x))) ∧
      (b.holdFull (b.newSolve c j x) = true → exec (.solve t src io) s = .next (b.holdCommand c)))

/-- STEP_BEGIN opens the next step of its job and starts its attempt, STEP_COMMIT makes it the committing one, and both are decided as soon
as they can be; SNAPSHOT_READ holds its view and copies. Forms whose own effect completes here: stepBegin, stepCommit, snapshotRead (03
R111, R113, R119). -/
def Obligations.StepsAndSnapshots : Prop :=
  ∀ (s b : State) (t : Stitch) (src : Src) (io : HostIo) (f : Fetched) (c : Cmd) (j : Job),
    b = s.popped t src → c = s.given t src io f → c.badLayout = false →
    ((s.advance t).hookTakes src 0x0028 f → b.job? c.tag.jobId = some j → c.op 48 1 = 0 → c.zero 49 3 = true → c.op 52 4 ≠ 0 →
      j.opened = none → j.closing = none → j.committing = none → j.dropUntil = none → c.op 40 8 = j.nextStep →
      b.courses.any (fun d => d.job == c.tag.jobId && d.implicitStep) = false →
      exec (.stepBegin t src io) s = .next (State.settle (State.finish (State.startAttempt (b.updJob c.tag.jobId (fun (k : Job) =>
        { k.openStep (b.newStep c) with beginWait := none })) c.tag.jobId true) c.tag [0] 0) c.tag.jobId)) ∧
    (∀ p : Step, (s.advance t).hookTakes src 0x0029 f → b.job? c.tag.jobId = some j → j.closing = none → j.opened = some p →
      c.zero 48 16 = true → c.op 40 8 = p.number → p.commit = none →
      exec (.stepCommit t src io) s = .next (State.settle (b.updJob c.tag.jobId (fun (k : Job) =>
        if j.committing.isNone then { k with opened := none, committing := some { p with commit := some c.tag } }
        else { k with opened := some { p with commit := some c.tag } })) c.tag.jobId)) ∧
    ((s.advance t).hookTakes src 0x002A f → b.openJob? c.tag.jobId = some j → c.rev1 = false → c.zero 40 24 = true →
      c.badPayload (16 + 32 * field c.data 8 2) = false → field c.data 8 2 ≠ 0 → field c.data 8 2 ≤ 16 → zeroBytes c.data 10 6 = true →
      (List.range (field c.data 8 2)).any (fun i => !zeroBytes c.data (20 + 32 * i) 4) = false → (snapEntries c.data).any j.badEntry = false →
      field c.data 0 8 = counterMax →
      exec (.snapshotRead t src io) s = .next { b with snaps := b.snaps ++
        [{ tag := c.tag, view := some j.latest, entries := snapEntries c.data, free := b.freeRanges j (snapEntries c.data) }] })

/-- BIND_OFF records its cut for a stitch that is a multiple of 2,048 at least 1,000,000 ahead, or for the first such stitch; RESUME
records its stitch while the cut holds; both complete later. Forms whose own effect completes here: bindOff, resume (13 R387, R390). -/
def Obligations.CutsRecorded : Prop :=
  ∀ (s b : State) (t : Stitch) (src : Src) (io : HostIo) (f : Fetched) (c : Cmd),
    b = s.popped t src → c = s.given t src io f → c.badLayout = false → b.badSlot (c.op 40 8) = false →
    (∀ k : Cut, (s.advance t).hookTakes src 0x0030 f → c.op 48 1 = 0 → c.zero 49 15 = true → c.tag.jobId = 0 → b.cut = none →
      k = { phase := .pending, tag := some c.tag, job := 0, skein := false
            stitch := if c.op 40 8 = 0 then (b.stitch + 1000000 + 2047) / 2048 * 2048 else c.op 40 8
            taken := 0, drained := 0, withdrawn := [], aborted := [], discarded := 0, reports := [], resume := none } →
      exec (.bindOff t src io) s = .next { b with cut := some k }) ∧
    (∀ x k : Cut, (s.advance t).hookTakes src 0x0031 f → c.zero 48 16 = true → b.cut = some x → x.phase = .held → x.resume = none →
      k = { x with resume := some (c.tag, if c.op 40 8 = 0 then (b.stitch + 1000000 + 2047) / 2048 * 2048 else c.op 40 8) } →
      exec (.resume t src io) s = .next { b with cut := some k })

/-- STRUCTURE_LOAD keeps a checked structure under the next handle, releases it, or moves it to other engines, and answers its report;
DELTA_UPDATE waits for the operations accepted before it. Forms whose own effect completes here: structureLoad, deltaUpdate (09 R256 to
R258, R262, R263). -/
def Obligations.StructuresKept : Prop :=
  ∀ (s b : State) (t : Stitch) (src : Src) (io : HostIo) (f : Fetched) (c : Cmd) (j : Job),
    b = s.popped t src → c = s.given t src io f → b.openJob? c.tag.jobId = some j → c.badLayout = false →
    ((s.advance t).hookTakes src 0x0040 f → c.op 40 1 = 0 → c.op 44 4 = 0 → c.op 48 1 = 0 → c.zero 41 3 = true → c.zero 49 15 = true →
      c.badPayload 64 = false → b.structFailure j c.data c.payloadLen = none →
      exec (.structureLoad t src io) s = .next (State.reportStructure (b.updJob j.id (fun (k : Job) =>
        { k with structures := k.structures ++ [structOf c.data j.nextStructure], nextStructure := k.nextStructure + 1 })) c
          (structOf c.data j.nextStructure))) ∧
    (∀ x : Structure, (s.advance t).hookTakes src 0x0040 f → c.op 40 1 = 1 → c.op 48 1 = 0 → c.zero 41 3 = true → c.zero 49 15 = true →
      j.structures.find? (·.handle == c.op 44 4) = some x → b.structureBusy j x = false →
      exec (.structureLoad t src io) s = .next (State.finish (State.serveDeferred (b.updJob j.id (fun (k : Job) =>
        { k with structures := k.structures.filter (·.handle != c.op 44 4) }))) c.tag [0] 0)) ∧
    (∀ x : Structure, (s.advance t).hookTakes src 0x0040 f → c.op 40 1 = 2 → c.op 48 1 ≠ 0 → c.zero 41 3 = true → c.zero 49 15 = true →
      j.structures.find? (·.handle == c.op 44 4) = some x → b.structureBusy j x = false → b.engineOut (c.op 48 1) = false →
      exec (.structureLoad t src io) s = .next (State.reportStructure (b.updJob j.id (fun (k : Job) =>
        { k with structures := k.structures.map (fun z => if z.handle = c.op 44 4 then Structure.settled { x with mask := BitVec.ofNat 8 (c.op 48 1) } else z) }))
          c (Structure.settled { x with mask := BitVec.ofNat 8 (c.op 48 1) }))) ∧
    (∀ x : Structure, (s.advance t).hookTakes src 0x0041 f → c.zero 40 24 = true → c.badPayload 16 = false →
      j.structures.find? (·.handle == field c.data 4 4) = some x → badDelta c.data c.payloadLen x = false →
      crc32c (c.data.drop 16) = field c.data 12 4 → (x.stepWritten && (j.opened.isSome || j.committing.isSome)) = false →
      exec (.deltaUpdate t src io) s = .next (b.takeDelta c j x))

/-- CHECKPOINT takes the committed content of its job at its acceptance (the model's reading of log 77) and writes it in its turn, lists
the slots where the Stash can rebuild them, or empties a set; RESTORE begins in its turn. Forms whose own effect completes here:
checkpoint, restore (12 R353, R358, R361, R362). -/
def Obligations.CheckpointsQueued : Prop :=
  ∀ (s b : State) (t : Stitch) (src : Src) (io : HostIo) (f : Fetched) (c : Cmd),
    b = s.popped t src → c = s.given t src io f → c.badLayout = false →
    (∀ (j : Job) (x : CkptRun), (s.advance t).hookTakes src 0x0050 f → (c.rev1 || c.zero 44 20) = true → c.ckptAction = 0 → c.ckptFlags < 2 → c.ckptSet ≠ 0 → c.ckptSet ≤ 4095 →
      b.openJob? c.tag.jobId = some j → b.ckptFault (b.newCkpt j c.ckptSet c.ckptFlags) = none →
      x = { tag := c.tag, restore := false, set := c.ckptSet, slot := 0, job := j.id, started := false
            image := some (b.newCkpt j c.ckptSet c.ckptFlags), imageOk := true
            poisonHeld := b.sectionPoisoned (b.newCkpt j c.ckptSet c.ckptFlags) 2
            poisonFree := b.sectionPoisoned (b.newCkpt j c.ckptSet c.ckptFlags) 3
            poisonTables := b.tablePoison (b.newCkpt j c.ckptSet c.ckptFlags) } →
      exec (.checkpoint t src io) s = .next (State.nextRun { b with stash := { b.stash with runs := b.stash.runs ++ [x] } })) ∧
    ((s.advance t).hookTakes src 0x0050 f → (c.rev1 || c.zero 44 20) = true → c.ckptAction = 1 → c.ckptSet = 0 → b.stashOk = true →
      exec (.checkpoint t src io) s =
        .next (if c.stashBad then b.lostPage.finish c.tag [0x0501] 0 else b.finishData c.tag [0] b.ckptList)) ∧
    (∀ j : Job, (s.advance t).hookTakes src 0x0050 f → (c.rev1 || c.zero 44 20) = true → c.ckptAction = 2 → c.ckptSet ≠ 0 → c.ckptSet ≤ 4095 → b.stashOk = true →
      b.openJob? c.tag.jobId = some j → b.stash.runs.any (·.set == c.ckptSet) = false →
      exec (.checkpoint t src io) s = .next (State.finish
        (State.wear { b with stash := { b.stash with ckpts := b.stash.ckpts.filter (·.set != c.ckptSet) } }) c.tag [0] 0)) ∧
    (∀ (j : Job) (ok : Bool) (x : CkptRun), (s.advance t).hookTakes src 0x0051 f →
      (if c.rev1 then decide (c.restoreSet ≤ 4095) else c.zero 43 21) = true → c.restoreSlot ≤ 1 → b.openJob? c.tag.jobId = some j →
      b.restoreFault j c.restoreSet c.restoreSlot = none →
      x = { tag := c.tag, restore := true, set := c.restoreSet, slot := c.restoreSlot, job := j.id, started := false, image := none
            imageOk := ok, poisonHeld := false, poisonFree := false, poisonTables := [] } →
      exec (.restore t src io ok) s = .next (State.nextRun { b with stash := { b.stash with runs := b.stash.runs ++ [x] } }))

/-- TRACE_CONTROL starts a ring with empty counts in the header, stops one whose records remain, and copies a header; SELF_TEST of a
revision-1 ring begins on the panels that its operand names; an opcode without a row where it was sent ends with BAD_OPCODE, or with
WRONG_REVISION where it names a command that revision 1 lacks (the model's reading of log 131). Forms whose own effect completes here:
traceControl, selfTest, unknownOpcode (01 R37; 02 R68; 13 R380; 15 R425, R433). -/
def Obligations.TraceTestAndUnknown : Prop :=
  ∀ (s b : State) (t : Stitch) (src : Src) (io : HostIo) (f : Fetched) (c : Cmd),
    b = s.popped t src → c = s.given t src io f →
    ((s.advance t).hookTakes src 0x0060 f → c.badLayout = false → c.rev1 = false → c.zero 41 3 = true → c.op 40 1 = 0 → c.tag.jobId = 0 →
      classMaskBad (c.op 44 4) = false → c.zero 60 4 = true → 1 ≤ c.op 56 4 → c.op 56 4 ≤ 4096 → b.trace.moduleRing = none →
      b.ringClash none (c.op 48 8, c.op 56 4 * 2 ^ 20) = false →
      exec (.traceControl t src io) s =
        .next ((b.placeRing none (freshRing (c.op 48 8) (c.op 56 4 * 2 ^ 20) (c.op 44 4) false)).finish c.tag [0] 0)) ∧
    (∀ r : TraceRing, (s.advance t).hookTakes src 0x0060 f → c.badLayout = false → c.rev1 = false → c.zero 41 3 = true → c.zero 60 4 = true → c.op 40 1 = 1 →
      c.tag.jobId = 0 → b.trace.moduleRing = some r →
      exec (.traceControl t src io) s = .next ((b.placeRing none { r with running := false }).finish c.tag [0] 0)) ∧
    (∀ r : TraceRing, (s.advance t).hookTakes src 0x0060 f → c.badLayout = false → c.rev1 = false → c.zero 41 3 = true → c.zero 60 4 = true → c.op 40 1 = 2 →
      c.tag.jobId = 0 → b.trace.moduleRing = some r →
      exec (.traceControl t src io) s = .next (b.finishData c.tag [0] (Memory.readBytes b.mem.cells r.base 64))) ∧
    ((s.advance t).hookTakes src 0x0062 f → c.badLayout = false → c.rev1 = true → c.operand1 ≠ 0 → c.operand1 < 4096 →
      exec (.selfTest t src io) s = .next (b.beginTest
        { tag := c.tag, accepted := b.stitch, testSet := 0, stopFirst := false, repeats := 1, packs := [], maxMs := 0, targets := [] }
        (b.testUnits 0 0 c.operand1))) ∧
    ((s.advance t).up = true → (s.advance t).headEntry src = some f →
      opcodeRow src ((s.advance t).srcRev src) (entryOpcode ((s.advance t).srcRev src) f.entry) = none → (s.advance t).dev.castOnPhase ≠ 0xFE →
      exec (.unknownOpcode t src io) s =
        .next (b.finish c.tag [if lacksRevision src ((s.advance t).srcRev src) (entryOpcode ((s.advance t).srcRev src) f.entry) then 0x0103 else 0x0100] 0))


/-! ### Rings and interrupts -/

/-- A doorbell in range is the new tail or completion head and wakes the module; one out of range raises its attention cause and halts the
ring, and cause 4 sets attention_cause without halting (log 94: a later cause replaces an earlier one); while host_ready reads 0 both are
ignored. Forms whose own effect completes here: ringDoorbell, ringCqDoorbell (02 R43, R51, R57, R59 to R61; 14 R395). -/
def Obligations.RingDoorbells : Prop :=
  ∀ (s a : State) (t : Stitch) (r : Nat) (value : Word) (n : Nat), s.Reached t a → n = value.toNat % 65536 →
    (a.dev.hostReady = false → exec (.ringDoorbell t r value) s = .next a ∧ exec (.ringCqDoorbell t r value) s = .next a) ∧
    (a.dev.hostReady = true → n < (a.ring r).size →
      exec (.ringDoorbell t r value) s = .next (a.wakeModule.updRing r (fun (g : Ring) => { g with sqTail := n }))) ∧
    (a.dev.hostReady = true → (a.ring r).size ≤ n → exec (.ringDoorbell t r value) s = .next (a.wakeModule.attention r 1)) ∧
    (a.dev.hostReady = true → n < (a.ring r).size →
      (n + (a.ring r).size - (a.ring r).cqHead) % (a.ring r).size ≤ ((a.ring r).cqTail + (a.ring r).size - (a.ring r).cqHead) % (a.ring r).size →
      exec (.ringCqDoorbell t r value) s = .next (a.wakeModule.updRing r (fun (g : Ring) => { g with cqHead := n }))) ∧
    (a.dev.hostReady = true → (a.ring r).size ≤ n → exec (.ringCqDoorbell t r value) s = .next (a.wakeModule.attention r 5)) ∧
    (∀ (b : State) (cause : Nat), r < b.rings.length →
      ((b.attention r cause).ring r).halted = ((b.ring r).halted || cause != 4) ∧ ((b.attention r cause).ring r).attn = cause ∧
      (b.attention r cause).intr.ringAttn = b.intr.ringAttn ||| BitVec.ofNat 32 (2 ^ r) ∧ (∀ q, q ≠ r → (b.attention r cause).ring q = b.ring q) ∧
      b.out <+: (b.attention r cause).out ∧ (b.attention r cause).sansEnds = b.sansEnds)

/-- Enabling starts a ring anew, disabling begins the drain, and enabled falls when the ring has drained; the ring's registers are written
only while it is disabled, bases on 4 KiB, sizes of 2^4 to 2^12, revision 1 where the configuration allows it. Forms whose own effect
completes here: ringEnable, ringDisable, ringDrainDone, ringConfigWrite (02 R55, R56, R61). -/
def Obligations.RingsSetUp : Prop :=
  ∀ (s a : State) (t : Stitch) (r : Nat) (ie : Bool) (value : Dword), s.Reached t a →
    (a.dev.hostReady = true → a.dev.castOnPhase ≠ 0xFE → (a.ring r).enable = false → (a.ring r).enabled = false →
      ∃ u, exec (.ringEnable t r ie) s = .next u ∧ u = a.updRing r (fun g => { Ring.reset with
        sqBase := g.sqBase, cqBase := g.cqBase, sizeLog2 := g.sizeLog2, revision := g.revision, priority := g.priority
        intEnable := ie, enable := true, enabled := true, phase := true })) ∧
    exec (.ringDisable t r ie) s = .next (a.updRing r (fun (g : Ring) => { g with enable := false, intEnable := ie })) ∧
    ((a.ring r).enable = false → (a.ring r).drained = true →
      exec (.ringDrainDone t r) s = .next (a.updRing r (fun (g : Ring) => { g with enabled := false }))) ∧
    ((a.ring r).drained = false → exec (.ringDrainDone t r) s = .next a) ∧
    (∀ reg, (a.ring r).enabled = true → exec (.ringConfigWrite t r reg value) s = .next (a.attention r 4)) ∧
    ((a.ring r).enabled = false →
      exec (.ringConfigWrite t r .sqBase value) s = .next (a.updRing r (fun (g : Ring) => { g with sqBase := value &&& ~~~0xFFF })) ∧
      exec (.ringConfigWrite t r .cqBase value) s = .next (a.updRing r (fun (g : Ring) => { g with cqBase := value &&& ~~~0xFFF })) ∧
      exec (.ringConfigWrite t r .size value) s = .next (if 4 ≤ value.toNat % 16 ∧ value.toNat % 16 ≤ 12 then
        a.updRing r (fun (g : Ring) => { g with sizeLog2 := value.toNat % 16 }) else a) ∧
      exec (.ringConfigWrite t r .revision value) s = .next (if value.toNat % 4 = 2 ∨ (value.toNat % 4 = 1 ∧ a.cfg.fields.rev1Allowed = 1) then
        a.updRing r (fun (g : Ring) => { g with revision := value.toNat % 4 }) else a))

/-- The Hook fetches from the ring whose turn it is: the entries read are taken in order, each with its sq_head, at most its weight; an
entry that waits for hold entries is examined again; a held course enters its queue when an entry is free; a held completion is written
when the completion ring has room, during a firmware handover after it. Forms whose own effect completes here: ringFetch, holdEntryAccept,
heldCourseEnqueue, heldCompletionWrite (01 R19; 02 R59, R60, R62; 14 R412). -/
def Obligations.RingWork : Prop :=
  ∀ (s a : State) (t : Stitch) (r : Nat), s.Reached t a →
    (∀ es, a.admin.latched = none → a.dev.fwActivating = false → a.nextRing = some r →
      exec (.ringFetch t (some es)) s = .next (State.updRing { a with dev := { a.dev with rrRing := (r + 1) % 32 } } r
        (fun g => g.fetch (es.take (min (min (2 ^ (g.priority % 4)) g.available) 16)))) ∧
      exec (.ringFetch t none) s = .next (State.attention { a with dev := { a.dev with rrRing := (r + 1) % 32 } } r 2)) ∧
    (∀ (w : WaitingCmd) (c : Cmd) (b : State), a.waitingRings.head? = some r → a.dev.fwActivating = false → (a.ring r).waiting = some w →
      c = a.cmd (.ring r) { payload := some w.payload, cplFault := w.cplFault } { entry := w.entry, sqHead := w.sqHead } →
      b = a.updRing r (fun (g : Ring) => { g with waiting := none }) →
      (opcodeRow (.ring r) c.tag.rev c.tag.opcode = some 0x0024 → a.jobFault c.tag 0x0024 = false →
        exec (.holdEntryAccept t r) s = .next (b.courseSubmit c)) ∧
      (opcodeRow (.ring r) c.tag.rev c.tag.opcode = some 0x0042 → a.jobFault c.tag 0x0042 = false →
        exec (.holdEntryAccept t r) s = .next (b.solveCmd c))) ∧
    (∀ (q : LUnit) (id : Nat) (more : List Nat), a.dev.fwActivating = false → a.heldFor q = id :: more → (a.queue q).length < 64 →
      exec (.heldCourseEnqueue t q) s = .next { (a.setQueue q (a.queue q ++ [id])) with hold := a.hold.erase (q, id) }) ∧
    (∀ (x : Completion) (xs : List Completion) (fault : Bool), (a.ring r).held = x :: xs → (a.ring r).cqFull = false →
      (a.dev.fwActivating = true → exec (.heldCompletionWrite t r fault) s = .next a) ∧
      (a.dev.fwActivating = false → exec (.heldCompletionWrite t r fault) s =
        .next (State.writeRingCpl (a.updRing r (fun (g : Ring) => { g with held := xs })) r fault x)))

/-- Cause bits written 1 are cleared, but for those that the module set in the same cycle (the model's choice of the cycle: log 93), and
vectors still high are sent again; a pending message whose causes have all been serviced is dropped (the model's choice: log 90); masks and
vectors take their values and what this releases is sent; a message is driven unless the function or its entry is masked, else its pending
bit is set. Forms whose own effect completes here: intrCauseClear, intrMaskWrite (00 R12; 02 R51, R52). -/
def Obligations.Interrupts : Prop :=
  ∀ (s a : State) (t : Stitch) (value : Word), s.Reached t a →
    (∀ reg b, b = { clearCause reg value a with intr := (clearCause reg value a).intr.serviced } →
      exec (.intrCauseClear t reg value) s = .next (((List.range 66).filter (fun v =>
        ((causesOf reg).map b.intr.vectorOf).contains v && b.intr.high.contains v)).foldl State.sendVector b)) ∧
    (∀ (i : Intr) (v : Nat), v < i.pba.length → i.serviced.pba.getD v false = (i.pba.getD v false && i.high.contains v)) ∧
    (∀ keep : Causes, keep = (if a.intr.freshAt = a.stitch then a.intr.fresh else {}) →
      (clearCause .ringCpl value a).intr.ringCpl = a.intr.ringCpl &&& (~~~value ||| keep.ringCpl) ∧
      (clearCause .ringAttn value a).intr.ringAttn = a.intr.ringAttn &&& (~~~value ||| keep.ringAttn) ∧
      (clearCause .faultSummary value a).intr.fault = a.intr.fault &&& (~~~(value.setWidth 8) ||| keep.fault) ∧
      (clearCause .timingSummary value a).intr.timing = a.intr.timing &&& (~~~(value.setWidth 5) ||| keep.timing) ∧
      (clearCause .main value a).intr.admin = (a.intr.admin && (!value.getLsbD 0 || keep.admin)) ∧
      (clearCause .adminStatus value a).admin.overrun = (a.admin.overrun && (!value.getLsbD 2 || keep.overrun))) ∧
    exec (.intrMaskWrite t .main value) s = .next (a.setIntr { a.intr with maskMain := value.setWidth 3 }) ∧
    exec (.intrMaskWrite t .ringCpl value) s = .next (a.setIntr { a.intr with maskRingCpl := value }) ∧
    exec (.intrMaskWrite t .ringAttn value) s = .next (a.setIntr { a.intr with maskRingAttn := value }) ∧
    (∀ k, exec (.intrMaskWrite t (.vectorMap k) value) s = .next (if value.toNat % 128 ≤ 65 then
      a.setIntr { a.intr with vectorMap := a.intr.vectorMap.set k (value.setWidth 7) } else a)) ∧
    (∀ v, exec (.intrMaskWrite t (.msixMask v) value) s = .next (State.releasePending
      { a with intr := { a.intr with msix := a.intr.msix.modify v (fun e => { e with masked := value.getLsbD 0 }) } } v)) ∧
    exec (.intrMaskWrite t .msixFunction value) s =
      .next ((List.range 66).foldl State.releasePending { a with intr := { a.intr with fnMask := value.getLsbD 0 } }) ∧
    (∀ (v : Nat) (e : MsixEntry), a.intr.msix[v]? = some e →
      (a.intr.fnMask = false → e.masked = false → a.sendVector v = a.emit (.msix v e.addr e.data)) ∧
      (a.intr.fnMask = true ∨ e.masked = true → a.sendVector v = { a with intr := { a.intr with pba := a.intr.pba.set v true } }))

/-- The read-to-clear registers answer their count and clear it, but for what was counted in the same cycle (the model's choice of the
cycle: log 93); a 32-bit read of TIME_STITCH latches its upper half; TIME_GAUGE never reads below its last value; a snapshot copies the
counters, 0 for a port that no link has; the observation port's registers are read. Forms whose own effect completes here: timeStitchRead,
timeGaugeRead, timeMissedLaunchesRead, powerThrottleStitchesRead, cntSnapshot, obsRegisterAccess (00 R12; 04 R124, R140; 14 R404; 15 R419,
R437). -/
def Obligations.RegistersRead : Prop :=
  ∀ (s a : State) (t : Stitch), s.Reached t a →
    exec (.timeStitchRead t true) s = .next (a.emit (.reply (le 8 a.stitch))) ∧
    exec (.timeStitchRead t false) s = .next (State.emit { a with time := { a.time with stitchHi := BitVec.ofNat 32 (a.stitch / 2 ^ 32) } }
      (.reply (le 4 a.stitch))) ∧
    (∀ n, n = (if a.time.missedAt = a.stitch then a.time.missedFresh else 0) →
      exec (.timeMissedLaunchesRead t) s = .next (State.emit { a with time := { a.time with missed := n } } (.reply (le 4 (a.time.missed - n))))) ∧
    (∀ n, n = (if a.pw.throttleAt = a.stitch then min 1 a.pw.throttle else 0) →
      exec (.powerThrottleStitchesRead t) s = .next (State.emit { a with pw := { a.pw with throttle := n } }
        (.reply (le 8 (a.pw.throttle - n))))) ∧
    (∀ (r : GaugeRec) (v : Nat), a.gauge.records.head? = some r → v = max a.gauge.readout (gaugeAtStitch r a.stitch).toNat →
      exec (.timeGaugeRead t) s = .next (State.emit
        { a with gauge := { a.gauge with readout := v }, time := { a.time with gaugeAt := a.stitch } } (.reply (le 8 v)))) ∧
    (a.gauge.records = [] → exec (.timeGaugeRead t) s = .next (State.emit
      { a with gauge := { a.gauge with readout := 0 }, time := { a.time with gaugeAt := a.stitch } } (.reply (le 8 0)))) ∧
    (∀ w : Word, w.getLsbD 0 = true → exec (.cntSnapshot t w) s = .next { a with cnt := { a.cnt with
      snapUnits := a.cnt.units, snapEvents := a.cnt.events, snapStitch := a.stitch
      snapPorts := a.cnt.ports.zipIdx.map (fun p => if a.links.any (·.port == some p.2) then p.1 else 0)
      snapJob := (a.jobBlock a.cnt.jobSelect).1, jobStatus := (a.jobBlock a.cnt.jobSelect).2 } }) ∧
    (∀ w : Word, w.getLsbD 0 = false → exec (.cntSnapshot t w) s = .next a) ∧
    (∀ off, exec (.obsRegisterAccess t off none) s = .next (a.emit (.reply (a.obsRead off))))

/-- Registers take what is written to them: those without a row of their own the word written, the window base its bits above the window's
size, the priority its two bits, and read-only ones nothing; a wide write is two words; POWER_HOST_CAP takes its bounds, the gauge
registers only while no job is open, a new gauge state traced, the observation port only with its permission. Forms whose own effect
completes here: registerWrite, timeGaugeControlWrite, timeGaugeDelayWrite, powerHostCapWrite, obsRegisterAccess, resizableBarWrite (02 R46,
R47, R50, R55; 04 R124, R125; 14 R404, R415; 15 R419, R429, R437). -/
def Obligations.RegistersWritten : Prop :=
  ∀ (s a : State) (t : Stitch) (w : Word) (v : Dword), s.Reached t a → w = v.setWidth 32 →
    exec (.registerWrite t 0x00C false v) s = .next { a with dev := { a.dev with scratch := w } } ∧
    (∀ off base, (off = 0x040 ∧ base = a.dev.bar2Base / 2 ^ 32 * 2 ^ 32 + w.toNat) ∨
        (off = 0x044 ∧ base = a.dev.bar2Base % 2 ^ 32 + w.toNat * 2 ^ 32) →
      exec (.registerWrite t off false v) s = .next
        { a with dev := { a.dev with bar2Base := base % 2 ^ 40 / 2 ^ a.dev.bar2SizeLog2 * 2 ^ a.dev.bar2SizeLog2 } }) ∧
    (∀ i, i < 16 → exec (.registerWrite t (0x10000 + 4 * i) false v) s =
      .next { a with admin := { a.admin with command := overlayBytes a.admin.command (4 * i) (le 4 w.toNat) } }) ∧
    (∀ r, r < 32 → exec (.registerWrite t (0x20030 + 0x1000 * r) false v) s =
      .next (a.updRing r (fun (g : Ring) => { g with priority := v.toNat % 4 }))) ∧
    exec (.registerWrite t 0x50070 false v) s = .next { a with time := { a.time with
      outputControl := w.setWidth 2, lastPulse := if a.time.outputControl.getLsbD 0 then a.time.lastPulse else a.stitch } } ∧
    exec (.registerWrite t 0x70010 false v) s = .next { a with cnt := { a.cnt with jobSelect := w } } ∧
    (∀ (k : Nat) (f : MsixEntry → MsixEntry) (i : Nat), k < 66 →
        (i = 0 ∧ f = fun e => { e with addr := e.addr >>> 32 <<< 32 ||| w.setWidth 64 }) ∨
        (i = 1 ∧ f = fun e => { e with addr := w.setWidth 64 <<< 32 ||| e.addr &&& 0xFFFFFFFF }) ∨ (i = 2 ∧ f = fun e => { e with data := w }) →
      exec (.registerWrite t (0x100000 + 16 * k + 4 * i) false v) s =
        .next { a with intr := { a.intr with msix := a.intr.msix.modify k f } }) ∧
    (∀ off, off < 0x00C ∨ (0x00C < off ∧ off < 0x040) ∨ (0x044 < off ∧ off < 0x10000) ∨ (0x10040 ≤ off ∧ off < 0x20000) ∨
        (0x40000 ≤ off ∧ off < 0x50070) → exec (.registerWrite t off false v) s = .next a) ∧
    (∀ off, exec (.registerWrite t off true v) s = .next ((a.registerWrite off false v).registerWrite (off + 4) false (v >>> 32))) ∧
    (∀ n, 36 ≤ n → n ≤ 40 → exec (.resizableBarWrite t n) s = .next
      { a with dev := { a.dev with bar2SizeLog2 := n, bar2Base := a.dev.bar2Base % 2 ^ 40 / 2 ^ n * 2 ^ n } }) ∧
    (∀ n, n < 36 ∨ 40 < n → exec (.resizableBarWrite t n) s = .next a) ∧
    exec (.powerHostCapWrite t w) s = .next { a with pw := { a.pw with hostCap := min 1650 (max 600 (w.toNat % 65536)) } } ∧
    (a.jobs = [] → exec (.timeGaugeDelayWrite t w) s = .next { a with gauge := { a.gauge with delay := w } }) ∧
    (a.jobs ≠ [] → exec (.timeGaugeDelayWrite t w) s = .next (a.count 2 1) ∧ exec (.timeGaugeControlWrite t w) s = .next (a.count 2 1)) ∧
    (∀ g : Gauge, a.jobs = [] → a.gaugeRefused w = false → g = { Gauge.reset with
        control := w &&& 0xFFFF003F, state := a.gauge.state, active := gaugeSource w == 1
        delay := a.gauge.delay, sequence := a.gauge.sequence, cycDet := a.gauge.cycDet, bounce := a.gauge.bounce } →
      exec (.timeGaugeControlWrite t w) s = .next (State.setGaugeState { a with gauge := g } (if gaugeMode w = 0 then 0 else 1))) ∧
    (∀ n, a.setGaugeState n = if a.gauge.state = n then a
      else State.traceTime { a with gauge := { a.gauge with state := n } } a.gauge.state n 6) ∧
    (a.permitted 0 = false → exec (.obsRegisterAccess t 0x000 (some v)) s = .next (a.count 22 1)) ∧
    (a.permitted 0 = true → exec (.obsRegisterAccess t 0x008 (some v)) s = .next { a with dbg := { a.dbg with obsSelect := v.setWidth 12 } })

/-! ### The window and the host interface -/

/-- A BAR2 write stores its bytes and no other, and changes no view, job or count; a write that lies in a barred or a dropped range stores
nothing and is counted. Forms whose own effect completes here: bar2Write (02 R47; 03 R85, R109, R110). -/
def Obligations.WindowWritten : Prop :=
  ∀ (s a : State) (t : Stitch) (off : Nat) (data : List Byte) (x0 : Nat), s.Reached t a → a.MemOk → a.pw.module = 0 →
    x0 = a.dev.bar2Base + off → a.bar2Holds x0 data.length = false → a.ringsAt x0 data.length = [] → data ≠ [] →
    ((∀ i, i < data.length → a.barred (x0 + i) = false ∧ a.writeDropped (x0 + i) = false) → a.mem.poison = [] →
      ∃ u, exec (.bar2Write t off data) s = .next u ∧
        (∀ x, Memory.read u.mem.cells x = if x0 ≤ x ∧ x < x0 + data.length then data.getD (x - x0) 0 else Memory.read a.mem.cells x) ∧
        Memory.wf u.mem.cells = true ∧ u = { a with mem := { a.mem with cells := u.mem.cells, hostOld := u.mem.hostOld } }) ∧
    ((∀ i, i < data.length → a.barred (x0 + i) = true) → exec (.bar2Write t off data) s = .next (a.count 0 1)) ∧
    ((∀ i, i < data.length → a.barred (x0 + i) = false ∧ a.writeDropped (x0 + i) = true) →
      exec (.bar2Write t off data) s = .next (a.count 1 1))

/-- A BAR2 read answers the bytes of the host's view, all ones in a barred range, a poisoned completion in a poisoned range, all ones at
once in Hibernate, which it ends. From Standby and to a stack in self-refresh it waits; after 1 ms for such a stack it is aborted with an
error record, and no sooner. Forms whose own effect completes here: bar2Read, bar2ThermalAbort (02 R47; 03 R85, R109; 12 R342, R348; 14
R395). -/
def Obligations.WindowRead : Prop :=
  ∀ (s a : State) (t : Stitch) (off len : Nat) (x0 : Nat), s.Reached t a → x0 = a.dev.bar2Base + off → 0 < len →
    (a.pw.module = 0 → a.bar2Holds x0 len = false →
      ((∀ i, i < len → a.barred (x0 + i) = false ∧ a.poisonedAt (x0 + i) = false) →
        exec (.bar2Read t off len) s = .next (a.emit (.reply ((List.range len).map (fun i => a.hostView.read (x0 + i)))))) ∧
      ((∀ i, i < len → a.barred (x0 + i) = true) →
        exec (.bar2Read t off len) s = .next ((a.count 0 1).emit (.reply (List.replicate len 0xFF)))) ∧
      ((∀ i, i < len → a.barred (x0 + i) = false ∧ a.poisonedAt (x0 + i) = true) →
        ∃ n, 0 < n ∧ exec (.bar2Read t off len) s = .next ((a.count 9 n).emit (.poisonedReply (List.replicate len 0xFF))))) ∧
    (a.pw.module = 4 → exec (.bar2Read t off len) s = .next (((a.emit (.reply (List.replicate len 0xFF))).count 21 1).wakeModule)) ∧
    (a.pw.module ≠ 4 → a.pw.module = 3 ∨ a.coldStack x0 len = true → exec (.bar2Read t off len) s =
      .next { a.wakeModule with bar2Wait := a.bar2Wait ++ [{ since := a.stitch, addr := x0, len := len, data := none }] }) ∧
    (∀ (k : Nat) (w : Bar2Wait) (before after : List Bar2Wait), a.bar2Wait = before ++ w :: after → (∀ v ∈ before, v.addr ≠ x0) →
      w.addr = x0 → a.coldStack x0 w.len = true → w.since + 1000000 ≤ a.stitch → k = a.homeStack (pageOf x0) →
      exec (.bar2ThermalAbort t off) s = .next ((({ a with bar2Wait := before ++ after }.emit .abortReply).count 21 1).cper
        { cls := 13, sev := sevRecoverable, status := 0x0600, unit := 188 + k, detail := [BitVec.ofNat 8 k, 5] })) ∧
    ((∀ w ∈ a.bar2Wait, w.addr = x0 → a.stitch < w.since + 1000000) → exec (.bar2ThermalAbort t off) s = .next a)

/-- A host interface reset drops the mailbox, the rings, the interrupts, the window's base and the accesses that wait, clears host_ready
and changes nothing else; host_ready rises again when the Hook has brought the interface up; a resize is taken; a link trains at what both
partners allow; during cast-on a configuration request is answered with retry; a PTM response is stamped. Forms whose own effect completes
here: hostInterfaceReset, hostInterfaceReady, pcieLinkTrain, configRequestRetry, ptmResponseReceived, resizableBarWrite (02 R40, R43, R44,
R47, R78; 04 R124). -/
def Obligations.HostInterface : Prop :=
  ∀ (s a : State) (t : Stitch), s.Reached t a →
    (∀ kind, exec (.hostInterfaceReset t kind) s = .next { a with
      admin := Admin.reset, rings := List.replicate 32 Ring.reset, intr := Intr.reset, bar2Wait := []
      dev := { a.dev with bar2Base := 0, hostReady := false, epoch := a.dev.epoch + 1, bar2SizeLog2 := a.cfg.fields.bar2SizeLog2 }
      cfg := { a.cfg with resetSpeed := a.cfg.fields.pcieMaxSpeed, resetBar2 := a.cfg.fields.bar2SizeLog2 } }) ∧
    (a.dev.castOnComplete = true → exec (.hostInterfaceReady t) s = .next { a with dev := { a.dev with hostReady := true } }) ∧
    (∀ speed width lanes g w : Nat, 4 ≤ lanes → g = min speed a.cfg.resetSpeed → 3 ≤ g → g ≤ 6 → w = min width lanes → 4 ≤ w →
      exec (.pcieLinkTrain t speed width lanes []) s = .next { a with pcie :=
        { speed := g, width := if 16 ≤ w then 16 else if 8 ≤ w then 8 else 4, exposed := true, widthFault := false } }) ∧
    (∀ speed width lanes eqFail, lanes < 4 → exec (.pcieLinkTrain t speed width lanes eqFail) s =
      .next { a with pcie := { speed := 0, width := 0, exposed := false, widthFault := true } }) ∧
    (∀ n, 36 ≤ n → n ≤ 40 → exec (.resizableBarWrite t n) s = .next
      { a with dev := { a.dev with bar2SizeLog2 := n, bar2Base := a.dev.bar2Base % 2 ^ 40 / 2 ^ n * 2 ^ n } }) ∧
    (a.castingOn = true → a.dev.castOnPhase < 3 → exec (.configRequestRetry t) s = .next (a.emit .retryStatus)) ∧
    (∀ master, exec (.ptmResponseReceived t master) s = .next { a with time := { a.time with ptmStitch := a.stitch, ptmMaster := master } })

/-! ### Power and cast-on -/

/-- The input voltage, held for 10 ms with the presence pin mated, turns the stage on unless the module is lost, and cast-on begins in
phase 0x00; while no command waits each tick ends one phase (the model's choice of their length: log 49), and phase 0x07 ends cast-on:
complete, ready, the fault latch reported and cleared. In phase 0x01 the channels and images of the Stash are read; in phase 0x02 a usable
bank runs and the stitch counter is released; without one the module stands in recovery, in phase 0xFE, with host_ready. In phase 0x03 the
link trains no faster than PCIE_MAX_SPEED; in phase 0x04 memory is zero. Form whose own effect completes here: powerGood (02 R40; 12 R341;
13 R392; 14 R405 to R407; 16 R442, R443). -/
def Obligations.CastOn : Prop :=
  ∀ f : CastOnFindings,
    (∀ (s a : State) (t : Stitch), a = s.advance t → (f.presence = false ∨ f.vin < 4300 ∨ f.vinHeld < 10000000 ∨ 6200 < f.vin ∨
        (a.stage.overvolt = true ∧ 6100 ≤ f.vin) ∨ a.stage.lost = true) → exec (.powerGood t f) s = .next a) ∧
    (∀ (s a b : State) (t : Stitch), a = s.advance t → a.stage.good = false → a.stage.lost = false → f.presence = true → 4300 ≤ f.vin →
      10000000 ≤ f.vinHeld → f.vin ≤ 6200 → (a.stage.overvolt = true → f.vin < 6100) → b = a.unpowered →
      exec (.powerGood t f) s = .next { b with
        stage := { good := true, overvolt := false, lost := false, latch := b.stage.latch }
        dev := { b.dev with serial := f.serial, stepping := f.stepping, castOnPhase := 0, findings := some f }
        pw := { b.pw with vin := f.vin, tempW := f.dieTempWest.toNat, tempE := f.dieTempEast.toNat }
        mgmt := { b.mgmt with strap := f.smbusStrap, commonClock := f.refclk } }) ∧
    (∀ x y : State, x.pending = [] → y = x.advance (x.stitch + 1) → y.up = true → y.dev.findings = some f →
      (y.dev.castOnPhase = 0 → step x = .next { y with dev := { y.dev with castOnPhase := 1 } }) ∧
      (y.dev.castOnPhase = 1 → ∃ z, step x = .next z ∧ z.dev.castOnPhase = 2 ∧ z.fw.bankA.signed = f.imageAOk ∧
        z.fw.bankB.signed = f.imageBOk ∧ (∀ c, c < 16 → z.stash.channels.getLsbD c = f.stashChannels.getLsbD c) ∧
        (y.stash.channels ≠ f.stashChannels → z.intr.fault.getLsbD 5 = true)) ∧
      (∀ bank : Option Bool, y.dev.castOnPhase = 2 → bank = (y.fw.afterTrial y.stage.latch).choose →
        (bank = none ∨ y.stashOk = false →
          ∃ z, step x = .next z ∧ z.dev.castOnPhase = 0xFE ∧ z.dev.hostReady = true ∧ z.counting = y.counting) ∧
        (∀ b, bank = some b → y.stashOk = true →
          ∃ z, step x = .next z ∧ z.dev.castOnPhase = 3 ∧ z.counting = true ∧ z.fw.runningB = b ∧
            z.fw.running = ((y.fw.afterTrial y.stage.latch).bank b).version)) ∧
      (y.dev.castOnPhase = 2 → y.fw.bankA.signed = false → y.fw.bankB.signed = false → ∃ z, step x = .next z ∧ z.dev.castOnPhase = 0xFE) ∧
      (y.dev.castOnPhase = 3 → ∃ z, step x = .next z ∧ z.dev.castOnPhase = 4 ∧
        (z.pcie.exposed = true → 3 ≤ z.pcie.speed ∧ z.pcie.speed ≤ z.cfg.fields.pcieMaxSpeed ∧ z.pcie.speed ≤ f.pcieSpeed ∧
          (z.pcie.width = 4 ∨ z.pcie.width = 8 ∨ z.pcie.width = 16) ∧ z.pcie.width ≤ f.pcieWidth)) ∧
      (y.dev.castOnPhase = 4 → ∃ z, step x = .next z ∧ z.dev.castOnPhase = 5 ∧ z.mem.cells = [] ∧ z.mem.poison = []) ∧
      (y.dev.castOnPhase = 5 → ∃ z, step x = .next z ∧ z.dev.castOnPhase = 6) ∧
      (y.dev.castOnPhase = 6 → ∃ z, step x = .next z ∧ z.dev.castOnPhase = 7 ∧ z.dev.castOnComplete = true ∧ z.dev.hostReady = true ∧
        z.dev.findings = none ∧ z.stage.latch = 0))

/-- How long the stored energy carries is the model's reading of log 22. Power that is lost leaves the Stash, the fault latch and nothing
of memory, jobs or rings; a module lost keeps its cause and answers reads with all ones. Forms whose own effect completes here:
timeStitchRead, bar2Read, dieOvertempShutdown, inputPowerLoss, overvoltageTurnOff, hookWatchdogExpiry (13 R392; 16 R442 to R444, R446). -/
def Obligations.PowerLost : Prop :=
  ∀ (s a : State) (t : Stitch), a = s.advance t →
    (a.stage.good = true → (∀ vin, vin ≤ 4100 → exec (.inputPowerLoss t (.turnOff vin)) s = .next a.unpowered) ∧
      (∀ vin, 4100 < vin → exec (.inputPowerLoss t (.turnOff vin)) s = .next a) ∧ exec (.inputPowerLoss t .removal) s = .next a.unpowered ∧
      (∀ d, 4800 ≤ a.pw.vin → d ≤ 350000 → exec (.inputPowerLoss t (.interruption d)) s = .next a) ∧
      (∀ d, 700000 < d → exec (.inputPowerLoss t (.interruption d)) s = .next a.unpowered)) ∧
    (∀ vin, 6200 < vin → exec (.overvoltageTurnOff t vin) s = .next { a.unpowered with stage := { a.unpowered.stage with overvolt := true } }) ∧
    (a.up = true → ∃ u, exec (.hookWatchdogExpiry t) s = .next u ∧ u.up = false ∧ u.stage.latch = 1 ∧
      u = { a with stage := u.stage, links := a.links.map (fun (l : Link) => { l with state := 0, rate := 0 }) }) ∧
    (a.up = true → ∃ u, exec (.inputPowerLoss t .stageFailure) s = .next u ∧ u.stage.good = false ∧ u.stage.lost = true ∧ u.stage.latch = 2 ∧
      u = { a with stage := u.stage, links := a.links.map (fun (l : Link) => { l with state := 0, rate := 0 }) }) ∧
    (∀ temp, a.up = true → 118 ≤ temp → ∃ u, exec (.dieOvertempShutdown t false temp) s = .next u ∧ u.stage.good = false ∧ u.stage.lost = true ∧
      u.stage.latch = 2 ∧
      u = { a with pw := { a.pw with tempW := temp }, stage := u.stage, links := a.links.map (fun (l : Link) => { l with state := 0, rate := 0 }) }) ∧
    (a.unpowered.mem.cells = [] ∧ a.unpowered.jobs = [] ∧ a.unpowered.rings = State.reset.rings ∧ a.unpowered.stash.packs = a.stash.packs ∧
      a.unpowered.stash.ckpts = a.stash.ckpts ∧ a.unpowered.stash.cper = a.stash.cper ∧ a.unpowered.stage.latch = a.stage.latch ∧
      a.unpowered.up = false) ∧
    (a.stage.lost = true → exec (.timeStitchRead t true) s = .next (a.emit (.reply (List.replicate 8 0xFF))) ∧
      ∀ off len, exec (.bar2Read t off len) s = .next (a.emit (.reply (List.replicate len 0xFF))))

/-- PWR_CYCLE: a pulse shorter than 10 ms is ignored; one of at least 100 ms turns the power stage off as a loss of input power does, also
in a lost module, and leaves the bank that the next cast-on chooses; with the turn-on condition the stage starts again; between 10 ms and
100 ms the result is undefined and the command faults. Forms whose own effect completes here: powerGood, inputPowerLoss, pwrCycleAssert (16
R445). -/
def Obligations.PowerCycle : Prop :=
  ∀ (s a : State) (t : Stitch) (d : Nat), a = s.advance t →
    (d < 10000000 → exec (.pwrCycleAssert t d) s = .next a) ∧
    (100000000 ≤ d → exec (.pwrCycleAssert t d) s = .next a.unpowered ∧
      (a.stage.good = true → exec (.inputPowerLoss t .removal) s = .next a.unpowered) ∧
      a.unpowered.stage.good = false ∧ a.unpowered.stage.lost = false ∧ a.unpowered.stitch = 0 ∧ a.unpowered.jobs = [] ∧
      a.unpowered.stash.hibernate = none ∧
      (∀ latch : Nat, (a.unpowered.fw.afterTrial latch).choose = (a.fw.afterTrial latch).choose) ∧
      (∀ (t2 : Stitch) (f : CastOnFindings), f.presence = true → 4300 ≤ f.vin → 10000000 ≤ f.vinHeld → f.vin ≤ 6200 → a.stage.overvolt = false →
        ∃ u, exec (.powerGood t2 f) a.unpowered = .next u ∧ u.stage.good = true)) ∧
    (10000000 ≤ d → d < 100000000 → exec (.pwrCycleAssert t d) s = .fault .pwrCycleUndefined)

/-! ### Courses -/

/-- The head course of a queue that may launch launches there: with its batch in a panel, on all its links at once; a batch that may still
grow gathers; a course that may not launch stays; the launch stitch of a timed course is its point when it launches within the first core
cycle of it, and a later first launch is missed. Forms whose own effect completes here: courseLaunch, panelReadyReport, batchWaitExpiry,
stagingPageAvailable (01 R36; 03 R82; 04 R142, R143, R145; 05 R170, R171, R460). -/
def Obligations.CoursesLaunch : Prop :=
  ∀ (s a : State) (t : Stitch), s.Reached t a →
    (∀ (u : LUnit) (c : Course), a.headCourse u = some c → a.mayLaunch c u = false → exec (.courseLaunch t u) s = .next a) ∧
    (∀ (p : Nat) (c : Course), a.headCourse (.panel p) = some c → a.mayLaunch c (.panel p) = true → (a.batchAt c p).2 = true →
      exec (.courseLaunch t (.panel p)) s = .next (a.launchBatch (c :: (a.batchAt c p).1) p)) ∧
    (∀ (p : Nat) (c : Course), a.headCourse (.panel p) = some c → a.mayLaunch c (.panel p) = true → (a.batchAt c p).2 = false →
      c.gatherSince = none →
      exec (.courseLaunch t (.panel p)) s = .next (a.updCourse c.id (fun (d : Course) => { d with gatherSince := some a.stitch }))) ∧
    (∀ (p : Nat) (c : Course), a.headCourse (.panel p) = some c → a.mayLaunch c (.panel p) = true → c.fill = true →
      a.conditionSince c p + c.batchWait ≤ a.stitch → exec (.batchWaitExpiry t p) s = .next (a.launchBatch (c :: (a.batchAt c p).1) p)) ∧
    (∀ (k : Nat) (c : Course), a.headCourse (.link k) = some c → a.mayLaunch c (.link k) = true →
      exec (.courseLaunch t (.link k)) s = .next ((a.start c c.units).runLinks c.id)) ∧
    (∀ (id : Nat) (u : LUnit) (c : Course), a.course? id = some c → c.joint = true → c.status = .queued → c.unready.contains u = true →
      a.unitReady c u = true →
      exec (.panelReadyReport t id u) s = .next (a.updCourse id (fun (d : Course) => { d with ready := d.ready ++ [(u, a.stitch)] }))) ∧
    (∀ (job : Word) (c : Course), a.courses.filter (fun d => d.job == job && d.status == .waitPages) = [c] →
      exec (.stagingPageAvailable t job) s = .next (a.retryCourse c)) ∧
    (∀ (c : Course) (u l : Nat), c.launchStitch = some l → c.joint = false →
      (a.onTime u l = true → (a.launchTime c u).stitch = l ∧ (a.launchTime c u).late = 0 ∧ (a.launchTime c u).missed = false) ∧
      (a.onTime u l = false → (a.launchTime c u).stitch = a.stitch ∧ (a.launchTime c u).late = a.stitch - l ∧
        ((a.launchTime c u).missed = true ↔ c.attempt = 0 ∧ c.firstLaunch = none)))

/-- Publishing an overlay replaces the bytes of its pages and no others; a write into a view shows that byte in the view and no other
change, and leaves the contents under its outermost overlay alone (03 R82, R83). -/
def Obligations.ViewsOfMemory : Prop :=
  (∀ (m : List Host.Cell) (o : Overlay) (x : Nat), Memory.wf m = true → Memory.wf o.cells = true →
    (∀ d ∈ o.cells, o.pages.contains (pageOf d.1) = true) →
    Memory.read (Memory.publish m o) x = (if o.pages.contains (pageOf x) then Memory.read o.cells x else Memory.read m x) ∧
    Memory.wf (Memory.publish m o) = true) ∧
  (∀ (o : Overlay) (os : List Overlay) (m : List Host.Cell) (a x : Nat) (b : Byte),
    (∀ k ∈ o :: os, Memory.wf k.cells = true ∧ ∀ d ∈ k.cells, k.pages.contains (pageOf d.1) = true) → Memory.wf m = true →
    (View.write ⟨o :: os, m⟩ a b).read x = (if x = a then b else View.read ⟨o :: os, m⟩ x) ∧
    (View.write ⟨o :: os, m⟩ a b).base = m ∧ (View.write ⟨o :: os, m⟩ a b).ovs.tail = os)

/-- A course that has finished on every unit retires with its batch: each publishes its staging, and what its end settles follows; one that
still runs stays. Forms whose own effect completes here: courseRetire (03 R82; 05 R172; 13 R370). -/
def Obligations.CoursesRetire : Prop :=
  ∀ (s a : State) (t : Stitch) (id : Nat) (c : Course) (batch : List Course), s.Reached t a → a.course? id = some c →
    batch = a.courses.filter (fun d => d.id == id || c.batchWith.contains d.id) →
    (batch.all a.mayRetire = true → exec (.courseRetire t id) s =
      .next (batch.foldl (fun (x : State) d => x.afterEnd d) (batch.foldl (fun (x : State) d => x.retireOne d.id) a))) ∧
    (batch.all a.mayRetire = false → exec (.courseRetire t id) s = .next a)

/-- A fault on a unit that runs a course aborts it and its batch, and a needle is then excluded; a memory fault or a poisoned read counts
as the third abort; what code a parity error in a vector or mask register counts under is a free value (log 117); a needle without progress
for 1,048,576 core cycles of its die since the course started there is such a fault, and none before; three aborts end a course; an
implicit step commits when its course has retired. Forms whose own effect completes here: courseFault, courseWatchdogExpiry,
implicitStepCommit (01 R36; 05 R174, R177; 12 R342). -/
def Obligations.CoursesFault : Prop :=
  ∀ (s a : State) (t : Stitch) (id unit : Nat) (c : Course), s.Reached t a → a.course? id = some c →
    (c.running = true → (a.runningUnits c).contains unit = true →
      (∀ addr row, exec (.courseFault t id unit .arrayParity addr row) s = .next (a.faultCourse c unit 2 row false) ∧
        exec (.courseFault t id unit .feederParity addr row) s = .next (a.faultCourse c unit 3 none false) ∧
        ∃ code, exec (.courseFault t id unit .vectorParity addr row) s =
          .next (State.faultCourse { a with freeCtr := a.freeCtr + 1 } c unit code none false)) ∧
      (∀ addr row, addr < deviceBytes → a.onlyWorking c addr = false →
        exec (.courseFault t id unit .memory addr row) s = .next ((a.uncorrected addr).faultCourse c unit 1 none true)) ∧
      (∀ addr row, a.poisonedAt addr = true →
        exec (.courseFault t id unit .poisoned addr row) s = .next (a.faultCourse c unit 6 none true)) ∧
      (∀ addr row, deviceBytes ≤ addr → exec (.courseFault t id unit .memory addr row) s = .next (a.faultCourse c unit 1 none false)) ∧
      (∀ start, unit < 144 → c.startedAt.lookup (unit / 12) = some start → start + 1048576000 ≤ a.diesCycles (unit / 12) →
        exec (.courseWatchdogExpiry t id unit) s = .next (a.faultCourse c unit 4 none false)) ∧
      (∀ start, c.startedAt.lookup (unit / 12) = some start → a.diesCycles (unit / 12) < start + 1048576000 →
        exec (.courseWatchdogExpiry t id unit) s = .next a)) ∧
    (c.running = false → (∀ k addr row, exec (.courseFault t id unit k addr row) s = .next a) ∧
      exec (.courseWatchdogExpiry t id unit) s = .next a) ∧
    (3 ≤ c.aborts → a.afterAbort id false = a.abandon c) ∧
    (a.implicitReady c = true → c.nonFinite = true → exec (.implicitStepCommit t id) s =
      .next (((((a.expose (fun e => e.course == id)).releaseCourses [c]).countJob c.job 1 1).sweepViews c.job).tryClose c.job)) ∧
    (a.implicitReady c = true → c.nonFinite = false → exec (.implicitStepCommit t id) s = .next (State.tryClose (State.sweepViews
      (State.countJob (State.countJob (State.releaseCourses (State.expose ((a.overwritten c).foldl
        (fun (x : State) g => x.clearPoison (g * granuleBytes) granuleBytes) (a.changeLatest c.job c.staging)) (fun e => e.course == id)) [c])
        c.job 0 1) c.job 5 c.flags.length) c.job) c.job))

/-- A PANEL marker completes panel by panel, a DEVICE marker once its course has retired, a SKEIN marker when every member has reported, at
the greatest of their stitches; a report of another member is handed on, one that comes before the emission waits for it, and one of an
attempt that has frogged since does not count. Forms whose own effect completes here: markerComplete, markerReportReceived (03 R105, R106;
10 R297). -/
def Obligations.MarkersComplete : Prop :=
  ∀ (s a : State) (t : Stitch) (job m : Word) (j : Job) (e : MarkerEm), s.Reached t a → a.job? job = some j → j.openMark m = some e →
    (∀ p, e.scope = 1 → a.partDone e p = true → exec (.markerComplete t job m (some p)) s = .next (a.panelMark j e p)) ∧
    (2 ≤ e.scope → e.status = .pending → a.emitterDone e = true → exec (.markerComplete t job m none) s = .next (a.deviceMark j e)) ∧
    (a.emitterDone e = false → exec (.markerComplete t job m none) s = .next a) ∧
    (∀ (via : Arrival) (member : BitVec 16) (at0 unit : Nat), unit < 200 → exec (.markerReportReceived t ⟨via, member⟩ job m ⟨at0, unit⟩) s =
      .next ((a.relayReport via member job (markBytes member job m at0 unit)).takeMark job m
        { member := member, stitch := at0, unit := unit, link := via.link })) ∧
    (∀ (b : State) (k : Job) (r : MarkReport), b.job? job = some k → k.skein = true → r.member ≠ b.skein.device →
      (∀ x : MarkerEm, k.openMark m = some x → x.scope = 3 → x.reports.any (·.member == r.member) = false →
        (k.markFloor x ≤ r.stitch → b.takeMark job m r =
          State.joinMark (b.updMark job x.ord (fun (x : MarkerEm) => { x with reports := x.reports ++ [r] })) job x.ord) ∧
        (r.stitch < k.markFloor x → b.takeMark job m r = b)) ∧
      (∀ x : Option MarkerEm, k.openMark m = x → (∀ y ∈ x, y.scope ≠ 3) →
        b.takeMark job m r = b.updJob job (fun (j : Job) => { j with markReports := j.markReports ++ [(m, r)] }))) ∧
    (∀ (p : Step) (k : Job) (x : MarkerEm), p ∈ k.opened → p.number = x.step → k.markFloor x = p.restarted)

/-! ### Swatches and tests -/

/-- A sampled tile becomes a swatch; its replica and its tiebreak recompute it on needles that serve, the next qualifying one again where
one faults, with no mismatch counted; once the replica has finished, equal bits pass and different ones call a tiebreak. Forms whose own
effect completes here: swatchSelect, swatchReplicaRun, swatchCompare (13 R368 to R372, R393). -/
def Obligations.Swatches : Prop :=
  ∀ (s a : State) (t : Stitch), s.Reached t a →
    (∀ (u id op tile : Nat) (written : Option (List Byte)) (c : Course) (x : TileRec), a.course? id = some c → c.tiles[tile]? = some x →
      (a.needle u).sample ≠ 0 → x.op = op → ((a.uncounted u).drop ((a.needle u).sample - 1)).head? = some (id, tile) →
      exec (.swatchSelect t u id op tile written) s = .next ((a.countTo u ((a.uncounted u).take (a.needle u).sample)).newSwatch u c tile x
        ((written.filter (fun b => b.length == x.bytes.length)).getD x.bytes))) ∧
    (∀ (id u : Nat) (w : Swatch) (r : Recomputed), a.swatches.find? (fun w => w.id == id && w.phase == .chosen) = some w →
      a.nextServing (w.lastTried.getD w.source) [w.source] = some u →
      (∀ got, (r = .correct ∧ got = w.correct) ∨ r = .other got → exec (.swatchReplicaRun t id r) s = .next ((a.recomputed u).updSwatch id
        (fun (w : Swatch) => { w with replica := some u, replicaBits := got, phase := .replicated, lastTried := none
                                      doneAt := ((a.recomputed u).needle u).idleSince }))) ∧
      (r = .faults → exec (.swatchReplicaRun t id r) s =
        .next ((a.recompute u).updSwatch id (fun (w : Swatch) => { w with lastTried := some u })))) ∧
    (∀ (id : Nat) (w : Swatch), a.swatches.find? (fun w => w.id == id && w.phase == .replicated) = some w →
      (a.stitch < w.doneAt → exec (.swatchCompare t id) s = .next a) ∧
      (w.doneAt ≤ a.stitch → w.compareWide = false →
        (w.replicaBits = w.sourceBits → exec (.swatchCompare t id) s = .next (a.endSwatch w)) ∧
        (w.replicaBits ≠ w.sourceBits → exec (.swatchCompare t id) s =
          .next ((a.updSwatch id (fun (w : Swatch) => { w with phase := .tiebreak })).count 8 1))))

/-- A needle that takes part in a mismatch, the source and the replica of a tiebreak and with three different results the third one too, is
suspect from then on; it is suspect until it has written 1,000,000 eligible tiles without another mismatch or a failed item, not before;
while suspect its sample counter is loaded for n = 6, and it runs test items in its idle intervals. Forms whose own effect completes here:
swatchTiebreak, suspectClear, idleTestItemStart (13 R373). -/
def Obligations.SuspectNeedles : Prop :=
  ∀ (s a : State) (t : Stitch) (u : Nat) (n : Needle), s.Reached t a → a.needles[u]? = some n →
    (n.state ≠ .retired → ((a.mismatched u).needle u).isSuspect = true ∧ ((a.mismatched u).needle u).clean = 0 ∧
      ∀ v, v ≠ u → (a.mismatched u).needle v = a.needle v) ∧
    (∀ (id r k : Nat) (w : Swatch) (c : Course) (x : TileRec) (res : Recomputed) (got : List Byte) (who : Option Nat) (b d : State),
      a.swatches.find? (fun w => w.id == id && w.phase == .tiebreak) = some w →
      a.tileOf w = some (c, x) → w.replica = some r → a.nextServing (w.lastTried.getD r) [w.source, r] = some k →
      (res = .correct ∧ got = w.correct) ∨ res = .other got →
      who = (if got = w.sourceBits then some r else if got = w.replicaBits then some w.source else none) →
      b = (if who = none then [w.source, r, k] else [w.source, r]).foldl State.mismatched (a.recomputed k) →
      d = State.mismatchRecord (match who with
        | some q => b.attribute q 1
        | none => b) w c x r k who →
      exec (.swatchTiebreak t id res) s = .next (if got = w.sourceBits then d.endSwatch w else d.failSwatch w c who)) ∧
    (n.isSuspect = true → 1000000 ≤ n.clean → exec (.suspectClear t u) s = .next (a.clearSuspect u) ∧
      ((a.clearSuspect u).needle u).isSuspect = false ∧ ∀ v, v ≠ u → (a.clearSuspect u).needle v = a.needle v) ∧
    (n.clean < 1000000 → exec (.suspectClear t u) s = .next a) ∧
    (∀ k, (n.wrote k).clean = n.clean + k ∧ (n.wrote k).isSuspect = n.isSuspect) ∧
    (n.state ≠ .retired → ((a.failedItem u).needle u).clean = 0) ∧
    (n.isSuspect = true → a.loadSample u = { (a.updNeedle u (fun (x : Needle) => { x with sample := Config.random a.freeCtr % 127 + 1 })) with
      freeCtr := a.freeCtr + 1 }) ∧
    (∀ i : Word × Word, n.isSuspect = true → n.state ≠ .retired → n.state ≠ .pending → n.item = none →
      a.needleBusy u = false → a.underTest u = false → n.idleSince + 100000 ≤ a.stitch → a.awake (.panel (u / 12)) = true →
      a.dueSoon (u / 12) = false →
      (itemList false true a.stash.packs)[n.nextItem % max (itemList false true a.stash.packs).length 1]? = some i →
      exec (.idleTestItemStart t u) s = .next (a.setItem u (some { pack := i.1, item := i.2, idle := true, start := a.stitch })))

/-- An item ends on its needle, whose stores its work fills (log 120); a unit under test is taken at a course boundary, runs its items,
records each outcome and is released. Forms whose own effect completes here: testItemComplete, selfTestTargetTaken, selfTestTargetReleased
(13 R375, R380, R381). -/
def Obligations.TestItems : Prop :=
  ∀ (s a : State) (t : Stitch) (u : Nat), s.Reached t a →
    (∀ (x : TestItem) (ok pass : Bool) (b : State), a.itemOn u = some x → x.idle = true → u < 144 →
      pass = (ok && (x.pack == 0 || itemExpected a.stash.packs x)) →
      b = (a.setItem u none).fillStores [u] [u / 12] →
      exec (.testItemComplete t u ok) s = .next (State.updNeedle (if pass
        then b.updNeedle u (fun (n : Needle) => { n with passed := n.passed + 1 })
        else b.failedItem u) u (fun (n : Needle) => { n with nextItem := n.nextItem + 1 }))) ∧
    (∀ (b : State) (p : StTarget → Bool), a.testable u = true → a.atBoundary u = true →
      p = (fun t => t.unit == u && t.taken.isNone && t.released.isNone) → a.selfTests.any (fun r => r.targets.any p) = true →
      b = (if u < 144 then a.dropItem u else a) →
      exec (.selfTestTargetTaken t u) s = .next (State.goOn
        { b with selfTests := updTarget p (fun (t : StTarget) => { t with taken := some a.stitch }) b.selfTests } u true)) ∧
    (∀ (r : SelfTestRun) (x : StTarget) (p : StTarget → Bool) (f : StTarget → StTarget), p = (fun t => t.unit == u && t.released.isNone) →
      a.selfTests.findSome? (fun r => (r.targets.find? p).map (fun t => (r, t))) = some (r, x) → a.releasable r x = true → x.taken = none →
      144 ≤ u → f = (fun y => { y with released := some a.stitch, outcome := a.outcomeOf r y }) →
      exec (.selfTestTargetReleased t u) s = .next (State.endTests { a with selfTests := updTarget p f a.selfTests }))

/-! ### Steps -/

/-- A step is decided as soon as its verdict is due: at its deadline, or earlier when its work has ended, also while the step before it
commits; outside a skein the outcome of the oldest step is then the member's own; an attempt after the third frog abandons the step,
another repeats it; while a cut stops launches nothing is decided. Forms whose own effect completes here: stepDeadline (03 R113 to R115; 13
R377, R388). -/
def Obligations.StepsDecided : Prop :=
  ∀ (s a : State) (t : Stitch) (job : Word) (j : Job) (p : Step), s.Reached t a → a.job? job = some j → j.oldest = some p →
    exec (.stepDeadline t job) s = .next (State.tryClose (((a.settleOnce job).settleOnce job).settleOnce job) job) ∧
    (∀ v causes, a.cutStops = false → j.committing.toList ++ j.opened.toList = [p] → p.phase = .running → j.skein = false →
      a.localVerdict j p = some (v, causes) → p.reports = [] → a.settleOnce job = State.conclude (a.updJob job (fun (k : Job) =>
        k.updStep p.number (fun (q : Step) => { q with phase := .decided, verdict := some (v, a.stitch), pendCauses := causes }))) job v a.stitch causes) ∧
    (∀ (q : Step) v causes, a.cutStops = false → j.committing = some p → j.opened = some q → q.number ≠ p.number → p.phase = .running →
      a.localVerdict j p = none → q.phase = .running → a.localVerdict j q = some (v, causes) → j.skein = false →
      a.settleOnce job = a.updJob job (fun (k : Job) =>
        k.updStep q.number (fun (r : Step) => { r with phase := .decided, verdict := some (v, a.stitch), pendCauses := causes }))) ∧
    (∀ (v : Nat) causes, a.conclude job .frog v causes = (if 3 ≤ p.attempt then (a.countJob j.id 2 1).abandonStep j p v causes
        else (a.countJob j.id 2 1).repeatStep j p v causes) ∧
      a.conclude job .skip v causes = a.commitStep j p true ∧ a.conclude job .pass v causes = a.commitStep j p false) ∧
    (a.cutStops = false → (∀ q ∈ j.committing.toList ++ j.opened.toList, q.phase = .running ∧ a.localVerdict j q = none) → a.settleOnce job = a) ∧
    (a.cutStops = true → a.settleOnce job = a)

/-- A verdict report is handed on; the first of each member counts for the step it names, one decided before the restart of the attempt
that runs or later than 1 ms after the deadline is dropped, and one for a step not yet begun waits for it; a verdict missing 1 ms after the
deadline makes the outcome FROG; the joint verdict is FROG where any member says FROG, else SKIP where any says SKIP, else PASS. Forms
whose own effect completes here: verdictReportReceived, verdictTimeout (03 R114; 10 R297). -/
def Obligations.VerdictsExchanged : Prop :=
  ∀ (s a : State) (t : Stitch) (job : Word) (j : Job), s.Reached t a → a.job? job = some j → j.skein = true →
    (∀ (via : Arrival) (member : BitVec 16) (step : Dword) (v : Verdict) (decided : Nat),
      exec (.verdictReportReceived t ⟨via, member⟩ job step v decided) s =
      .next ((a.relayReport via member job (verdictBytes member job step.toNat (verdictCode v) decided)).verdictIn member job step.toNat v decided)) ∧
    (∀ (b : State) (k : Job) (member : BitVec 16) (step : Nat) (v : Verdict) (decided : Nat), b.job? job = some k → k.skein = true →
      member ≠ b.skein.device → b.verdictIn member job step v decided = State.settle (b.updJob job
        (fun (k : Job) => k.takeVerdict b.stitch member step v decided)) job) ∧
    (∀ (k : Job) (now : Nat) (member : BitVec 16) (step : Nat) (v : Verdict) (decided : Nat) (f : Option Step → Option Step),
      f = (fun o => o.map (fun p => if p.number = step then p.report now member v decided else p)) →
      ((k.opened.toList ++ k.committing.toList).any (·.number == step) = true →
        k.takeVerdict now member step v decided = { k with opened := f k.opened, committing := f k.committing }) ∧
      ((k.opened.toList ++ k.committing.toList).any (·.number == step) = false → k.freshFrom ≤ decided → k.wanted ≤ step →
        k.verdicts.any (fun r => r.1 == member && r.2.1 == step) = false →
        k.takeVerdict now member step v decided = { k with verdicts := k.verdicts ++ [(member, step, v, decided)] }) ∧
      ((k.opened.toList ++ k.committing.toList).any (·.number == step) = false → decided < k.freshFrom → k.takeVerdict now member step v decided = k)) ∧
    (∀ (p : Step) (now : Nat) (member : BitVec 16) (v : Verdict) (decided : Nat),
      (p.reports.any (·.1 == member) = true ∨ decided < p.restarted ∨ (∃ d, p.deadline = some d ∧ d + 1000000 < now) →
        p.report now member v decided = p) ∧
      (p.reports.any (·.1 == member) = false → p.restarted ≤ decided → (∀ d, p.deadline = some d → now ≤ d + 1000000) →
        p.report now member v decided = { p with reports := p.reports ++ [(member, v, decided)] })) ∧
    (∀ (p : Step) (d : Nat), j.oldest = some p → p.deadline = some d → p.phase = .decided → a.cutStops = false → d + 1000000 ≤ a.stitch →
      p.verdict.isSome = true → exec (.verdictTimeout t job) s = .next ((a.conclude job .frog (d + 1000000) p.pendCauses).settle job)) ∧
    (∀ (p : Step) (d : Nat), j.oldest = some p → p.deadline = some d → a.stitch < d + 1000000 → exec (.verdictTimeout t job) s = .next a) ∧
    (∀ v w : Verdict, (worse v w = .frog ↔ v = .frog ∨ w = .frog) ∧ (worse v w = .pass ↔ v = .pass ∧ w = .pass))

/-- A frogged step starts over at its restart stitch, its courses in their queues again; after an abandonment the window ends 1 ms later
and the STEP_BEGIN that waited completes, no sooner. Forms whose own effect completes here: frogRestart, abandonDropWindowEnd (13 R377,
R379). -/
def Obligations.StepsRestart : Prop :=
  ∀ (s a : State) (t : Stitch) (job : Word) (j : Job), s.Reached t a → a.job? job = some j →
    (∀ (p : Step) (r : Nat) (b : State), j.oldest = some p → p.phase = .restart r → r ≤ a.stitch → a.cutStops = false → a.dueImplicit job = [] →
      b = (a.updJob job (fun (k : Job) => k.setOldest (fun (q : Step) => { q with phase := .running }))).startAttempt job false →
      exec (.frogRestart t job) s = .next ((b.stepCourses job p.number).foldl State.reenter b)) ∧
    (∀ (p : Step) (r : Nat), j.oldest = some p → p.phase = .restart r → a.stitch < r → a.dueImplicit job = [] →
      exec (.frogRestart t job) s = .next a) ∧
    (∀ (u : Nat) (b : State), j.dropUntil = some u → u ≤ a.stitch →
      b = a.updJob job (fun (k : Job) => { k with dropUntil := none, beginWait := none }) →
      (∀ tag : CmdTag, j.beginWait = some tag → exec (.abandonDropWindowEnd t job) s = .next ((b.finish tag [0] 0).tryClose job)) ∧
      (j.beginWait = none → exec (.abandonDropWindowEnd t job) s = .next b)) ∧
    (∀ u : Nat, j.dropUntil = some u → a.stitch < u → exec (.abandonDropWindowEnd t job) s = .next a)

/-- In the exchange of a JOB_OPEN an answer is handed on, the first of each member counts until it is 10 s old, when that member's own
JOB_OPEN has ended, and the last one ends it; without it the command ends after 10 s, with BAD_FIELD where this member's values differ from
those of the lowest-numbered one, else with NO_RESOURCE. Forms whose own effect completes here: jobOpenExchangeReceived,
jobOpenAgreeTimeout (00 R9; 03 R87; 10 R297). -/
def Obligations.OpenExchanges : Prop :=
  ∀ (s a : State) (t : Stitch) (id : Word) (x : OpenExchange) (o : Opening), s.Reached t a →
    (∀ via : Arrival, exec (.jobOpenExchangeReceived t id ⟨via, x⟩) s =
      .next ((a.relayReport via x.member id (openBytes id x)).takeExchange id x)) ∧
    (∀ (p : Opening) (now : Nat) (y : OpenExchange), y ∈ p.present now ↔ ∃ z ∈ p.answers, z.x = y ∧ now < z.since + 10000000000) ∧
    (∀ b : State, x.member ≠ b.skein.device →
      (∀ f : Opening → Opening, b.openings.find? (·.job.id == id) = some o → (o.present b.stitch).any (·.member == x.member) = false →
        f = (fun p => if p.job.id == id then
          { p with answers := p.answers.filter (fun (z : Answer) => z.x.member != x.member) ++ [⟨x, b.stitch⟩] } else p) →
        b.takeExchange id x = State.tryOpen { b with openings := b.openings.map f } id) ∧
      (b.openings.find? (·.job.id == id) = some o → (o.present b.stitch).any (·.member == x.member) = true → b.takeExchange id x = b) ∧
      (b.openings.find? (·.job.id == id) = none → b.takeExchange id x =
        { b with early := b.early.filter (fun e => !(e.1 == id && e.2.x.member == x.member)) ++ [(id, ⟨x, b.stitch⟩)] })) ∧
    (∀ code : Nat, a.openings.find? (fun o => o.job.id == id && decide (o.accepted + 10000000000 ≤ a.stitch)) = some o →
      code = (if (o.present a.stitch).any (fun y => y.member == 0 && !sameOpen (a.ownExchange o.job) y) then 0x0101 else 0x0102) →
      exec (.jobOpenAgreeTimeout t id) s = .next (State.finish { a with openings := a.openings.filter (·.job.id != id) } o.tag [code] 0)) ∧
    (a.openings.find? (fun o => o.job.id == id && decide (o.accepted + 10000000000 ≤ a.stitch)) = none →
      exec (.jobOpenAgreeTimeout t id) s = .next a)

/-! ### Time -/

/-- Delays are measured; the master sends its counter every 125,000 stitches to the ports that carry time; a member takes the message of
its parent alone, follows it and forwards it. A message on another link tells that the master lives and no more. Following, a counter that
is unaligned steps forward once, and so does every one after an election that re-aligns the skein; one that joins with no job open steps to
the skein's time, and any other is disciplined by slew within its limit, the loop itself being a free value (log 100). The first copy of an
election message is forwarded, and makes the master it announces or elects one; a later copy changes no role. Forms whose own effect
completes here: delayMeasurement, timeMessageSend, timeMessageReceived, electionMessageReceived (04 R122, R126 to R130; 10 R292, R303,
R304). -/
def Obligations.TimeKept : Prop :=
  ∀ (s a : State) (t : Stitch), s.Reached t a →
    (∀ k t1 t2 t3 t4 : Nat, (a.link k).state = 2 ∨ (a.link k).state = 3 → exec (.delayMeasurement t k t1 t2 t3 t4) s =
      .next (State.sendControl ((a.updLink k Link.heardNext).updLink k (fun (l : Link) => { l with
        delayQ := (8 * (((t4 : Int) - t1) - ((t3 : Int) - t2))).toNat, uncInterval := 0, uncIntervalStart := a.stitch }))
          k 0x11 (a.link k).peerDevice (le 8 a.stitch))) ∧
    (∀ b c : State, a.time.role = 1 → (∀ at0 ∈ a.time.lastSent, at0 + 125000 ≤ a.stitch) →
      b = (if a.time.unaligned || a.time.realign then a.align (a.time.greatest.getD 0) else a) → c = { b with time := { b.time.elected with lastSent := some b.stitch } } →
      exec (.timeMessageSend t) s = .next (c.timePorts.foldl (fun (x : State) p => x.sendControl p 0x20 0xFFFF (le 8 c.stitch)) c)) ∧
    (∀ at0, a.time.lastSent = some at0 → a.stitch < at0 + 125000 → exec (.timeMessageSend t) s = .next a) ∧
    (∀ k c : Nat, a.skein.parent ≠ some k → (a.link k).state = 2 → exec (.timeMessageReceived t k c) s =
      .next { a.updLink k Link.heardNext with time := { a.time with lastMaster := a.stitch } }) ∧
    (∀ (k c : Nat) (h b d : State), a.skein.parent = some k → h = a.updLink k Link.heardNext →
      b = State.follow { h with time := { h.time with offset := (16 * (c : Int) + (a.link k).delayQ) - 16 * a.stitch } }
        (c + (a.link k).delayQ / 16) →
      d = { b with time := { b.time with lastMaster := b.stitch } } →
      exec (.timeMessageReceived t k c) s = .next ((d.timePorts.filter (fun p => p != k && d.isChild p)).foldl
        (fun (x : State) p => x.sendControl p 0x20 0xFFFF (le 8 (c + (a.link k).delayQ / 16))) d)) ∧
    (∀ (b : State) (v : Nat),
      (b.time.unaligned = true → (b.follow v).stitch = max b.stitch v ∧ (b.follow v).time.unaligned = false ∧ (b.follow v).time.expired = false) ∧
      (b.time.unaligned = false → b.time.joining = true → b.jobs = [] → (b.follow v).stitch = v ∧ (b.follow v).time.joining = false) ∧
      (b.time.unaligned = false → b.time.joining = false ∨ b.jobs ≠ [] → b.time.realign = true → (b.follow v).stitch = max b.stitch v ∧
        (b.follow v).time.realign = false) ∧
      (b.time.unaligned = false → b.time.joining = false ∨ b.jobs ≠ [] → b.time.realign = false → (b.follow v).stitch = b.stitch ∧
        -(if b.time.tookOver then 1000 else 200000) ≤ (b.follow v).time.slew ∧
        (b.follow v).time.slew ≤ (if b.time.tookOver then 1000 else 200000))) ∧
    (∀ (k : Nat) (m : ElectionMsg), (a.link k).state = 2 → a.skein.seen.contains (m.source, m.sequence) = true →
      exec (.electionMessageReceived t k m) s = .next (a.updLink k Link.heardNext)) ∧
    (∀ (k : Nat) (m : ElectionMsg) (infos : List MemberInfo) (h b : State), a.skein.seen.contains (m.source, m.sequence) = false →
      (a.link k).state = 2 → infos = mergeInfos (mergeInfos a.skein.infos m.members) (if a.skein.member then [a.ownInfo] else []) →
      h = a.updLink k Link.heardNext →
      b = State.floodElection { h with skein := { h.skein with seen := (m.source, m.sequence) :: h.skein.seen, infos := infos } } (some k) m →
      exec (.electionMessageReceived t k m) s = .next (match m.announce with
        | some d => b.newMaster d
        | none => if b.skein.member then b.elect infos (m.members ++ [a.ownInfo]) else b))

/-- Holdover begins after 3 ms without a time message and expires after 10 s; the first standby takes over after 8 ms, each further one 8
ms later, and announces itself. Forms whose own effect completes here: holdoverEntry, masterTakeover, holdoverExpiry (04 R128 to R130). -/
def Obligations.Holdover : Prop :=
  ∀ (s a : State) (t : Stitch), s.Reached t a →
    (a.skein.member = true → a.time.role ≠ 1 → a.time.lastMaster + 3000000 ≤ a.stitch → exec (.holdoverEntry t) s = .next a.enterHoldover) ∧
    (a.stitch < a.time.lastMaster + 3000000 → exec (.holdoverEntry t) s = .next a) ∧
    (∀ (i : Nat), a.skein.member = true → a.time.role ≠ 1 → a.time.standbys.findIdx? (· == a.skein.device) = some i →
      a.time.lastMaster + 8000000 * (i + 1) ≤ a.stitch →
      exec (.masterTakeover t) s = .next ((a.enterHoldover.newMaster a.skein.device).sendElection (some a.skein.device))) ∧
    (∀ (b : State) (d : Option (BitVec 16)) (m : ElectionMsg),
      m = { source := b.skein.device, sequence := BitVec.ofNat 32 (b.time.electSeq + 1), members := [b.ownInfo], announce := d } →
      b.sendElection d = State.floodElection { b with
        time := { b.time with electSeq := b.time.electSeq + 1 }
        skein := { b.skein with seen := (m.source, m.sequence) :: b.skein.seen } } none m) ∧
    (a.stitch < a.time.lastMaster + 8000000 → exec (.masterTakeover t) s = .next a) ∧
    (∀ h, a.time.holdoverStart = some h → h + 10000000000 ≤ a.stitch → a.time.expired = false →
      exec (.holdoverExpiry t) s = .next (State.traceTime (State.timingError (State.raiseTiming
        { a with time := { a.time with expired := true, unaligned := true } } 2) 2 sevRecoverable) a.stitch a.stitch 4)) ∧
    (∀ h, a.time.holdoverStart = some h → a.stitch < h + 10000000000 → exec (.holdoverExpiry t) s = .next a)

/-- The reference: a PPS edge within 100 stitches of a second counts, four make the reference valid where REF_IN has held for 1 s; a loss
clears it; PTP disciplines the counter; the first lock alone steps the counter, of a module that keeps its own time with no job open, and
every other correction is slew; pulses leave on whole seconds where enabled; CYC_DET follows the pin. Forms whose own effect completes
here: ppsInEdge, refLossTimeout, ppsOutPulse, ptpMessage, cycDetChange (04 R122 to R124, R129; 16 R447 to R451). -/
def Obligations.References : Prop :=
  ∀ (s a : State) (t : Stitch), s.Reached t a →
    (∀ p good held : Nat, a.time.lastPps = some p →
      good = (if 999999900 ≤ a.stitch - p ∧ a.stitch - p ≤ 1000000100 then a.time.ppsGood + 1 else 1) →
      (good < 4 ∨ held < 1000000000 →
        exec (.ppsInEdge ⟨t, held⟩) s = .next { a with time := { a.time with lastPps := some a.stitch, ppsGood := good } }) ∧
      (4 ≤ good → 1000000000 ≤ held → a.cfg.castTimeSource ≠ 0 →
        exec (.ppsInEdge ⟨t, held⟩) s = .next { a with time := { a.time with lastPps := some a.stitch, ppsGood := good, refValid := true } })) ∧
    (∀ (p v held : Nat) (b : State), a.time.lastPps = some p → 999999900 ≤ a.stitch - p → a.stitch - p ≤ 1000000100 → 3 ≤ a.time.ppsGood →
      a.cfg.castTimeSource = 0 → 1000000000 ≤ held →
      v = (if a.time.firstLock then (a.stitch + 500000000) / 1000000000 * 1000000000 else a.stitch / 1000000000 * 1000000000) →
      b = State.locked { a with time := { a.time with lastPps := some a.stitch, ppsGood := a.time.ppsGood + 1, refValid := true } } v →
      exec (.ppsInEdge ⟨t, held⟩) s = .next { b with time := { b.time with lastPps := some b.stitch } }) ∧
    (∀ (b : State) (v : Nat), (b.locked v).time.firstLock = true ∧
      ((b.time.role = 1 ∨ b.time.role = 3) → b.time.firstLock = false → b.jobs = [] → (b.locked v).stitch = v) ∧
      (b.time.firstLock = true ∨ b.jobs ≠ [] ∨ (b.time.role ≠ 1 ∧ b.time.role ≠ 3) → (b.locked v).stitch = b.stitch)) ∧
    (∀ p : Nat, a.time.lastPps = some p → p + 3000000000 ≤ a.stitch →
      exec (.refLossTimeout t .pps) s = .next { a with time := { a.time with refValid := a.time.ptpLocked, ppsGood := 0 } }) ∧
    (∀ p : Nat, a.time.lastPps = some p → a.stitch < p + 3000000000 → exec (.refLossTimeout t .pps) s = .next a) ∧
    exec (.refLossTimeout t .refIn) s = .next { a with time := { a.time with refValid := a.time.ptpLocked, ppsGood := 0 } } ∧
    (a.time.outputControl.getLsbD 0 = true → a.time.lastPulse / 1000000000 < a.stitch / 1000000000 → exec (.ppsOutPulse t) s =
      .next (State.emit { a with time := { a.time with lastPulse := a.stitch } } (.ppsOut (a.stitch / 1000000000 * 1000000000)))) ∧
    (∀ m : Nat, a.cfg.castTimeSource = 1 → exec (.ptpMessage t m) s =
      .next (State.locked { a with time := { a.time with refValid := true, ptpLocked := true } } m)) ∧
    (∀ m : Nat, a.cfg.castTimeSource ≠ 1 → exec (.ptpMessage t m) s = .next a) ∧
    (∀ c, exec (.cycDetChange t c) s = .next { a with gauge := { a.gauge with cycDet := c } })

/-! ### The gauge -/

/-- An edge of the selected sense is stamped less the delay, 250 ± 20 stitches after it reaches the pins (log 12); an interval shorter than
1 µs is ignored with both its edges. The first begins the measurement, a glitch is ignored, an edge while acquiring enters the eight
intervals and one that numbers cycles the next; QUAD counts issue the sub-records they reach, past the last of a cycle only while the edge
is missing (log 105); a missing edge is coasted, 64 of them lose the gauge; a record received is kept once, binds what waits and is
forwarded; CYC_OUT pulses at a boundary and what writes set up stands until then: the control word only while no job is open. Forms whose
own effect completes here: timeGaugeControlWrite, timeGaugeDelayWrite, cycInEdge, quadCount, gaugeCoastedRecord, gaugeRecordReceived,
cycOutPulse (04 R124, R125, R137 to R139, R141, R144; 16 R448). -/
def Obligations.GaugeMeasures : Prop :=
  ∀ (s a : State) (t : Stitch) (g : Gauge) (stamp : Int), s.Reached t a → g = a.gauge →
    stamp = ((a.stitch + cycInDelay : Nat) : Int) - signed 32 g.delay.toNat →
    (230 ≤ cycInDelay ∧ cycInDelay ≤ 270) ∧
    (∀ hold f, hold < 1000 → g.bounce ≠ some f → exec (.cycInEdge t ⟨f, hold⟩) s = .next { a with gauge := { g with bounce := some (!f) } }) ∧
    (∀ hold f, g.bounce = some f → exec (.cycInEdge t ⟨f, hold⟩) s = .next { a with gauge := { g with bounce := none } }) ∧
    (∀ hold, gaugeSource g.control ≠ 0 → gaugeMode g.control ≠ 0 → g.cycDet = true → g.bounce = none → 1000 ≤ hold →
      (g.lastEdge = none → exec (.cycInEdge t ⟨gaugeFalling g.control, hold⟩) s =
        .next { a with gauge := { g.edgeQuad stamp.toNat with lastEdge := some stamp } }) ∧
      (∀ e, g.lastEdge = some e → g.glitch (stamp - e) = true → g.state = 2 → exec (.cycInEdge t ⟨gaugeFalling g.control, hold⟩) s = .next a) ∧
      (∀ e, g.lastEdge = some e → g.glitch (stamp - e) = false → g.state = 1 → exec (.cycInEdge t ⟨gaugeFalling g.control, hold⟩) s =
        .next (a.acquiringEdge stamp.toNat (acceptedPeriod (gaugeMode g.control) (stamp - e)) (stamp - e).toNat)) ∧
      (∀ e, g.lastEdge = some e → g.glitch (stamp - e) = false → g.state ≠ 1 → exec (.cycInEdge t ⟨gaugeFalling g.control, hold⟩) s =
        .next (a.numberedEdge stamp.toNat (acceptedPeriod (gaugeMode g.control) (stamp - e)) (stamp - e).toNat)) ∧
      exec (.cycInEdge t ⟨!gaugeFalling g.control, hold⟩) s = .next a) ∧
    (∀ (n : Int) (unit : Int) (high reached : Int), reached = (a.stitch : Int) - signed 32 g.delay.toNat → gaugeQuad g.control = true → gaugeSource g.control ≠ 0 → unit = (gaugeCounts g.control / 16 : Nat) →
      high = max g.quadHigh (g.quadCount + n) → ∀ most : Nat → Nat, most = (fun n => if g.state = 3 then n else min 15 n) →
      exec (.quadCount t n) s = .next (State.subRecords { a with gauge := { g with quadCount := g.quadCount + n, quadHigh := high } } reached.toNat
        (most (high / unit).toNat - most (g.quadHigh / unit).toNat) (most (g.quadHigh / unit).toNat + 1))) ∧
    (∀ (e due : Int), g.lastEdge = some e → g.state = 2 ∨ g.state = 3 ∨ g.state = 5 → g.periodQ ≠ 0 → g.coasted < 63 →
      due = e + (((g.coasted + 1) * g.periodQ / 65536 : Nat) : Int) → due ≤ a.stitch → 3 * g.periodQ < ((a.stitch : Int) - e) * 131072 →
      exec (.gaugeCoastedRecord t) s = .next (State.edgeRecord (State.setGaugeState
        { a with gauge := { g with coasted := g.coasted + 1, cycle := g.cycle + 1 } } 3) due.toNat 2)) ∧
    (∀ (k : Nat) (r : GaugeRec), (a.link k).state = 2 → a.skein.gaugeSeen.contains (r.source, r.sequence) = true →
      exec (.gaugeRecordReceived t k r) s = .next (a.updLink k Link.heardNext)) ∧
    (∀ (k : Nat) (r : GaugeRec), (a.link k).state ≠ 2 → exec (.gaugeRecordReceived t k r) s = .next a) ∧
    (∀ (k : Nat) (r : GaugeRec), (a.link k).state = 2 → a.skein.gaugeSeen.contains (r.source, r.sequence) = false →
      gaugeSource g.control ≠ 1 →
      exec (.gaugeRecordReceived t k r) s = .next (State.flood (State.bindAll { a.updLink k Link.heardNext with
        gauge := g.keep r, skein := { a.skein with gaugeSeen := (r.source, r.sequence) :: a.skein.gaugeSeen } }) 0x21 (some k) (gaugeBytes r))) ∧
    (∀ r : GaugeRec, (g.keep r).records.head? = some r ∧ (g.records.length ≤ 64 → (g.keep r).records.length ≤ 64) ∧
      (∀ l, g.latest = some l → r.value.toNat < l.value.toNat → g.keep r = { g with records := [r], readout := 0, lastPulse := none })) ∧
    (∀ c : Nat, a.cycOutLive = true → g.lastPulse = some c → c < g.readAt a.stitch / 2 ^ 32 → exec (.cycOutPulse t) s =
      .next (State.emit { a with gauge := { g with lastPulse := some (g.readAt a.stitch / 2 ^ 32) } } (.cycOut a.stitch))) ∧
    (∀ c : Nat, g.lastPulse = some c → g.readAt a.stitch / 2 ^ 32 ≤ c → exec (.cycOutPulse t) s = .next a) ∧
    (∀ w : Word, a.jobs = [] → exec (.timeGaugeDelayWrite t w) s = .next { a with gauge := { g with delay := w } }) ∧
    (∀ w : Word, a.jobs = [] → a.gaugeRefused w = false → exec (.timeGaugeControlWrite t w) s = .next (State.setGaugeState
      { a with gauge := { Gauge.reset with control := w &&& 0xFFFF003F, state := g.state, active := gaugeSource w == 1
                                           delay := g.delay, sequence := g.sequence, cycDet := g.cycDet, bounce := g.bounce } }
      (if gaugeMode w = 0 then 0 else 1)))


/-! ### Links -/

/-- A link that is down trains, reading its cable, and after three failures 1 s after the last; a training that succeeds starts its
sequence numbers anew at its rate, one that fails counts towards three; a loss of lock takes a link down; 1 ms after it came up it takes
plan frames again. Around an event of a link the frame times before it are settled first, and what it leaves to be sent after it. Forms
whose own effect completes here: linkTraining, linkUp, linkLossOfLock, linkRetryTimer, linkPlanRejoin (10 R291, R292, R297, R298, R308; 16
R453). -/
def Obligations.LinkStates : Prop :=
  ∀ (s a b : State) (t : Stitch) (k : Nat) (cable : Option Cable), s.Reached t a → b = a.sweep →
    ((a.link k).state = 0 → (a.link k).attempts < 3 → exec (.linkTraining t ⟨k, cable⟩) s = .next ((a.linkTrain k).updLink k
      (fun (l : Link) => { l with cable := cable })) ∧ exec (.linkRetryTimer t k) s = .next a) ∧
    ((a.link k).state = 0 → 3 ≤ (a.link k).attempts → exec (.linkTraining t ⟨k, cable⟩) s = .next a ∧
      ((a.link k).triedAt + 1000000000 ≤ a.stitch → exec (.linkRetryTimer t k) s = .next (a.linkTrain k)) ∧
      (a.stitch < (a.link k).triedAt + 1000000000 → exec (.linkRetryTimer t k) s = .next a)) ∧
    (k < a.links.length → ((a.linkTrain k).link k).state = 1 ∧ ((a.linkTrain k).link k).retrains = satAdd 16 (a.link k).retrains 1 ∧
      ((a.linkDown k 0).link k).state = 0 ∧ ((a.linkDown k 0).link k).triedAt = a.stitch ∧ ((a.linkDown k 0).link k).replay = [] ∧
      ∀ e ∈ a.out, (∀ leaves f even odd, e = .frame k leaves f even odd → leaves ≤ a.stitch) → e ∈ (a.linkDown k 0).out) ∧
    (a.txq = [] → (∀ l ∈ a.links, l.resend = []) → b = a) ∧
    ((b.link k).state = 1 → exec (.linkUp t k .failed) s = .next (b.linkDown k (min 3 ((b.link k).attempts + 1))).settleLinks ∧
      exec (.linkUp t k (.palrix 4)) s = .next (b.updLink k (fun l => l.trained 2 4 b.stitch counterMax)).regroup.reparent.settleLinks ∧
      exec (.linkUp t k (.palrix 2)) s = .next (b.updLink k (fun l => l.trained 2 2 b.stitch counterMax)).regroup.reparent.settleLinks ∧
      exec (.linkUp t k .forerunner) s = .next (b.updLink k (fun l => l.trained 3 2 b.stitch counterMax)).regroup.settleLinks) ∧
    ((b.link k).state ≠ 1 → ∀ r, exec (.linkUp t k r) s = .next b.settleLinks) ∧
    ((b.link k).up = true → exec (.linkLossOfLock t k) s = .next (b.linkDown k 0).settleLinks) ∧
    ((b.link k).up = false → exec (.linkLossOfLock t k) s = .next b.settleLinks) ∧
    ((a.link k).state = 2 → (a.link k).upSince + 1000000 ≤ a.stitch → exec (.linkPlanRejoin t k) s =
      .next (a.updLink k (fun (l : Link) => { l with planFrom := min l.planFrom a.stitch }))) ∧
    (a.stitch < (a.link k).upSince + 1000000 → exec (.linkPlanRejoin t k) s = .next a)

/-- A skein that matches a topology of R299 numbers its members, this module among them, and elects, each member saying what it is; wiring
that matches none, or not with this module in it, leaves the module alone with an error record; with a skein job open nothing is formed.
Forms whose own effect completes here: skeinFormation (10 R299 to R301; 04 R122, R126). -/
def Obligations.SkeinForms : Prop :=
  ∀ (s a : State) (t : Stitch) (ws vs : List Wire) (ms : List MemberInfo), s.Reached t a →
    vs = ws.filter (fun w => ms.any (fun i => i.serial == w.fromSerial) && ms.any (fun i => i.serial == w.toSerial)) →
    (a.jobs.any (·.skein) = true → exec (.skeinFormation t ws ms) s = .next a) ∧
    (a.jobs.any (·.skein) = false → topologyOf vs (ms.map (·.serial)) = none →
      exec (.skeinFormation t ws ms) s = .next (a.noSkein vs (ms.map (·.serial)))) ∧
    (∀ p : Topology, a.jobs.any (·.skein) = false → topologyOf vs (ms.map (·.serial)) = some p → p.order.findIdx? (· == a.dev.serial) = none →
      exec (.skeinFormation t ws ms) s = .next (a.noSkein vs (ms.map (·.serial)))) ∧
    (∀ (p : Topology) (place : Nat) (b d : State), a.jobs.any (·.skein) = false → topologyOf vs (ms.map (·.serial)) = some p →
      p.order.findIdx? (· == a.dev.serial) = some place → b = a.joinSkein p place →
      d = State.elect { b with skein := { b.skein with infos := numberMembers p ms }, time := b.time.elected } (numberMembers p ms)
        (numberMembers p ms) →
      exec (.skeinFormation t ws ms) s =
        .next (State.sendElection { d with time := { d.time with
          joining := d.time.role != 1 && a.jobs.isEmpty, lastMaster := a.stitch } } none)) ∧
    ((a.noSkein vs (ms.map (·.serial))).skein.member = false ∧ (a.noSkein vs (ms.map (·.serial))).time.role = 3) ∧
    (∀ (p : Topology) (place : Nat), (a.joinSkein p place).skein.member = true ∧ (a.joinSkein p place).skein.device = BitVec.ofNat 16 place ∧
      (a.joinSkein p place).skein.members = p.order.length)

/-- An acknowledgement frees the frames before the one it names, or those it names; a NAKed frame and one unacknowledged for 2,048 stitches
are sent again, up to eight times in all, in the frame times that follow; an uncorrectable frame is counted and NAKed, more than 16 in an
interval take the link down. Forms whose own effect completes here: idleFrameReceived, ackFrameReceived, retransmitTimeout,
uncorrectableFrame (10 R292, R294, R295). -/
def Obligations.FramesAcknowledged : Prop :=
  ∀ (s a b : State) (t : Stitch) (k : Nat), s.Reached t a → b = a.sweep → (b.link k).up = true →
    (∀ ack : BitVec 16, exec (.idleFrameReceived t k ack) s =
      .next (b.ackFrames k (fun r => decide ((ack - 1 - r.frame.seq).toNat < 32768))).settleLinks) ∧
    (∀ acks naks : List (BitVec 16), exec (.ackFrameReceived t k acks naks) s = .next (State.settleLinks (naks.foldl
      (fun (x : State) q => x.resendFrame k q) ((b.updLink k Link.heardNext).ackFrames k (fun r => acks.contains r.frame.seq))))) ∧
    (∀ seq : BitVec 16, (b.link k).replay.any (fun r => r.frame.seq == seq && decide (r.sentAt + 2048 ≤ b.stitch)) = true →
      exec (.retransmitTimeout t k seq) s = .next (b.resendFrame k seq).settleLinks) ∧
    (∀ seq : BitVec 16, (b.link k).replay.any (fun r => r.frame.seq == seq && decide (r.sentAt + 2048 ≤ b.stitch)) = false →
      exec (.retransmitTimeout t k seq) s = .next b.settleLinks) ∧
    (∀ (d : State) (seq : BitVec 16) (r : Replay), (d.link k).replay.find? (fun r => r.frame.seq == seq) = some r →
      (8 ≤ r.tries → d.resendFrame k seq = d.linkDown k 0) ∧
      (r.tries < 8 → d.resendFrame k seq = d.updLink k (fun (l : Link) => { l with
        replay := l.replay.filter (fun x => x.frame.seq != seq)
        resend := l.resend ++ [{ r with frame := Frame.again r.frame, sentAt := d.stitch }] }))) ∧
    (∀ (seq : BitVec 16) (d : State), d = b.updLink k (fun (l : Link) => { l with
        uncorrectable := satAdd 16 l.uncorrectable 1, uncInterval := l.uncInterval + 1 }) →
      exec (.uncorrectableFrame t k seq) s = .next (State.settleLinks (if 16 < (d.link k).uncInterval then d.linkDown k 0
        else (d.updLink k (fun (l : Link) => l.received seq)).sendAckList k [seq])))

/-- Frames that arrive: delay stamps are answered, a peer's identity is kept, a CUT frame names what the cut needs, data frames are taken,
unscheduled ones taken, and a frame of an unknown type is dropped and counted; a frame for this member enters the course that expects it,
once; a second copy is counted, as is one that no course expects or whose job is not open; in the window after an abandonment what a course
expects is dropped uncounted. Forms whose own effect completes here: delayFrameReceived, trainingFrameReceived, cutFrameReceived,
dataFrameReceived, unscheduledFrameReceived, unknownFrameDropped (10 R294, R302, R310 to R312; 11 R332; 13 R379). -/
def Obligations.FramesArrive : Prop :=
  ∀ (s a b : State) (t : Stitch) (k : Nat), s.Reached t a → b = a.sweep →
    (∀ t1 t2, (a.link k).up = true → exec (.delayFrameReceived t k t1 t2) s = .next (State.sendControl
      ((a.updLink k Link.heardNext).updLink k (fun (l : Link) => { l with stamp1 := t1, stamp2 := t2 })) k 0x11 (a.link k).peerDevice (le 8 t1 ++ le 8 t2 ++ le 8 a.stitch))) ∧
    (∀ serial peer die gen (d : State), d = State.regroup
        (a.updLink k (fun (l : Link) => { l with peerSerial := serial, peerLink := peer, peerDie := die, peerGen := gen })) →
      ((a.link k).state = 0 → exec (.trainingFrameReceived t k serial peer die gen) s = .next a) ∧
      ((a.link k).state = 1 → exec (.trainingFrameReceived t k serial peer die gen) s = .next (d.sendUnnumbered k (d.identityFrame k))) ∧
      (2 ≤ (a.link k).state → exec (.trainingFrameReceived t k serial peer die gen) s = .next d.reparent)) ∧
    (∀ c seq, (a.link k).state = 2 → exec (.cutFrameReceived t k c seq) s =
      .next ((a.updLink k Link.heardNext).updLink k (fun (l : Link) => { l with cutNeed := some seq, cutHeard := l.cutHeard + 1 }))) ∧
    (∀ f : Frame, (b.link k).state = 2 → f.frameType = 0x30 → exec (.dataFrameReceived t k f) s =
      .next (((b.frameHeard k f).wakeModule).takeFrame k f).settleLinks) ∧
    (∀ f : Frame, f.frameType ≠ 0x30 → exec (.dataFrameReceived t k f) s = .next b.settleLinks) ∧
    (∀ (f : Frame) (d : State), d = b.frameHeard k f → (b.link k).up = true → f.frameType = 0x40 → d.toForerunner k = false →
      f.dest = d.skein.device → exec (.unscheduledFrameReceived t k f) s = .next ((d.wakeModule).takeFrame k f).settleLinks) ∧
    (∀ ty : Byte, (a.link k).up = true → knownTypes.contains ty = false → exec (.unknownFrameDropped t k ty) s = .next (a.count 11 1)) ∧
    (∀ ty : Byte, knownTypes.contains ty = true → exec (.unknownFrameDropped t k ty) s = .next a) ∧
    (∀ (f : Frame) (j : Job), f.flags.getLsbD 2 = false → a.toForerunner k = false →
      (a.jobs.find? (fun j => j.skein && j.linkIndex == f.stream.toNat / 0x100000) = none → a.takeFrame k f = a.count 12 1) ∧
      (a.jobs.find? (fun j => j.skein && j.linkIndex == f.stream.toNat / 0x100000) = some j →
        (∀ (c : Course) (x : Coll) (p : Part) (i : Nat), (a.courses.filter (fun c => c.target == 4 && c.running && c.kind == .course)).findSome?
            (fun c => (a.expectOf c k f).map (fun e => (c, e))) = some (c, x, p, i) →
          ((∀ u, j.dropUntil = some u → u ≤ a.stitch) → a.takeFrame k f = a.placeFrame c k f x p i) ∧
          (∀ u, j.dropUntil = some u → a.stitch < u → a.takeFrame k f = a)) ∧
        ((a.courses.filter (fun c => c.target == 4 && c.running && c.kind == .course)).findSome?
            (fun c => (a.expectOf c k f).map (fun e => (c, e))) = none → a.takeFrame k f = a.count 14 1)) ∧
      (∀ (c : Course) (x : Coll) (p : Part) (i : Nat), c.rx.any (fun r => r.1 == f.stream && r.2.1 == f.offset) = true →
        a.placeFrame c k f x p i = a.count 13 1))

/-- At a slot boundary, a multiple of 2,048, the buffers are filled ahead, what the plans hold is sent first, then the control and time
frames that wait, retransmissions and displaced frames, and what is due to be acknowledged; elsewhere nothing of this happens. As the frame
times of a slot pass, those left empty take retransmissions, what is to be sent again or is displaced, forwarded frames and own unscheduled
ones, in this order; after an event on the links retransmissions, planned frames whose data has come, own frames that are ready and the CUT
frames of drained links follow. Forms whose own effect completes here: slotBoundary (10 R295 to R297, R306 to R308, R310). -/
def Obligations.SlotsSend : Prop :=
  (∀ (s a b : State) (t : Stitch) (w0 w1 w2 w3 : State), s.Reached t a → b = a.sweep →
    w0 = b.linkCourses.foldl State.prefetch { b with links := b.links.map (fun (l : Link) => l.inSlot b.stitch) } →
    w1 = (b.linkCourses.foldl State.plan (w0, [])).1 →
    w2 = (List.range 32).foldl State.resendOn ((List.range 32).foldl State.sendHeld w1) →
    w3 = (w2.txq.filter TxFrame.again).foldl (State.directed [.reserve, .data]) w2 →
    (b.stitch % 2048 = 0 → exec (.slotBoundary t) s =
      .next (State.settleLinks ((List.range 32).foldl State.acknowledge (w3.displacedQueue.foldl (State.directed [.data]) w3)))) ∧
    (b.stitch % 2048 ≠ 0 → exec (.slotBoundary t) s = .next b.settleLinks)) ∧
  (∀ (x y z : State) (from_ upTo : Nat), y = (List.range 32).foldl (State.resendPassed from_ upTo) x →
    z = ((y.txq.filter TxFrame.again) ++ y.displacedQueue).foldl (State.againPassed from_ upTo) y →
    x.passTimes (from_, upTo) = (let w := (z.txq.filter TxFrame.forwarded).foldl (State.hopPassed from_ upTo) z
      (w.txq.filter TxFrame.own).foldl (State.hopPassed from_ upTo) w)) ∧
  (∀ x y z : State, y = (List.range 32).foldl State.resendOn x → z = (y.txq.filter (·.planned.isSome)).foldl State.fillPlanned y →
    x.settleLinks = x.linkCourses.foldl State.noteSend ((List.range 32).foldl State.sendCut (x.linkCourses.foldl State.originate z)))

/-! ### Cuts -/

/-- At the cut stitch launches stop; 10 ms later a link course that still awaits frames is withdrawn; the cut is taken when every unit is
at its boundary and every link has done its part; a skein's reports count once each; BIND_OFF ends 1 s after the cut stitch at the latest;
at the resume stitch what was withdrawn launches first, what a unit aborted runs again, and deadlines move by the held time. Forms whose
own effect completes here: seamCourseWithdrawal, cutStitchReached, cutTaken, cutReportReceived, bindOffReportTimeout, resumeStitchReached
(13 R387, R388, R390). -/
def Obligations.CutsRun : Prop :=
  ∀ (s a : State) (t : Stitch) (x : Cut), s.Reached t a → a.cut = some x →
    (∀ b : State, b = a.sweep → b.cut = some x →
      (x.phase = .pending → x.stitch ≤ b.stitch →
        exec (.cutStitchReached t) s = .next (State.settleLinks { b with cut := some { x with phase := .stopping } })) ∧
      (b.stitch < x.stitch → exec (.cutStitchReached t) s = .next b.settleLinks) ∧
      (∀ (id : Nat) (c : Course) (d : State), b.course? id = some c → x.phase = .stopping → c.target = 4 → c.running = true → 0 < c.awaiting →
        c.launchedAt.getD b.stitch < x.stitch → x.stitch + 10000000 ≤ b.stitch → d = b.withdraw c →
        exec (.seamCourseWithdrawal t id) s =
          .next (State.settleLinks { d with cut := d.cut.map (fun (y : Cut) => { y with withdrawn := y.withdrawn ++ [id] }) })) ∧
      (∀ d : State, b.cutReady x = true → x.skein = false → d = { b with cut := some { x with phase := .held, taken := b.stitch } } →
        exec (.cutTaken t) s =
          .next (State.settleLinks (if d.cutReported { x with phase := .held, taken := b.stitch } then d.endBindOff else d))) ∧
      (b.cutReady x = false → exec (.cutTaken t) s = .next b.settleLinks)) ∧
    (∀ (via : Arrival) (member : BitVec 16) (c taken : Nat) (y : Cut) (z : State), z = a.relayReport via member x.job (cutBytes member c taken) → x.skein = true → x.tag.isSome = true → member ≠ a.skein.device →
      x.reports.any (·.1 == member) = false → x.phase = .pending → y = { x with reports := x.reports ++ [(member, c, taken)] } →
      exec (.cutReportReceived t ⟨via, member⟩ c taken) s = .next { z with cut := some y }) ∧
    (x.stitch + 1000000000 ≤ a.stitch → exec (.bindOffReportTimeout t) s = .next a.endBindOff) ∧
    (a.stitch < x.stitch + 1000000000 → exec (.bindOffReportTimeout t) s = .next a) ∧
    (∀ (tag : CmdTag) (r held : Nat) (shift : Option Step → Option Step) (b c d : State), x.resume = some (tag, r) → x.phase = .held → r ≤ a.stitch →
      x.tag = none → held = r - x.stitch → shift = (fun o => o.map (fun p => p.shift x.stitch held)) →
      b = { a with
        cut := none
        links := a.links.map (fun (l : Link) => { l with cutSent := false, cutNeed := none, cutHeard := 0, cutMoved := false })
        courses := a.courses.map (fun c => c.shift x.stitch held)
        jobs := a.jobs.map (fun (j : Job) => { j with opened := shift j.opened, committing := shift j.committing }) } →
      c = x.withdrawn.foldl State.relaunch (x.withdrawn.reverse.foldl State.standFirst b) →
      d = State.finish ((x.aborted.filter (fun id => c.courses.any (fun e => e.id == id && e.status == .queued))).foldl State.runAgain c) tag [0] 0 →
      ∃ u, exec (.resumeStitchReached t) s = .next u ∧
        u = (((d.courses.filter (·.implicitStep)).foldl (fun (y : State) c => y.settleImplicit c.id) d).jobs.map (·.id)).foldl State.settle
          ((d.courses.filter (·.implicitStep)).foldl (fun (y : State) c => y.settleImplicit c.id) d))

/-! ### Cable engines -/

/-- The head of an engine's queue starts once it may, or is abandoned when an engine of its mask is lost; past its reserve an operation
gives up its new factor, at its deadline it starts no further phase; an operation that ends puts its outputs into its course's staging, for
which it waits with the pages that the pool still has where the pool is short, and a SOLVE then ends; a lost engine is reported and its
operation aborts for good. Forms whose own effect completes here: engineOperationStart, solveFactorCutoff, solveDeadlineReached,
solveOperationEnd, cableEngineLost (09 R260, R262, R279, R280, R283, R289). -/
def Obligations.EnginesRun : Prop :=
  ∀ (s a : State) (t : Stitch), s.Reached t a →
    (∀ e : Nat, a.headCourse (.engine e) = none → exec (.engineOperationStart t e) s = .next a) ∧
    (∀ (e : Nat) (c : Course), a.headCourse (.engine e) = some c → a.mayLaunch c (.engine e) = false →
      exec (.engineOperationStart t e) s = .next a) ∧
    (∀ (e : Nat) (c : Course), a.headCourse (.engine e) = some c → a.mayLaunch c (.engine e) = true →
      (c.engines.any (fun k => !((a.engines[k]?).map (·.up)).getD false) = false →
        exec (.engineOperationStart t e) s = .next ((a.start c c.units).startRun c.id 0)) ∧
      (c.engines.any (fun k => !((a.engines[k]?).map (·.up)).getD false) = true →
        exec (.engineOperationStart t e) s = .next (a.abandonAtLaunch c))) ∧
    (∀ (id d : Nat) (c : Course) (j : Job) (x : Structure) (q : SolveSpec) (r : SolveRun), a.course? id = some c →
      a.running? c = some (j, x, q, r) → r.deadline = some d → bitOf q.phases 1 = true →
      exec (.solveFactorCutoff t id) s = .next (if cutoffPast d (x.reserve (q.limit j)) a.stitch = true then
        a.updCourse id (fun (k : Course) => { k with run := some { r with factorCut := true } }) else a)) ∧
    (∀ (id d : Nat) (c : Course) (r : SolveRun), a.course? id = some c → c.run = some r → r.deadline = some d →
      (d ≤ a.stitch → r.deadlineCut = none → exec (.solveDeadlineReached t id) s = .next (a.free.2.updCourse id
        (fun (k : Course) => { k with run := some { r with deadlineCut := some (a.free.1.toNat % 9) } }))) ∧
      (a.stitch < d → exec (.solveDeadlineReached t id) s = .next a)) ∧
    (∀ (id : Nat) (c : Course) (j : Job) (x : Structure) (q : SolveSpec) (r : SolveRun) (v0 : SVersion) (v : SolveRes) (o : OpOut) (d : Done)
      (b u : State), a.course? id = some c → a.running? c = some (j, x, q, r) → j.startVersion c q.handle = some v0 → c.status = .launched →
      v = x.operate j.tauLog2 (a.solveReq c j x q r) v0 (x.factorGen + ((c.progress.filter (·.handle == q.handle)).map (·.made)).sum) →
      o = a.solveOut c j x q v → d = o.writes.foldl Done.put (a.doneOf c) →
      b = { a with freeCtr := a.freeCtr + launchDraws } → u = b.endRecord c j q r v { d with flags := d.flags ++ o.flags } →
      (a.poolServes j ((d.view.ovs.headD Overlay.empty).added c.staging) = true →
        exec (.solveOperationEnd t id) s = .next (if c.kind = .solve then u.endSolve id v else u)) ∧
      (∀ got : View, a.poolServes j ((d.view.ovs.headD Overlay.empty).added c.staging) = false →
        got = (b.poolGives j [] ((d.view.ovs.headD Overlay.empty).added c.staging).pages).foldl View.touch (b.courseView c) →
        exec (.solveOperationEnd t id) s = .next (b.updCourse id (fun (k : Course) =>
          { k with staging := got.ovs.headD k.staging, status := .waitPages, stalled := [.engine (k.engines.headD 0)] })))) ∧
    (∀ (e : Nat) (b : State), ((a.engines[e]?).map (·.up)).getD false = true →
      b = (State.cper { a with engines := a.engines.modify e (fun x => { x with up := false }) }
        { cls := 9, sev := sevRecoverable, unit := 144 + e, detail := [BitVec.ofNat 8 e] }).raiseFault 0 →
      (b.onUnit (.engine e) = none → exec (.cableEngineLost t e) s = .next b) ∧
      (∀ c, b.onUnit (.engine e) = some c → exec (.cableEngineLost t e) s = .next (b.faultCourse c (144 + e) 7 none true))) ∧
    (∀ e : Nat, ((a.engines[e]?).map (·.up)).getD false = false → exec (.cableEngineLost t e) s = .next a)

/-! ### Memory and the Stash -/

/-- The patrol scrub corrects or poisons a granule and leaves a hot stack alone; a failing row is repaired while its page has fewer than
two repairs and its bank a spare row, and otherwise its page is retired to the first replacement there is, whose physical page it then has,
or later; a transfer that keeps failing retrains its interface, for which accesses wait, and the third time within a second, or when the
retrain fails or does not end in time, its stack leaves service; a temperature sets the thermal step. Forms whose own effect completes
here: patrolScrub, rowRepair, pageRetirement, stackInterfaceRetrain, stackTemperatureSample (12 R337, R340 to R348). -/
def Obligations.MemoryErrors : Prop :=
  ∀ (s a : State) (t : Stitch), s.Reached t a →
    (∀ x k : Nat, k = a.homeStack (pageOf x) → (a.mem.stackTab.getD k Stack.reset).step < 4 → x < deviceBytes →
      (a.poisonedAt x = false → exec (.patrolScrub t x false false) s = .next a ∧ exec (.patrolScrub t x true false) s = .next (a.corrected x) ∧
        exec (.patrolScrub t x false true) s = .next (a.uncorrected x)) ∧
      (a.poisonedAt x = true → ∀ u, exec (.patrolScrub t x false u) s =
        .next (a.updStack k (fun (y : Stack) => { y with uncorrectable := satAdd 32 y.uncorrectable 1 })))) ∧
    (∀ (x : Nat) (c u : Bool), 4 ≤ (a.mem.stackTab.getD (a.homeStack (pageOf x)) Stack.reset).step → exec (.patrolScrub t x c u) s = .next a) ∧
    (∀ (x p k ph : Nat) (b : State), p = pageOf x → k = a.homeStack p → ph = a.physOf p → a.isHole p = false → a.rowFails p false = true → a.repairable p = true →
      b = a.updStack k (fun (y : Stack) => { y with repairs := satAdd 32 y.repairs 1, spareRowsLeft := y.spareRowsLeft - 1 }) →
      exec (.rowRepair t x false) s = .next (State.memEvent { b with mem := { b.mem with
        repairs := (ph, a.repairsOf p + 1) :: b.mem.repairs.filter (·.1 != ph)
        bankSpares := (a.bankOfPage p, a.sparesUsed p + 1) :: b.mem.bankSpares.filter (·.1 != a.bankOfPage p)
        corrected := b.mem.corrected.filter (·.1 != ph)
        uncorr := b.mem.uncorr.filter (· != ph) } } 1 k (p * pageBytes) 0 (a.repairsOf p + 1))) ∧
    (∀ p : Nat, a.repairable p = true ↔ a.repairsOf p < 2 ∧ a.sparesUsed p < 4) ∧
    (∀ p : Nat, a.rowFails p false = true ↔ a.physOf p ∈ a.mem.uncorr ∨
      8 ≤ (a.mem.corrected.filter (fun e => e.1 == a.physOf p && decide (a.stitch ≤ e.2 + 86400000000000))).length) ∧
    (∀ x : Nat, a.physOf (pageOf x) ∈ (a.uncorrected x).mem.uncorr) ∧
    (∀ (x : Nat) (uncorr : Bool), a.rowFails (pageOf x) uncorr = false →
      exec (.rowRepair t x uncorr) s = .next a ∧ exec (.pageRetirement t x uncorr) s = .next a) ∧
    (∀ (x p : Nat), p = pageOf x → a.isHole p = false → a.rowFails p false = true → a.repairable p = false →
      exec (.rowRepair t x false) s = .next a ∧
      (∀ h, a.source1 = some h → exec (.pageRetirement t x false) s = .next (a.retired p h)) ∧
      (∀ id h k, a.source1 = none → a.source2 p = some (id, h, k) → exec (.pageRetirement t x false) s =
        .next (State.memEvent ((a.updJob id (fun (j : Job) => { j with pool := j.pool.modify k (· - 1) })).retired p h) 8
          (a.homeStack h) (p * pageBytes) (h * pageBytes) 0)) ∧
      (a.source1 = none → a.source2 p = none → exec (.pageRetirement t x false) s =
        .next { a with mem := { a.mem with deferred := a.mem.deferred.filter (· != p) ++ [p] } })) ∧
    (∀ p h : Nat, (a.retired p h).isHole h = true ∧ (a.retired p h).dev.retiredPages = a.dev.retiredPages + 1 ∧
      (a.retired p h).dev.usablePages = a.dev.usablePages - 1 ∧ (a.retired p h).mem.cells = a.mem.cells ∧
      (∀ g, g ∈ (a.retired p h).mem.poison ↔ g ∈ a.mem.poison ∧ g / 32 ≠ h) ∧ (a.retired p h).jobs = a.jobs ∧
      (p ≠ h → (a.retired p h).physOf p = a.physOf h)) ∧
    (∀ (k : Nat) (y : Stack), a.mem.stackTab[k]? = some y →
      (y.state ≠ 1 → y.state ≠ 2 → ∀ ok, exec (.stackInterfaceRetrain t k ok) s = .next (a.updStack k (fun z => { z with
        state := 1, parityRetries := satAdd 32 z.parityRetries 4, retrains := satAdd 16 z.retrains 1
        recentRetrains := a.stitch :: z.recentRetrains.filter (fun r => decide (a.stitch < r + 1000000000)) }))) ∧
      (y.state = 1 → y.recentRetrains.length < 3 → a.stitch ≤ y.recentRetrains.headD 0 + 400000 → exec (.stackInterfaceRetrain t k true) s =
        .next ((a.updStack k (fun z => { z with state := 0 })).memEvent 5 k 0 0 0).serveBar2.drainSpill) ∧
      (∀ ok, y.state = 1 → ok = false ∨ 3 ≤ y.recentRetrains.length ∨ y.recentRetrains.headD 0 + 400000 < a.stitch →
        exec (.stackInterfaceRetrain t k ok) s = .next (a.loseStack k).serveBar2.drainSpill) ∧
      (y.state = 2 → ∀ ok, exec (.stackInterfaceRetrain t k ok) s = .next a)) ∧
    (∀ (k temp : Nat) (y : Stack), a.mem.stackTab[k]? = some y → a.bar2Wait = [] →
      (∀ j ∈ a.jobs, ∀ r, j.ring = some r → r.queued = []) → ∃ u z, exec (.stackTemperatureSample t k temp) s = .next u ∧
      u.mem.stackTab[k]? = some z ∧ z.temp = temp ∧ z.step = thermalStep y.step temp ∧
      (z.step = y.step → u.intr = a.intr ∧ u.stash.cper = a.stash.cper) ∧
      (4 ≤ z.step → u.pw.thermalHold = true) ∧ u.mem.cells = a.mem.cells ∧ u.jobs = a.jobs ∧ u.courses = a.courses ∧ u.rings = a.rings) ∧
    (∀ now temp : Nat, (temp < 82 → thermalStep now temp = 0) ∧ (100 ≤ temp → thermalStep now temp = 5) ∧
      (95 ≤ temp → 4 ≤ thermalStep now temp) ∧ (temp < 92 → thermalStep now temp < 4))

/-- A channel of the Stash that fails or returns is reported; a block past its scrub date is as new once scrubbed; of two blocks of an area
whose erase counts differ by more than 500 the less worn one is moved to the other; while a stack it needs is hot or retrains a copy
pauses; a checkpoint whose copy has been written is the latest of its set under the next sequence, one that failed leaves its set as it was
(logs 77, 78 and 128 name what is the model's reading here); a restore loads its sections up to the first bad one. Forms whose own effect
completes here: stashChannelChange, retentionScrub, wearLevelMove, checkpointWriteDone, restoreDone (12 R348, R351, R355, R356, R359,
R363). -/
def Obligations.StashWork : Prop :=
  ∀ (s a : State) (t : Stitch), s.Reached t a →
    (∀ (c : Nat) (bit : BitVec 16) (e : ErrEvent) (b d : State), c < 16 → bit = BitVec.ofNat 16 (2 ^ c) →
      e = { cls := 6, sev := sevCorrected, unit := 186, detail := [BitVec.ofNat 8 c] } → b = a.cper e →
      d = State.cper { a with stash := { a.stash with channels := a.stash.channels ||| bit } } e →
      (a.stash.channels.getLsbD c = true → exec (.stashChannelChange t c false) s =
        .next (State.raiseFault { b with stash := { b.stash with channels := b.stash.channels &&& ~~~bit } } 5) ∧
        exec (.stashChannelChange t c true) s = .next a) ∧
      (a.stash.channels.getLsbD c = false → exec (.stashChannelChange t c true) s = .next (d.raiseFault 5) ∧
        exec (.stashChannelChange t c false) s = .next a)) ∧
    (∀ b, (a.scrubDue b = true → a.dev.castOnComplete = true → exec (.retentionScrub t b) s =
      .next (State.flashWear { a.free.2 with stash := { a.stash with
        scrubbed := (b, (a.stitch : Int)) :: a.stash.scrubbed.filter (·.1 != b), bytesWritten := a.stash.bytesWritten + a.free.1.toNat } })) ∧
      (a.scrubDue b = false ∨ a.dev.castOnComplete = false → exec (.retentionScrub t b) s = .next a)) ∧
    (∀ b d, (b / 2 ^ 28 = d / 2 ^ 28 → a.erasesOf b + 500 < a.erasesOf d → exec (.wearLevelMove t b d) s =
      .next (State.flashWear { a with stash := { a.stash with
        erases := (b, a.erasesOf b + 1) :: a.stash.erases.filter (·.1 != b)
        scrubbed := (d, (a.stitch : Int)) :: a.stash.scrubbed.filter (fun e => e.1 != d && e.1 != b) } })) ∧
      (b / 2 ^ 28 ≠ d / 2 ^ 28 ∨ a.erasesOf d ≤ a.erasesOf b + 500 → exec (.wearLevelMove t b d) s = .next a)) ∧
    (∀ (r : CkptRun) (k : Ckpt) (rest : List CkptRun) (p : Bool × State), a.stash.runs = r :: rest → r.image = some k → r.started = true →
      (a.ckptPaused k = true → (∀ ok, exec (.checkpointWriteDone t ok) s = .next a) ∧ ∀ bad, exec (.restoreDone t bad) s = .next a) ∧
      (a.ckptPaused k = false → r.restore = false → p = a.copyPoisoned r k →
        (p.1 = false → p.2.stashOk = true → exec (.checkpointWriteDone t true) s = .next (p.2.flashWear.commitSlot r k).nextRun) ∧
        (p.1 = true ∨ p.2.stashOk = false → exec (.checkpointWriteDone t true) s = exec (.checkpointWriteDone t false) s) ∧
        exec (.checkpointWriteDone t false) s = .next (p.2.flashWear.failWrite r k).nextRun) ∧
      (a.ckptPaused k = false → r.restore = true → (∀ bad, exec (.checkpointWriteDone t bad) s = .next a) ∧
        (a.stashOk = true → exec (.restoreDone t none) s = .next (a.flashWear.endRestore r k none 0x0501)) ∧
        (∀ i : Nat, a.stashOk = true → exec (.restoreDone t (some i)) s = .next (a.lostPage.flashWear.endRestore r k (some i) 0x0501)) ∧
        (∀ bad, a.stashOk = false → exec (.restoreDone t bad) s =
          .next (a.free.2.endRestore r k (some (a.free.1.toNat % (k.sections.length + 1))) 0x0600)))) ∧
    (a.stash.runs = [] → (∀ ok, exec (.checkpointWriteDone t ok) s = .next a) ∧ ∀ bad, exec (.restoreDone t bad) s = .next a)

/-! ### Power -/

/-- A unit that has been idle long enough enters the state that is permitted, and a panel in Idle-deep keeps no registers; with every unit
in Idle-deep for 10 ms the module enters Standby, after 60 s of it Hibernate, whose image is memory (the model's choice of log 23); a wake
starts the exit, the unit or the module is Active when it has ended, a unit in a state that its measured latency no longer permits exits
too, and a timed launch wakes its unit in time. Forms whose own effect completes here: timedWake, idleShallowEntry, idleDeepEntry,
standbyEntry, hibernateEntry, powerStateWake, hibernateExit, powerStateExitDone (14 R394 to R400). -/
def Obligations.PowerStates : Prop :=
  ∀ (s a : State) (t : Stitch) (u : PwTarget), s.Reached t a →
    (isUnitTarget u = true → a.targetIdle u = true →
      (a.pwOf u = 0 → a.idleSince u + 2000 ≤ a.stitch → a.permits 1 = true → a.fitsTimed u 1 = true →
        exec (.idleShallowEntry t u) s = .next (a.setPw u 1)) ∧
      (a.pwOf u < 2 → a.idleSince u + 500000 ≤ a.stitch → a.permits 2 = true → a.fitsTimed u 2 = true → a.testsRemain u = false →
        ∃ v, exec (.idleDeepEntry t u) s = .next v ∧ v.pw = { (a.setPw u 2).pw with moduleSince := a.stitch } ∧
          v = { a with pw := v.pw, needles := v.needles, freeCtr := v.freeCtr } ∧
          (∀ e, u = .engine e → v.needles = a.needles) ∧ v.needles.map (·.state) = a.needles.map (·.state))) ∧
    (a.targetIdle u = false ∨ a.permits 1 = false ∨ a.stitch < a.idleSince u + 2000 → exec (.idleShallowEntry t u) s = .next a) ∧
    (a.targetIdle u = false ∨ a.permits 2 = false ∨ a.stitch < a.idleSince u + 500000 → exec (.idleDeepEntry t u) s = .next a) ∧
    (a.pw.module = 0 → a.targetIdle .module = true → a.pw.exits = [] → a.pw.moduleSince + 10000000 ≤ a.stitch → a.standbyClear = true → a.permits 3 = true →
      a.fitsTimed .module 3 = true →
      exec (.standbyEntry t) s = .next { a with pw := { a.pw with module := 3, moduleSince := a.stitch, transition := 0 } }) ∧
    (a.pw.module ≠ 0 ∨ a.standbyClear = false → exec (.standbyEntry t) s = .next a) ∧
    (a.pw.module = 3 → a.pw.exits = [] →
      (a.pw.transition = 0 → a.hibernateClear = true → a.permits 4 = true → a.pw.moduleSince + 60000000000 ≤ a.stitch →
        a.fitsTimed .module 4 = true → exec (.hibernateEntry t) s = .next { a with
          pw := { a.pw with transition := 1 }
          stash := { a.stash with
            hibernate := some a.mem.cells
            bytesWritten := a.stash.bytesWritten + 2048 * (a.jobRanges.map (fun r => (r.2 + 2047) / 2048)).sum } }) ∧
      (a.pw.transition = 1 → ∃ v, exec (.hibernateEntry t) s = .next v ∧ v.pw.module = 4 ∧
        (a.skein.member = false → v.mem = a.mem ∧ v.stash.hibernate = a.stash.hibernate ∧ v.stash.ckpts = a.stash.ckpts) ∧ v.jobs = a.jobs ∧
        v.courses = a.courses ∧ v.rings = a.rings ∧ ∀ l ∈ v.links, l.state = 0)) ∧
    (u ≠ .module → a.pw.module < 3 → (a.pwOf u ≠ 0 → a.pw.exits.any (·.1 == u) = false →
        exec (.powerStateWake t u) s = .next { a with pw := { a.pw with exits := a.pw.exits ++ [(u, a.stitch)] } }) ∧
      (a.pwOf u = 0 → exec (.powerStateWake t u) s = .next a)) ∧
    (3 ≤ a.pw.module → exec (.powerStateWake t u) s = .next a.wakeModule) ∧
    exec (.powerStateWake t .module) s = .next a.wakeModule ∧
    (a.pw.module = 4 → a.pw.exits = [] → a.wakeModule = { a with pw := { a.pw with exits := [(.module, a.stitch)], transition := 2 } }) ∧
    (∀ l : Nat, nextTimed (a.waking u) = some l →
      (l ≤ a.stitch + 1000 * a.exitLatency (a.pwOf u) + 1000 → exec (.timedWake t u) s = .next (a.wake u)) ∧
      (a.stitch + 1000 * a.exitLatency (a.pwOf u) + 1000 < l → exec (.timedWake t u) s = .next a)) ∧
    (∀ m : List Host.Cell, a.stash.hibernate = some m → a.pw.module = 4 → a.pw.exits.any (·.1 == .module) = true →
      exec (.hibernateExit t []) s = .next { a with
        mem := { a.mem with cells := m }, stash := { a.stash with hibernate := none }
        links := a.links.map (fun (l : Link) => { l with state := 1, rate := 0 }) }) ∧
    (∀ (p since : Nat) (b : State), a.pw.exits.find? (·.1 == .panel p) = some (.panel p, since) → a.pw.tolWait = none →
      b = a.measureExit (a.pw.panels.getD p 0) since → exec (.powerStateExitDone t (.panel p)) s = .next (State.exitDeeper { b with pw := { b.pw with
        exits := b.pw.exits.filter (·.1 != .panel p), panels := b.pw.panels.set p 0, panelIdle := b.pw.panelIdle.set p a.stitch } })) ∧
    (∀ (e since : Nat) (b : State), a.pw.exits.find? (·.1 == .engine e) = some (.engine e, since) → a.pw.tolWait = none →
      b = a.measureExit (a.pw.engines.getD e 0) since → exec (.powerStateExitDone t (.engine e)) s = .next (State.exitDeeper { b with pw := { b.pw with
        exits := b.pw.exits.filter (·.1 != .engine e), engines := b.pw.engines.set e 0, engineIdle := b.pw.engineIdle.set e a.stitch } })) ∧
    (∀ (d : State) (v : PwTarget), isUnitTarget v = true → d.pw.module < 3 → d.pwOf v ≠ 0 → d.permits (d.pwOf v) = false → d.exitDeeper.pw.exits.any (·.1 == v) = true) ∧
    (∀ since : Nat, a.pw.exits.find? (·.1 == .module) = some (.module, since) → a.pw.tolWait = none →
      a.pw.module ≠ 4 ∨ a.stash.hibernate = none → a.bar2Wait = [] → ∃ v, exec (.powerStateExitDone t .module) s = .next v ∧ v.pw.module = 0 ∧
        v.pw.panels = List.replicate 12 0 ∧ v.pw.engines = List.replicate 8 0 ∧ v.mem = a.mem ∧ v.jobs = a.jobs ∧ v.courses = a.courses) ∧
    (a.pw.exits.find? (·.1 == u) = none → exec (.powerStateExitDone t u) s = .next a)

/-- A power sample sets its die's clock from the draw and the least of the power limits (the model's reading of logs 24 and 129), and holds
launches while both dies crawl above it; an overcurrent drops both clocks; a die at 105 °C stretches; POWER_HOST_CAP takes its bounds; a
failed bridge group is replaced twice, and the third stops the issuing of courses. Forms whose own effect completes here:
powerHostCapWrite, powerSample, overcurrentEvent, bridgeLaneGroupFail, dieThrottleTemperature (01 R17; 14 R402 to R404). -/
def Obligations.PowerMeasured : Prop :=
  ∀ (s a : State) (t : Stitch), s.Reached t a →
    (∀ (draw volt cur limit clock : Nat), limit = min (min a.cfg.fields.powerLimit a.pw.hostCap)
        (if volt = 0 then a.startLimit else min (40 * volt / 100) a.startLimit) →
      clock = nextClock a.pw.clockW draw limit a.pw.hotW →
      exec (.powerSample t false draw volt cur) s = .next { a with pw := { a.pw.addSample a.stitch draw volt cur with
        clockW := clock
        launchHold := if draw < limit then false else a.pw.launchHold || (decide (limit < draw) && clock == 325 && a.pw.clockE == 325) } }) ∧
    (∀ (draw volt cur limit clock : Nat), limit = min (min a.cfg.fields.powerLimit a.pw.hostCap)
        (if volt = 0 then a.startLimit else min (40 * volt / 100) a.startLimit) →
      clock = nextClock a.pw.clockE draw limit a.pw.hotE →
      exec (.powerSample t true draw volt cur) s = .next { a with pw := { a.pw.addSample a.stitch draw volt cur with
        clockE := clock
        launchHold := if draw < limit then false else a.pw.launchHold || (decide (limit < draw) && a.pw.clockW == 325 && clock == 325) } }) ∧
    (∀ (f draw limit : Nat) (hot : Bool), 325 ≤ f → f ≤ 1300 → 325 ≤ nextClock f draw limit hot ∧ nextClock f draw limit hot ≤ 1300 ∧
      (limit < draw → nextClock f draw limit hot = max 325 (f - 5 * max 1 ((draw - limit) * 100 / max limit 1)))) ∧
    (∀ w : Word, exec (.powerHostCapWrite t w) s = .next { a with pw := { a.pw with hostCap := min 1650 (max 600 (w.toNat % 65536)) } }) ∧
    (∀ cur, 4000 < cur → exec (.overcurrentEvent t cur) s =
      .next { a with pw := { a.pw with current := cur, clockW := min a.pw.clockW 650, clockE := min a.pw.clockE 650 } }) ∧
    (∀ cur, cur ≤ 4000 → exec (.overcurrentEvent t cur) s = .next a) ∧
    (∀ temp, 105 ≤ temp → exec (.dieThrottleTemperature t false temp) s =
      .next { a with pw := { a.pw with tempW := temp, hotW := true, clockW := max 325 (a.pw.clockW - 5) } } ∧
      exec (.dieThrottleTemperature t true temp) s =
      .next { a with pw := { a.pw with tempE := temp, hotE := true, clockE := max 325 (a.pw.clockE - 5) } }) ∧
    (∀ temp, temp < 105 → exec (.dieThrottleTemperature t false temp) s = .next { a with pw := { a.pw with tempW := temp, hotW := false } } ∧
      exec (.dieThrottleTemperature t true temp) s = .next { a with pw := { a.pw with tempE := temp, hotE := false } }) ∧
    (∀ (g n : Nat) (b : State), a.dev.failedGroups.contains g = false → g < 66 → n = a.dev.failedGroups.length + 1 →
      b = { a with dev := { a.dev with failedGroups := a.dev.failedGroups ++ [g], issuingStopped := a.dev.issuingStopped || decide (3 ≤ n) } } →
      exec (.bridgeLaneGroupFail t g) s = .next ((b.raiseFault 4).cper { cls := 8, sev := if 3 ≤ n then sevFatal else sevCorrected
                                                                         status := if 3 ≤ n then 0x0600 else 0
                                                                         detail := [BitVec.ofNat 8 g, BitVec.ofNat 8 (2 - n)] })) ∧
    (∀ g : Nat, a.dev.failedGroups.contains g = true ∨ 66 ≤ g → exec (.bridgeLaneGroupFail t g) s = .next a)

/-! ### Scale state -/

/-- A step's outcome appends the attempt maxima of its deciding attempt to the histories, of a commit to all of them, of a skip to those of
the activation kind: a maximum stands first, the older ones move up by one, the seventeenth drops out, and a tensor without a maximum is
not appended; the scale of the gradients and the counts change with it (08 R230, R236). -/
def Obligations.ScaleKept : Prop :=
  (∀ (j : Job) (p : Step), (j.outcome p false).scale = j.scale.commit p.maxima p.number ∧
    (j.outcome p true).scale = j.scale.skip p.maxima p.number) ∧
  ∀ (x : Scale) (ms : List (Word × Word)) (step i : Nat) (h : Hist), x.hists[i]? = some h →
    (x.commit ms step).hists[i]? = some (match ms.lookup h.tensorId with
      | some m => { h with maxima := (m :: h.maxima).take 16, newestStep := step }
      | none => h) ∧
    (x.skip ms step).hists[i]? = some (match ms.lookup h.tensorId with
      | some m => if h.kind = 3 then { h with maxima := (m :: h.maxima).take 16, newestStep := step } else h
      | none => h) ∧
    (x.skip ms step).g = max (x.g - 1) (-24) ∧ (x.skip ms step).clean = 0 ∧ (x.skip ms step).commits = x.commits ∧
    (x.commit ms step).commits = x.commits + 1 ∧
    (x.clean + 1 < 1000 → (x.commit ms step).clean = x.clean + 1 ∧ (x.commit ms step).g = x.g) ∧
    (1000 ≤ x.clean + 1 → (x.commit ms step).clean = 0 ∧ (x.commit ms step).g = if x.g < 0 then x.g + 1 else x.g)

/-! ### Firmware, debug, management -/

/-- An activation is handed over at its point and, in the model's two commands of log 25, then runs, the completions and the trace records
that the handover held back being written before its own; an image of another major version clears the exit histories; its units switch at
their boundaries, its trial ends after 60 s; a debug token lapses; instructions, samples and console input need its permissions; a request
that reaches the responder, at the strapped SMBus address or in UDP at port 61,440, is answered; the Ethernet port takes its address, after
10 s without one a link-local one; a snapshot's copy ends its command. Forms whose own effect completes here: fwHandover,
unitMicrocodeSwitch, fwTrialExpiry, debugTokenExpiry, spdmRequest, dhcpFallbackTimeout, uartRxCharacter, snapshotReadDone, obsSample,
jtagInstruction, dhcpAddress (03 R119; 14 R397, R412, R415; 15 R435, R437, R440; 16 R450, R451, R454). -/
def Obligations.FirmwareAndDebug : Prop :=
  ∀ (s a : State) (t : Stitch), s.Reached t a →
    (a.fw.activation = none → exec (.fwHandover t) s = .next a) ∧
    (∀ (tag : CmdTag) (n : Nat), a.fw.activation = some (tag, n) →
      (a.dev.fwActivating = false → a.handoverPoint = true →
        exec (.fwHandover t) s = .next { a with dev := { a.dev with fwActivating := true } }) ∧
      (a.dev.fwActivating = false → a.handoverPoint = false → exec (.fwHandover t) s = .next a) ∧
      (∀ (k : Bank) (b : State), a.dev.fwActivating = true → k = a.fw.bank a.fw.activeB → b =
        { a with
          pw := { a.pw with histories :=
            if a.fw.running.toNat / 2 ^ 24 = k.version.toNat / 2 ^ 24 then a.pw.histories else List.replicate 4 [] }
          dev := { a.dev with fwActivating := false }
          fw := { a.fw with
            runningB := a.fw.activeB, running := k.version, runningSec := k.security, trialSince := a.stitch, activation := none
            staging := none, otherOverwritten := false, reload := reloadUnits, late := [], before := a.fw.running } } →
        exec (.fwHandover t) s = .next ((a.fw.late.foldl State.complete b).writeHeld.finish tag [0] (k.version.toNat + 2 ^ 32 * k.security)))) ∧
    (∀ u, a.fw.reload.contains u = true → a.mayReload u = true → exec (.unitMicrocodeSwitch t u) s =
      .next { a with fw := { a.fw with reload := a.fw.reload.filter (· != u) } }) ∧
    (∀ u, a.fw.reload.contains u = false ∨ a.mayReload u = false → exec (.unitMicrocodeSwitch t u) s = .next a) ∧
    (a.fw.trial = true → a.fw.activation = none → a.fw.runningB = a.fw.activeB → a.fw.trialSince + 60000000000 ≤ a.stitch →
      exec (.fwTrialExpiry t) s = .next { a with fw := { a.fw with trial := false, floor := max a.fw.floor a.fw.runningSec } }) ∧
    (a.stitch < a.fw.trialSince + 60000000000 → exec (.fwTrialExpiry t) s = .next a) ∧
    (a.dbg.token.isSome = true → a.tokenNow = none → exec (.debugTokenExpiry t) s =
      .next { a with dbg := { a.dbg with token := none, obsControl := a.dbg.obsControl &&& 0xE } }) ∧
    (a.tokenNow.isSome = true → exec (.debugTokenExpiry t) s = .next a) ∧
    (∀ code, exec (.jtagInstruction t (.boundaryScan code)) s = .next { a with dbg := { a.dbg with jtag := some (.boundaryScan code) } } ∧
      exec (.jtagInstruction t (.priv code)) s =
        .next (if a.permitted 2 then { a with dbg := { a.dbg with jtag := some (.priv code) } } else a)) ∧
    (a.obsActive = false → exec (.obsSample t) s = .next a) ∧
    (∀ sync : Bool, a.obsActive = true → a.groupRefused = true →
      sync = (a.dbg.obsControl.getLsbD 1 && decide (a.dbg.lastSync / 65536 < a.stitch / 65536)) →
      exec (.obsSample t) s = .next (State.emit { a with dbg := { a.dbg with samples := satAdd 64 a.dbg.samples 1, lastSync := a.stitch } } (.obs 0 sync))) ∧
    (∀ sync : Bool, a.obsActive = true → a.dbg.obsSelect = 0 →
      sync = (a.dbg.obsControl.getLsbD 1 && decide (a.dbg.lastSync / 65536 < a.stitch / 65536)) →
      exec (.obsSample t) s = .next (State.emit { a with dbg := { a.dbg with samples := satAdd 64 a.dbg.samples 1, lastSync := a.stitch } }
        (.obs (BitVec.ofNat 16 (a.stitch % 65536)) sync))) ∧
    (∀ ch, exec (.uartRxCharacter t ch) s = .next (if a.permitted 3 && a.cfg.castConsole == 1 then
      { a with dbg := { a.dbg with console := a.dbg.console ++ [ch] } } else a)) ∧
    (∀ address : Nat, a.spdmReaches (.smbus address) = true ↔ address = 0x40 + a.mgmt.strap.toNat) ∧
    (∀ port : Nat, a.spdmReaches (.udp port) = true ↔ port = 61440 ∧ a.mgmt.ipv4.isSome = true) ∧
    (∀ (via : MgmtPath) (i : Byte) (nonce : List Byte), a.spdmReaches via = true → a.mgmt.spdmNegotiated = true → 1 ≤ i.toNat → i.toNat ≤ 8 → exec (.spdmRequest t via (.getMeasurements i nonce)) s =
      .next (a.emit (.spdm (spdmSigned (Config.spdmBody 0xE0 i.toNat ++ a.measurement i.toNat ++ nonce))))) ∧
    (∀ via sig hash, a.spdmReaches via = true → exec (.spdmRequest t via (.negotiateAlgorithms sig hash)) s = .next (State.emit
      { a with mgmt := { a.mgmt with spdmNegotiated := sig.getLsbD 5 && hash.getLsbD 2 } }
      (.spdm (if sig.getLsbD 5 && hash.getLsbD 2 then Config.spdmBody 0xE3 0 else Config.spdmBody 0x7F 0)))) ∧
    (∀ via req, a.spdmReaches via = false → exec (.spdmRequest t via req) s = .next a) ∧
    (∀ addr, exec (.dhcpAddress t addr) s = .next { a with mgmt := { a.mgmt with ipv4 := some addr, linkLocal := false } }) ∧
    (a.mgmt.ipv4 = none → a.mgmt.dhcpSince + 10000000000 ≤ a.stitch → exec (.dhcpFallbackTimeout t) s = .next { a with
      freeCtr := a.freeCtr + 1
      mgmt := { a.mgmt with ipv4 := some (0xA9FE0000 + (a.free.1.setWidth 16).setWidth 32), linkLocal := true } }) ∧
    (a.mgmt.ipv4.isSome = true ∨ a.stitch < a.mgmt.dhcpSince + 10000000000 → exec (.dhcpFallbackTimeout t) s = .next a) ∧
    (∀ (job id : Word) (x : SnapRun) (j : Job) (done d : State), a.snaps.find? (fun x => x.tag.jobId == job && x.tag.commandId == id) = some x →
      a.job? job = some j → (a.snapCopy j x 0 x.entries).2 = none → done = (a.snapCopy j x 0 x.entries).1 →
      d = State.finish { done with snaps := done.snaps.erase x } x.tag [0] (x.view.getD counterMax) →
      exec (.snapshotReadDone t job id) s = .next ((d.sweepViews job).tryClose job))

/-! ### Every command -/

/-- A host command that does not stand at the head of its source waits: only time passes; in recovery the commands that are not served
there, and while a stack is lost the commands of an open job, end with DEVICE_FAULT (02 R58, R68; 12 R341; 14 R407). -/
def Obligations.HostCommandsWait : Prop :=
  ∀ (s a : State) (i : Instr) (t : Stitch) (src : Src) (io : HostIo) (op : Nat) (recovery : Bool), s.Reached t a →
    hostRow i = some (t, src, io, op, recovery) →
    (a.headEntry src = none → exec i s = .next a) ∧
    (∀ f, a.headEntry src = some f → opcodeRow src (a.srcRev src) (entryOpcode (a.srcRev src) f.entry) ≠ some op → exec i s = .next a) ∧
    (∀ f, a.headEntry src = some f → opcodeRow src (a.srcRev src) (entryOpcode (a.srcRev src) f.entry) = some op →
      (a.dev.castOnPhase = 0xFE ∧ recovery = false) ∨ a.jobFault (a.cmd src io f).tag op = true →
      exec i s = .next ((a.pop src).finish (a.cmd src io f).tag [0x0600] 0))

/-- One step takes the command at the front of the queue and runs it on the state with the queue's rest; with an empty queue one stitch
passes, and while cast-on runs its current phase ends, which is the model's choice of logs 1 and 49 (04 R120). -/
def Obligations.StepRunsFront : Prop :=
  (∀ (s : State) (i : Instr) (rest : List Instr), s.pending = i :: rest → step s = exec i { s with pending := rest }) ∧
  (∀ s b : State, s.pending = [] → b = s.advance (s.stitch + 1) → step s = .next (if b.castingOn then b.castPhase else b))

/-- What the spec gives for reset: the counter at 0 and held, cast-on in its first phase and the host not ready, the mailbox and the rings
idle, nothing pending or masked away, no job, course or cut, memory with nothing listed, and the registers at the reset values of their
tables (02 R46, R51 to R55; 04 R124; 14 R404, R405; 15 R419). -/
def Obligations.ResetState : Prop :=
  State.reset.MemOk ∧ State.reset.pending = [] ∧ State.reset.stitch = 0 ∧ State.reset.counting = false ∧ State.reset.up = false ∧
  State.reset.dev.castOnPhase = 0 ∧ State.reset.dev.castOnComplete = false ∧ State.reset.dev.hostReady = false ∧
  State.reset.dev.scratch = 0 ∧ State.reset.dev.bar2Base = 0 ∧ State.reset.admin.busy = false ∧ State.reset.admin.done = false ∧
  State.reset.admin.overrun = false ∧ State.reset.admin.command = List.replicate 64 0 ∧ State.reset.admin.phase = true ∧
  (∀ r, r < 32 → (State.reset.ring r).enable = false ∧ (State.reset.ring r).enabled = false ∧ (State.reset.ring r).sqBase = 0 ∧
    (State.reset.ring r).cqBase = 0 ∧ (State.reset.ring r).sizeLog2 = 4 ∧ (State.reset.ring r).revision = 2 ∧
    (State.reset.ring r).priority = 0) ∧
  State.reset.intr.ringCpl = 0 ∧ State.reset.intr.ringAttn = 0 ∧ State.reset.intr.fault = 0 ∧ State.reset.intr.timing = 0 ∧
  State.reset.intr.maskMain = 0 ∧ State.reset.intr.maskRingCpl = 0 ∧ State.reset.intr.maskRingAttn = 0 ∧
  State.reset.jobs = [] ∧ State.reset.courses = [] ∧ State.reset.cut = none ∧ State.reset.pw.hostCap = 1650 ∧
  State.reset.pw.throttle = 0 ∧ State.reset.time.missed = 0 ∧ State.reset.time.outputControl = 0 ∧ State.reset.gauge.control = 0 ∧
  State.reset.gauge.delay = 0 ∧ (∀ row ∈ State.reset.cnt.units, ∀ v ∈ row, v = 0) ∧ (∀ v ∈ State.reset.cnt.events, v = 0)

/-- The passing of time to a command's stitch changes the stitch, the counters and waits that stitches are booked to, the stitches needles
still owe to swatches, the core cycles and the throttle count, the stacks' hold counts and, where a wait ends, the trace with its spill; it
changes no other part of the block, and without a wait no memory (04 R120; 05 R174; 12 R349; 13 R369; 14 R404; 15 R417, R427). -/
def Obligations.TimePasses : Prop :=
  ∀ (s u : State) (t : Stitch), u = s.advance t →
    (s.counting = true → s.up = true → s.stitch < t → u.stitch = t ∧
      u.pw.throttle = (if s.pw.clockW < 1300 ∨ s.pw.clockE < 1300 then satAdd 64 s.pw.throttle (t - s.stitch) else s.pw.throttle) ∧
      u = { s with
        stitch := u.stitch, freeCtr := u.freeCtr, cnt := u.cnt, courses := u.courses, jobs := u.jobs, trace := u.trace, needles := u.needles
        pw := { s.pw with throttle := u.pw.throttle, throttleAt := u.pw.throttleAt, cyclesW := u.pw.cyclesW, cyclesE := u.pw.cyclesE }
        stash := { s.stash with bytesWritten := u.stash.bytesWritten }
        mem := { s.mem with cells := u.mem.cells, stackTab := u.mem.stackTab } } ∧
      u.needles = s.needles.map (fun (x : Needle) => { x with swatchLeft := x.swatchLeft - (t - s.stitch) }) ∧
      u.jobs.map (·.id) = s.jobs.map (·.id) ∧ u.courses.map (·.id) = s.courses.map (·.id) ∧
      u.pw.cyclesW = s.pw.cyclesW + (t - s.stitch) * s.pw.clockW ∧ u.pw.cyclesE = s.pw.cyclesE + (t - s.stitch) * s.pw.clockE ∧
      (s.trace.hostAcc = [] → (∀ c ∈ s.courses, c.waitAcc = []) → u.mem.cells = s.mem.cells ∧ u.freeCtr = s.freeCtr)) ∧
    (s.counting = false ∨ s.up = false ∨ t ≤ s.stitch → u = s)

/-- Every command answers a next state from every state, but PWR_CYCLE for a time between 10 ms and 100 ms, whose result the spec leaves
undefined. The events of power, firmware, debug and management complete with their own effect, said here once more in short: a state is
entered, a wake begins and ends, a clock is set, an activation runs, a unit switches, a trial ends, a token lapses, a sample leaves, a
console takes a character, a request is answered, an address is taken. Forms whose own effect completes here: timedWake, idleShallowEntry,
idleDeepEntry, standbyEntry, hibernateEntry, powerStateWake, hibernateExit, powerStateExitDone, powerSample, overcurrentEvent,
bridgeLaneGroupFail, fwHandover, unitMicrocodeSwitch, fwTrialExpiry, debugTokenExpiry, spdmRequest, dhcpFallbackTimeout, uartRxCharacter,
snapshotReadDone, dieThrottleTemperature, obsSample, jtagInstruction, dhcpAddress (14 R394, R395, R399, R400, R403, R412, R415; 15 R435,
R437; 16 R445, R451, R454). -/
def Obligations.CommandsComplete : Prop :=
  (∀ (s : State) (i : Instr), (∀ t d, i = .pwrCycleAssert t d → d < 10000000 ∨ 100000000 ≤ d) → ∃ u, exec i s = .next u) ∧
  ∀ (s a : State) (t : Stitch), s.Reached t a →
    (∀ p, p < 12 → a.targetIdle (.panel p) = true → a.pw.panels.getD p 0 = 0 → a.pw.panelIdle.getD p 0 + 2000 ≤ a.stitch →
      a.permits 1 = true → a.fitsTimed (.panel p) 1 = true →
      ∃ u, exec (.idleShallowEntry t (.panel p)) s = .next u ∧ u.pw.panels = a.pw.panels.set p 1) ∧
    (∀ p, p < 12 → a.targetIdle (.panel p) = true → a.pw.panels.getD p 0 < 2 → a.pw.panelIdle.getD p 0 + 500000 ≤ a.stitch →
      a.permits 2 = true → a.fitsTimed (.panel p) 2 = true → a.testsRemain (.panel p) = false →
      ∃ u, exec (.idleDeepEntry t (.panel p)) s = .next u ∧ u.pw.panels = a.pw.panels.set p 2) ∧
    (a.pw.module = 0 → a.targetIdle .module = true → a.pw.exits = [] → a.pw.moduleSince + 10000000 ≤ a.stitch → a.standbyClear = true →
      a.permits 3 = true → a.fitsTimed .module 3 = true → ∃ u, exec (.standbyEntry t) s = .next u ∧ u.pw.module = 3) ∧
    (a.pw.module = 3 → a.pw.exits = [] → a.pw.transition = 0 → a.hibernateClear = true → a.permits 4 = true →
      a.pw.moduleSince + 60000000000 ≤ a.stitch → a.fitsTimed .module 4 = true →
      ∃ u, exec (.hibernateEntry t) s = .next u ∧ u.stash.hibernate = some a.mem.cells ∧ u.pw.transition = 1) ∧
    (a.pw.module = 3 → a.pw.exits = [] → a.pw.transition = 1 → ∃ u, exec (.hibernateEntry t) s = .next u ∧ u.pw.module = 4) ∧
    (∀ m : List Host.Cell, a.stash.hibernate = some m → a.pw.module = 4 → a.pw.exits.any (·.1 == .module) = true →
      ∃ u, exec (.hibernateExit t []) s = .next u ∧ u.mem.cells = m ∧ u.stash.hibernate = none ∧ ∀ l ∈ u.links, l.state = 1) ∧
    (∀ p, a.pw.panels.getD p 0 ≠ 0 → a.pw.module < 3 → a.pw.exits = [] →
      (∃ u, exec (.powerStateWake t (.panel p)) s = .next u ∧ u.pw.exits = [(.panel p, a.stitch)]) ∧
      (∀ l, nextTimed (a.waking (.panel p)) = some l → l ≤ a.stitch →
        ∃ u, exec (.timedWake t (.panel p)) s = .next u ∧ u.pw.exits = [(.panel p, a.stitch)])) ∧
    (∀ p since, a.pw.exits = [(.panel p, since)] → a.pw.tolWait = none →
      ∃ u, exec (.powerStateExitDone t (.panel p)) s = .next u ∧ u.pw.exits.any (·.1 == .panel p) = false ∧ u.pw.panels = a.pw.panels.set p 0) ∧
    (∀ (east : Bool) (draw volt cur : Nat), ∃ u, exec (.powerSample t east draw volt cur) s = .next u ∧ u.pw.draw = draw ∧ u.pw.vin = volt ∧
      u.pw.current = cur) ∧
    (∀ cur, 4000 < cur → ∃ u, exec (.overcurrentEvent t cur) s = .next u ∧ u.pw.current = cur ∧ u.pw.clockW ≤ 650 ∧ u.pw.clockE ≤ 650) ∧
    (∀ temp, ∃ u, exec (.dieThrottleTemperature t true temp) s = .next u ∧ u.pw.tempE = temp ∧ u.pw.hotE = decide (105 ≤ temp)) ∧
    (∀ g, a.dev.failedGroups = [] → g < 66 → ∃ u, exec (.bridgeLaneGroupFail t g) s = .next u ∧ u.dev.failedGroups = [g] ∧
      u.dev.issuingStopped = a.dev.issuingStopped) ∧
    (∀ (tag : CmdTag) (n : Nat), a.fw.activation = some (tag, n) →
      (a.dev.fwActivating = false → a.handoverPoint = true → ∃ u, exec (.fwHandover t) s = .next u ∧ u.dev.fwActivating = true) ∧
      (a.dev.fwActivating = true → ∃ u, exec (.fwHandover t) s = .next u ∧ u.dev.fwActivating = false ∧ u.fw.activation = none ∧
        u.fw.runningB = a.fw.activeB)) ∧
    (∀ n, a.fw.reload.contains n = true → a.mayReload n = true →
      ∃ u, exec (.unitMicrocodeSwitch t n) s = .next u ∧ u.fw.reload.contains n = false) ∧
    (a.fw.trial = true → a.fw.activation = none → a.fw.runningB = a.fw.activeB → a.fw.trialSince + 60000000000 ≤ a.stitch →
      ∃ u, exec (.fwTrialExpiry t) s = .next u ∧ u.fw.trial = false ∧ a.fw.runningSec ≤ u.fw.floor) ∧
    (a.dbg.token.isSome = true → a.tokenNow = none → ∃ u, exec (.debugTokenExpiry t) s = .next u ∧ u.dbg.token = none) ∧
    (∀ code, ∃ u, exec (.jtagInstruction t (.boundaryScan code)) s = .next u ∧ u.dbg.jtag = some (.boundaryScan code)) ∧
    (a.obsActive = true → ∃ u data sync, exec (.obsSample t) s = .next u ∧ u.dbg.samples = satAdd 64 a.dbg.samples 1 ∧
      u.out = a.out ++ [.obs data sync]) ∧
    (∀ ch, a.permitted 3 = true → a.cfg.castConsole = 1 → ∃ u, exec (.uartRxCharacter t ch) s = .next u ∧ u.dbg.console = a.dbg.console ++ [ch]) ∧
    (∀ via sig hash, a.spdmReaches via = true → ∃ u data, exec (.spdmRequest t via (.negotiateAlgorithms sig hash)) s = .next u ∧ u.out = a.out ++ [.spdm data] ∧
      u.mgmt.spdmNegotiated = (sig.getLsbD 5 && hash.getLsbD 2)) ∧
    (∀ addr, ∃ u, exec (.dhcpAddress t addr) s = .next u ∧ u.mgmt.ipv4 = some addr) ∧
    (a.mgmt.ipv4 = none → a.mgmt.dhcpSince + 10000000000 ≤ a.stitch → ∃ u addr, exec (.dhcpFallbackTimeout t) s = .next u ∧ u.mgmt.ipv4 = some addr ∧ addr.toNat / 65536 = 0xA9FE) ∧
    (∀ (job id : Word) (x : SnapRun) (j : Job), a.snaps.find? (fun x => x.tag.jobId == job && x.tag.commandId == id) = some x →
      a.job? job = some j → (a.snapCopy j x 0 x.entries).2 = none →
      ∃ u, exec (.snapshotReadDone t job id) s = .next u ∧ u.snaps = a.snaps.erase x)

/-- From every state, a step that answers a next state keeps device memory and the image of it in canonical form, leaves standing what was
driven outward, but for the frames of links, which the end of a link or of a course takes back before their frame times, and leaves the
rest of the queue (03 R81; 10 R308; 11 R332; 12 R338). -/
def Obligations.StepKeeps : Prop :=
  ∀ s u : State, s.MemOk → step s = .next u → u.MemOk ∧ s.lastingOut <+: u.lastingOut ∧ u.pending = s.pending.tail

end
end

