-- ==== Sys2Proof/Laws/Frames.lean ====
section
/-! SUPPORT. The frames in which every command runs: what `act`, `actRead` and `host` answer. -/

namespace Sys2Proof.Machine

/-- A command of a module that is up runs its effect on the state at its stitch. -/
theorem act_up {s : State} {t : Stitch} {f : State → State} (h : (s.advance t).up = true) : s.act t f = .next (f (s.advance t)) := by
  simp [State.act, h]

/-- A command of a module that is down only lets time pass. -/
theorem act_down {s : State} {t : Stitch} {f : State → State} (h : (s.advance t).up = false) : s.act t f = .next (s.advance t) := by
  simp [State.act, h]

/-- A read of a module that is up runs its effect. -/
theorem actRead_up {s : State} {t : Stitch} {n : Nat} {f : State → State} (h : (s.advance t).up = true) :
    s.actRead t n f = .next (f (s.advance t)) := by
  simp [State.actRead, h]

/-- A command at its stitch, of a module that is up, runs its effect. -/
theorem act_reached {s a : State} {t : Stitch} {f : State → State} (h : s.Reached t a) : s.act t f = .next (f a) := by
  obtain ⟨rfl, h⟩ := h
  exact act_up h

/-- A read at its stitch, of a module that is up, runs its effect. -/
theorem actRead_reached {s a : State} {t : Stitch} {n : Nat} {f : State → State} (h : s.Reached t a) : s.actRead t n f = .next (f a) := by
  obtain ⟨rfl, h⟩ := h
  exact actRead_up h

/-- The job of a command does not depend on what host memory answers. -/
theorem cmd_jobFault (a : State) (src : Src) (io io' : HostIo) (f : Fetched) (op : Nat) :
    a.jobFault (a.cmd src io f).tag op = a.jobFault (a.cmd src io' f).tag op := by
  have h : (a.cmd src io f).tag.jobId = (a.cmd src io' f).tag.jobId := by
    unfold State.cmd
    by_cases h : a.srcRev src = 2 <;> simp [h]
  unfold State.jobFault
  rw [h]

/-- A host command that the Hook takes runs its handler on the state without its entry. -/
theorem host_takes {s : State} {t : Stitch} {src : Src} {io : HostIo} {op : Nat} {rec : Bool} {g : State → Cmd → State} {f : Fetched}
    (h : (s.advance t).hookTakes src op f) : s.host t src io op rec g = .next (g (s.popped t src) (s.given t src io f)) := by
  obtain ⟨hu, hh, hr, hp, hj⟩ := h
  rw [cmd_jobFault _ _ _ io] at hj
  have hp' : ¬ ((s.advance t).dev.castOnPhase = 0xFE) := hp
  unfold State.host
  rw [act_up hu]
  simp only [hh, hr, hj, beq_self_eq_true, if_true, decide_eq_false hp', Bool.false_and, Bool.false_or, Bool.false_eq_true, if_false]
  rfl

end Sys2Proof.Machine
end

