-- ==== Sys2Proof/Laws/Completion.lean ====
section
/-! SUPPORT. What the shared operations on interrupts, error records, counters and completions can do: `sansEnds` is what they leave
alone, and what was driven outward stays. -/

namespace Sys2Proof.Machine

/-! ### Interrupts -/

theorem sendVector_sans (s : State) (v : Nat) : (s.sendVector v).sansEnds = s.sansEnds := by
  unfold State.sendVector; dsimp only; split <;> rfl

theorem sendVector_out (s : State) (v : Nat) : s.out <+: (s.sendVector v).out := by
  unfold State.sendVector; dsimp only; split
  · exact List.prefix_refl _
  · exact List.prefix_append _ _

theorem sendVectors_sans (vs : List Nat) (s : State) : (vs.foldl State.sendVector s).sansEnds = s.sansEnds := by
  induction vs generalizing s with
  | nil => rfl
  | cons v vs ih => rw [List.foldl_cons, ih, sendVector_sans]

theorem sendVectors_out (vs : List Nat) (s : State) : s.out <+: (vs.foldl State.sendVector s).out := by
  induction vs generalizing s with
  | nil => exact List.prefix_refl _
  | cons v vs ih => exact (sendVector_out s v).trans (ih _)

/-- A new interrupt block changes nothing but the block and the messages driven outward. -/
@[simp] theorem setIntr_sans (s : State) (i : Intr) : (s.setIntr i).sansEnds = s.sansEnds := by
  unfold State.setIntr; exact sendVectors_sans _ _

theorem setIntr_out {l : List Emission} {s : State} (h : l <+: s.out) (i : Intr) : l <+: (s.setIntr i).out := by
  unfold State.setIntr; exact h.trans (sendVectors_out _ { s with intr := i.serviced })

/-- Sending messages leaves rings, mailbox, counters and error records. -/
theorem sendVectors_rings (vs : List Nat) (s : State) : (vs.foldl State.sendVector s).rings = s.rings ∧
    (vs.foldl State.sendVector s).admin = s.admin ∧ (vs.foldl State.sendVector s).cnt = s.cnt ∧
    (vs.foldl State.sendVector s).stash = s.stash := by
  induction vs generalizing s with
  | nil => exact ⟨rfl, rfl, rfl, rfl⟩
  | cons v vs ih =>
    obtain ⟨a, b, c, d⟩ := ih (s.sendVector v)
    have : (s.sendVector v).rings = s.rings ∧ (s.sendVector v).admin = s.admin ∧ (s.sendVector v).cnt = s.cnt ∧
        (s.sendVector v).stash = s.stash := by
      unfold State.sendVector; dsimp only; split <;> exact ⟨rfl, rfl, rfl, rfl⟩
    rw [List.foldl_cons]
    exact ⟨a.trans this.1, b.trans this.2.1, c.trans this.2.2.1, d.trans this.2.2.2⟩

@[simp] theorem setIntr_rings (s : State) (i : Intr) : (s.setIntr i).rings = s.rings := by
  unfold State.setIntr; exact (sendVectors_rings _ _).1

@[simp] theorem setIntr_admin (s : State) (i : Intr) : (s.setIntr i).admin = s.admin := by
  unfold State.setIntr; exact (sendVectors_rings _ _).2.1

@[simp] theorem setIntr_cnt (s : State) (i : Intr) : (s.setIntr i).cnt = s.cnt := by
  unfold State.setIntr; exact (sendVectors_rings _ _).2.2.1

@[simp] theorem setIntr_stash (s : State) (i : Intr) : (s.setIntr i).stash = s.stash := by
  unfold State.setIntr; exact (sendVectors_rings _ _).2.2.2

/-- Sending messages changes only the pending bits of the interrupt block. -/
theorem sendVectors_intr (vs : List Nat) (s : State) : ∃ p, (vs.foldl State.sendVector s).intr = { s.intr with pba := p } := by
  induction vs generalizing s with
  | nil => exact ⟨s.intr.pba, rfl⟩
  | cons v vs ih =>
    obtain ⟨p, h⟩ := ih (s.sendVector v)
    have : ∃ q, (s.sendVector v).intr = { s.intr with pba := q } := by
      unfold State.sendVector; dsimp only; split
      · exact ⟨_, rfl⟩
      · exact ⟨s.intr.pba, rfl⟩
    obtain ⟨q, hq⟩ := this
    exact ⟨p, by rw [List.foldl_cons, h, hq]⟩

/-- The interrupt block is the new one but for its pending bits. -/
theorem setIntr_intr (s : State) (i : Intr) : ∃ p, (s.setIntr i).intr = { i with pba := p } := by
  unfold State.setIntr; exact sendVectors_intr _ _

/-- Causes that rise change nothing but the interrupt block and the messages driven outward. -/
@[simp] theorem raise_sans (s : State) (c : Causes) : (s.raise c).sansEnds = s.sansEnds := setIntr_sans _ _

theorem raise_out {l : List Emission} {s : State} (h : l <+: s.out) (c : Causes) : l <+: (s.raise c).out := setIntr_out h _

@[simp] theorem raise_rings (s : State) (c : Causes) : (s.raise c).rings = s.rings := setIntr_rings _ _

@[simp] theorem raise_admin (s : State) (c : Causes) : (s.raise c).admin = s.admin := setIntr_admin _ _

@[simp] theorem raise_cnt (s : State) (c : Causes) : (s.raise c).cnt = s.cnt := setIntr_cnt _ _

@[simp] theorem raise_stash (s : State) (c : Causes) : (s.raise c).stash = s.stash := setIntr_stash _ _

/-- The causes that rise join those that stand. -/
theorem raise_intr (s : State) (c : Causes) : ∃ p, (s.raise c).intr =
    { s.intr with admin := s.intr.admin || c.admin, ringCpl := s.intr.ringCpl ||| c.ringCpl, ringAttn := s.intr.ringAttn ||| c.ringAttn
                  fault := s.intr.fault ||| c.fault, timing := s.intr.timing ||| c.timing, fresh := s.freshCauses.or c
                  freshAt := s.stitch, pba := p } := setIntr_intr _ _

/-! ### Counters and error records -/

@[simp] theorem count_sans (s : State) (i n : Nat) : (s.count i n).sansEnds = s.sansEnds := rfl

@[simp] theorem count_out (s : State) (i n : Nat) : (s.count i n).out = s.out := rfl

@[simp] theorem cper_sans (s : State) (e : ErrEvent) : (s.cper e).sansEnds = s.sansEnds := by
  unfold State.cper State.sansEnds; split <;> rfl

@[simp] theorem cper_out (s : State) (e : ErrEvent) : (s.cper e).out = s.out := by
  unfold State.cper; split <;> rfl

@[simp] theorem cper_rings (s : State) (e : ErrEvent) : (s.cper e).rings = s.rings ∧ (s.cper e).intr = s.intr ∧ (s.cper e).cnt = s.cnt := by
  unfold State.cper; split <;> exact ⟨rfl, rfl, rfl⟩

@[simp] theorem noteSecurity_sans (s : State) (t : CmdTag) (codes : List Nat) : (s.noteSecurity t codes).sansEnds = s.sansEnds := by
  unfold State.noteSecurity; dsimp only; split
  · exact cper_sans _ _
  · rfl

@[simp] theorem noteSecurity_out (s : State) (t : CmdTag) (codes : List Nat) : (s.noteSecurity t codes).out = s.out := by
  unfold State.noteSecurity; dsimp only; split
  · exact cper_out _ _
  · rfl

/-- Nothing is noted where the command does not end with a security failure. -/
theorem noteSecurity_plain {s : State} {t : CmdTag} {codes : List Nat} (h : primaryStatus codes ≠ stSignatureFail)
    (h' : primaryStatus codes ≠ stBlockCheckFail) : s.noteSecurity t codes = s := by
  simp [State.noteSecurity, h, h']

/-! ### Completions -/

@[simp] theorem updRing_sans (s : State) (r : Nat) (f : Ring → Ring) : (s.updRing r f).sansEnds = s.sansEnds := rfl

@[simp] theorem updRing_out (s : State) (r : Nat) (f : Ring → Ring) : (s.updRing r f).out = s.out := rfl

@[simp] theorem emit_sans (s : State) (e : Emission) : (s.emit e).sansEnds = s.sansEnds := rfl

theorem emit_out {l : List Emission} {s : State} (h : l <+: s.out) (e : Emission) : l <+: (s.emit e).out :=
  h.trans (List.prefix_append _ _)

/-- A ring after its own change. -/
@[simp] theorem updRing_same {s : State} {r : Nat} (f : Ring → Ring) (h : r < s.rings.length) : (s.updRing r f).ring r = f (s.ring r) := by
  simp [State.updRing, State.ring, List.getD_eq_getElem?_getD, h]

/-- A ring after the change of another. -/
@[simp] theorem updRing_other {s : State} {r q : Nat} (f : Ring → Ring) (h : q ≠ r) : (s.updRing r f).ring q = s.ring q := by
  simp [State.updRing, State.ring, List.getD_eq_getElem?_getD, Ne.symm h]

@[simp] theorem attention_sans (s : State) (r cause : Nat) : (s.attention r cause).sansEnds = s.sansEnds := by
  unfold State.attention; simp

theorem attention_out {l : List Emission} {s : State} (h : l <+: s.out) (r cause : Nat) : l <+: (s.attention r cause).out := by
  unfold State.attention; exact raise_out (by exact h) _

@[simp] theorem writeRingCpl_sans (s : State) (r : Nat) (fault : Bool) (c : Completion) :
    (s.writeRingCpl r fault c).sansEnds = s.sansEnds := by
  unfold State.writeRingCpl; dsimp only; split
  · simp
  · split <;> simp

theorem writeRingCpl_out {l : List Emission} {s : State} (h : l <+: s.out) (r : Nat) (fault : Bool) (c : Completion) :
    l <+: (s.writeRingCpl r fault c).out := by
  unfold State.writeRingCpl; dsimp only; split
  · exact attention_out (by exact h) r 3
  · split
    · exact raise_out (by exact emit_out (by exact h) _) _
    · exact emit_out (by exact h) _

@[simp] theorem writeAdminCpl_sans (s : State) (c : Completion) : (s.writeAdminCpl c).sansEnds = s.sansEnds := by
  unfold State.writeAdminCpl; dsimp only; split
  · exact raise_sans _ _
  · rfl

theorem writeAdminCpl_out {l : List Emission} {s : State} (h : l <+: s.out) (c : Completion) : l <+: (s.writeAdminCpl c).out := by
  unfold State.writeAdminCpl; dsimp only; split
  · exact raise_out (by exact h) _
  · exact h

/-- The end of a command changes nothing beside rings, mailbox, interrupts, the count of dropped completions, those that a firmware handover
keeps back, and what is driven outward. -/
@[simp] theorem complete_sans (s : State) (c : Completion) : (s.complete c).sansEnds = s.sansEnds := by
  unfold State.complete; split
  · rfl
  · split
    · rfl
    · split
      · exact writeAdminCpl_sans _ _
      · dsimp only; split
        · rfl
        · exact writeRingCpl_sans _ _ _ _

theorem complete_out {l : List Emission} {s : State} (h : l <+: s.out) (c : Completion) : l <+: (s.complete c).out := by
  unfold State.complete; split
  · exact h
  · split
    · exact h
    · split
      · exact writeAdminCpl_out (by exact h) _
      · dsimp only; split
        · exact h
        · exact writeRingCpl_out (by exact h) _ _ _

@[simp] theorem finish_sans (s : State) (t : CmdTag) (codes : List Nat) (result : Nat) : (s.finish t codes result).sansEnds = s.sansEnds := by
  unfold State.finish; simp

theorem finish_out {l : List Emission} {s : State} (h : l <+: s.out) (t : CmdTag) (codes : List Nat) (result : Nat) :
    l <+: (s.finish t codes result).out := by
  unfold State.finish; exact complete_out (by rwa [noteSecurity_out]) _

@[simp] theorem finishData_sans (s : State) (t : CmdTag) (codes : List Nat) (data : List Byte) (more : Bool) (result : Option Nat) :
    (s.finishData t codes data more result).sansEnds = s.sansEnds := by
  unfold State.finishData; dsimp only
  rw [complete_sans, noteSecurity_sans]
  generalize data.take _ = part
  split
  · rfl
  · rfl

theorem finishData_out {l : List Emission} {s : State} (h : l <+: s.out) (t : CmdTag) (codes : List Nat) (data : List Byte) (more : Bool)
    (result : Option Nat) : l <+: (s.finishData t codes data more result).out := by
  unfold State.finishData; dsimp only
  refine complete_out ?_ _
  rw [noteSecurity_out]
  generalize data.take _ = part
  split
  · exact h
  · exact emit_out (by exact h) _

end Sys2Proof.Machine
end

