-- ==== Sys2Proof/Laws/Memory.lean ====
section
/-! SUPPORT. Device memory: reading after writing, and that every operation over a list of cells keeps the canonical form. -/

namespace Sys2Proof.Machine

theorem wf_nil : Memory.wf [] = true := rfl

/-- The canonical form, one entry at a time. -/
theorem wf_cons (c : Host.Cell) (m : List Host.Cell) :
    Memory.wf (c :: m) = true ↔ c.2 ≠ unlisted ∧ (∀ d ∈ m, c.1 < d.1) ∧ Memory.wf m = true := by
  induction m generalizing c with
  | nil => simp [Memory.wf]
  | cons d m ih =>
    have := ih d
    simp only [Memory.wf, Bool.and_eq_true, bne_iff_ne, decide_eq_true_eq, List.mem_cons, forall_eq_or_imp]
    constructor
    · rintro ⟨⟨h1, h2⟩, h3⟩
      refine ⟨h1, ⟨h2, fun e he => ?_⟩, h3⟩
      exact lt_trans h2 ((this.1 h3).2.1 e he)
    · rintro ⟨h1, ⟨h2, _⟩, h3⟩
      exact ⟨⟨h1, h2⟩, h3⟩

/-- Below the first listed address memory reads as unlisted. -/
theorem read_below {m : List Host.Cell} {a : Nat} (h : ∀ d ∈ m, a < d.1) : Memory.read m a = unlisted := by
  cases m with
  | nil => rfl
  | cons c m =>
    have hc := h c (by simp)
    simp only [Memory.read]
    rw [if_neg (by omega), if_pos hc]

/-- Entries of a written memory are the byte written or entries of before. -/
theorem mem_write {m : List Host.Cell} {a : Nat} {b : Byte} {d : Host.Cell} (h : d ∈ Memory.write m a b) : d = (a, b) ∨ d ∈ m := by
  induction m with
  | nil =>
    simp only [Memory.write] at h
    split at h <;> simp_all
  | cons c m ih =>
    simp only [Memory.write] at h
    split at h
    · split at h <;> simp_all <;> tauto
    · split at h
      · split at h <;> simp_all
      · simp only [List.mem_cons] at h ⊢
        rcases h with h | h
        · exact .inr (.inl h)
        · rcases ih h with h | h
          · exact .inl h
          · exact .inr (.inr h)

/-- Writing a byte keeps the canonical form. -/
theorem write_wf {m : List Host.Cell} (a : Nat) (b : Byte) (h : Memory.wf m = true) : Memory.wf (Memory.write m a b) = true := by
  induction m with
  | nil =>
    simp only [Memory.write]
    split
    · rfl
    · rename_i hb; simp [Memory.wf, hb]
  | cons c m ih =>
    obtain ⟨h1, h2, h3⟩ := (wf_cons c m).1 h
    simp only [Memory.write]
    split
    · rename_i hc
      split
      · exact h3
      · rename_i hb
        exact (wf_cons _ _).2 ⟨hb, by simpa [hc] using h2, h3⟩
    · split
      · rename_i hc hlt
        split
        · exact h
        · rename_i hb
          refine (wf_cons _ _).2 ⟨hb, fun d hd => ?_, h⟩
          rcases List.mem_cons.1 hd with rfl | hd
          · exact hlt
          · exact lt_trans hlt (h2 d hd)
      · rename_i hc hlt
        refine (wf_cons _ _).2 ⟨h1, fun d hd => ?_, ih h3⟩
        rcases mem_write hd with rfl | hd
        · simp only; omega
        · exact h2 d hd

/-- Reading after writing one byte: that byte at its address, what was there everywhere else. -/
theorem read_write {m : List Host.Cell} (a : Nat) (b : Byte) (x : Nat) (h : Memory.wf m = true) :
    Memory.read (Memory.write m a b) x = if x = a then b else Memory.read m x := by
  induction m with
  | nil =>
    simp only [Memory.write]
    split
    · rename_i hb; simp only [Memory.read]; split <;> simp_all
    · simp only [Memory.read]
      by_cases hx : x = a
      · simp [hx]
      · simp [hx, Ne.symm hx]
  | cons c m ih =>
    obtain ⟨h1, h2, h3⟩ := (wf_cons c m).1 h
    have ih := ih h3
    simp only [Memory.write]
    split
    · rename_i hc
      subst hc
      split
      · rename_i hb
        by_cases hx : x = c.1
        · rw [if_pos hx, hx, read_below h2, hb]
        · rw [if_neg hx]
          simp only [Memory.read]
          rw [if_neg (Ne.symm hx)]
          split
          · rename_i hlt; exact read_below (fun d hd => lt_trans hlt (h2 d hd))
          · rfl
      · simp only [Memory.read]
        by_cases hx : x = c.1
        · simp [hx]
        · simp [hx, Ne.symm hx]
    · rename_i hc
      split
      · rename_i hlt
        split
        · rename_i hb
          by_cases hx : x = a
          · rw [if_pos hx, hb, hx]; simp only [Memory.read]; rw [if_neg hc, if_pos hlt]
          · rw [if_neg hx]
        · by_cases hx : x = a
          · simp [Memory.read, hx]
          · rw [if_neg hx]
            simp only [Memory.read]
            rw [if_neg (Ne.symm hx)]
            by_cases hxa : x < a
            · rw [if_pos hxa, if_neg (by omega), if_pos (by omega)]
            · rw [if_neg hxa]
      · rename_i hlt
        simp only [Memory.read]
        by_cases hx : x = a
        · subst hx
          rw [if_neg hc, if_neg hlt, ih, if_pos rfl, if_pos rfl]
        · rw [ih, if_neg hx, if_neg hx]

/-- Writing a run keeps the canonical form. -/
theorem writeBytes_wf {m : List Host.Cell} (a : Nat) (bs : List Byte) (h : Memory.wf m = true) :
    Memory.wf (Memory.writeBytes m a bs) = true := by
  induction bs generalizing m a with
  | nil => exact h
  | cons b bs ih => exact ih (a + 1) (write_wf a b h)

/-- Reading after writing a run. -/
theorem read_writeBytes {m : List Host.Cell} (a : Nat) (bs : List Byte) (x : Nat) (h : Memory.wf m = true) :
    Memory.read (Memory.writeBytes m a bs) x = if a ≤ x ∧ x < a + bs.length then bs.getD (x - a) 0 else Memory.read m x := by
  induction bs generalizing m a with
  | nil => simp [Memory.writeBytes]
  | cons b bs ih =>
    simp only [Memory.writeBytes]
    rw [ih (a + 1) (write_wf a b h), read_write a b x h]
    by_cases hx : x = a
    · subst hx
      rw [if_neg (by omega), if_pos rfl, if_pos (by simp)]
      simp
    · by_cases h1 : a + 1 ≤ x ∧ x < a + 1 + bs.length
      · rw [if_pos h1, if_pos (by simp; omega)]
        obtain ⟨k, rfl⟩ : ∃ k, x = a + 1 + k := ⟨x - (a + 1), by omega⟩
        simp [show a + 1 + k - (a + 1) = k by omega, show a + 1 + k - a = k + 1 by omega]
      · rw [if_neg h1, if_neg hx, if_neg (by simp; omega)]

/-- Merging entries keeps the canonical form. -/
theorem put_wf {m : List Host.Cell} (cs : List Host.Cell) (h : Memory.wf m = true) : Memory.wf (Memory.put m cs) = true := by
  unfold Memory.put
  induction cs generalizing m with
  | nil => exact h
  | cons c cs ih => exact ih (write_wf _ _ h)

/-- Leaving entries out keeps the canonical form. -/
theorem filter_wf {m : List Host.Cell} (p : Host.Cell → Bool) (h : Memory.wf m = true) : Memory.wf (m.filter p) = true := by
  induction m with
  | nil => rfl
  | cons c m ih =>
    obtain ⟨h1, h2, h3⟩ := (wf_cons c m).1 h
    simp only [List.filter_cons]
    split
    · exact (wf_cons _ _).2 ⟨h1, fun d hd => h2 d (List.mem_filter.1 hd).1, ih h3⟩
    · exact ih h3

theorem outside_wf {m : List Host.Cell} (p : Nat → Bool) (h : Memory.wf m = true) : Memory.wf (Memory.outside m p) = true := filter_wf _ h

theorem inside_wf {m : List Host.Cell} (p : Nat → Bool) (h : Memory.wf m = true) : Memory.wf (Memory.inside m p) = true := filter_wf _ h

/-- Publishing pages keeps the canonical form. -/
theorem publish_wf {m : List Host.Cell} (o : Overlay) (h : Memory.wf m = true) : Memory.wf (Memory.publish m o) = true :=
  put_wf _ (outside_wf _ h)

/-- A view of canonical contents, written, keeps them canonical. -/
theorem view_write_wf {v : View} (a : Nat) (b : Byte) (h : Memory.wf v.base = true) : Memory.wf (v.write a b).base = true := by
  unfold View.write
  split
  · exact write_wf a b h
  · exact h

end Sys2Proof.Machine
end

