-- ==== Sys2Proof/Laws/Keeps.lean ====
section
/-! SUPPORT. What the operations of the block keep: the queue of waiting commands, what was driven outward, and the form of device memory and
of its image, one lemma for each operation. -/

namespace Sys2Proof.Machine

theorem State.Keeps.refl (s : State) : s.Keeps s := ⟨rfl, List.prefix_refl _, id⟩

theorem State.Keeps.trans {s x y : State} (h : s.Keeps x) (h' : x.Keeps y) : s.Keeps y :=
  ⟨h'.1.trans h.1, h.2.1.trans h'.2.1, h'.2.2 ∘ h.2.2⟩

/-- `Keeps` of a state given by its fields. -/
def State.Raw (s : State) (p : List Instr) (o : List Emission) (m : Mem) (k : Stash) : Prop :=
  p = s.pending ∧ s.lastingOut <+: o.filter Emission.lasting ∧ (s.MemOk → Memory.wf m.cells = true ∧ ∀ i, k.hibernate = some i → Memory.wf i = true)

theorem State.keeps_mk {s : State} {pending : List Instr} {out : List Emission} {freeCtr : Nat} {stitch : Nat} {counting : Bool} {stage : PowerStage} {dev : Dev} {pcie : Pcie} {intr : Intr} {admin : Admin} {rings : List Ring} {cfg : Cfg} {jobs : List Job} {openings : List Opening} {early : List (Word × Answer)} {courses : List Course} {panelQ : List (List Nat)} {headAt : List Nat} {engineQ : List (List Nat)} {linkQ : List (List Nat)} {hold : List (LUnit × Nat)} {nextId : Nat} {snaps : List SnapRun} {mem : Mem} {bar2Wait : List Bar2Wait} {stash : Stash} {needles : List Needle} {panelStores : List Nat} {spareMap : List (Option Nat)} {engines : List Engine} {swatches : List Swatch} {nextSwatch : Nat} {shortSwatches : Nat} {selfTests : List SelfTestRun} {time : Time} {gauge : Gauge} {links : List Link} {skein : Skein} {txq : List TxFrame} {credits : List (List Nat)} {pw : Pw} {fw : Fw} {cnt : Cnt} {trace : TraceSt} {dbg : Dbg} {cut : Option Cut} {mgmt : Mgmt} :
    s.Keeps ⟨pending, out, freeCtr, stitch, counting, stage, dev, pcie, intr, admin, rings, cfg, jobs, openings, early, courses, panelQ, headAt, engineQ, linkQ, hold, nextId, snaps, mem, bar2Wait, stash, needles, panelStores, spareMap, engines, swatches, nextSwatch, shortSwatches, selfTests, time, gauge, links, skein, txq, credits, pw, fw, cnt, trace, dbg, cut, mgmt⟩ ↔ s.Raw pending out mem stash := Iff.rfl

/-- An update of other fields, of memory beside its contents and of the Stash beside its image. -/
theorem State.Raw.of {s x : State} {m : Mem} {k : Stash} (h : s.Keeps x) (hm : m.cells = x.mem.cells) (hs : k.hibernate = x.stash.hibernate) :
    s.Raw x.pending x.out m k :=
  ⟨h.1, h.2.1, fun e => ⟨hm ▸ (h.2.2 e).1, fun i g => (h.2.2 e).2 i (hs ▸ g)⟩⟩

theorem State.Keeps.fold {α : Type} {s x : State} (h : s.Keeps x) {f : State → α → State} {l : List α}
    (hf : ∀ (y : State) (b : α), s.Keeps y → s.Keeps (f y b)) : s.Keeps (l.foldl f x) := by
  induction l generalizing x with
  | nil => exact h
  | cons b l ih => exact ih (hf x b h)

theorem State.Keeps.pairs {α β : Type} {s : State} {x : State × β} (h : s.Keeps x.1) {f : State × β → α → State × β} {l : List α}
    (hf : ∀ (y : State × β) (b : α), s.Keeps y.1 → s.Keeps (f y b).1) : s.Keeps (l.foldl f x).1 := by
  induction l generalizing x with
  | nil => exact h
  | cons b l ih => exact ih (hf x b h)

theorem State.emit_keeps {s x : State} (h : s.Keeps x) (e : Emission) : s.Keeps (x.emit e) :=
  ⟨h.1, h.2.1.trans (by unfold State.lastingOut State.emit; rw [List.filter_append]; exact List.prefix_append _ _), h.2.2⟩

/-- An update that takes back frames of links alone. -/
theorem State.Raw.drop {s x : State} {m : Mem} {k : Stash} {p : Emission → Bool} (h : s.Keeps x) (hp : ∀ e : Emission, e.lasting → p e)
    (hm : m.cells = x.mem.cells) (hs : k.hibernate = x.stash.hibernate) : s.Raw x.pending (x.out.filter p) m k := by
  refine ⟨h.1, ?_, (State.Raw.of h hm hs).2.2⟩
  have e : (x.out.filter p).filter Emission.lasting = x.lastingOut := by
    unfold State.lastingOut
    rw [List.filter_filter]
    exact List.filter_congr fun a _ => by cases g : a.lasting <;> simp [g, hp]
  rw [e]
  exact h.2.1

/-- An update that also writes memory, in its form. -/
theorem State.Raw.wf {s x : State} {m : Mem} {k : Stash} (h : s.Keeps x) (hm : Memory.wf x.mem.cells = true → Memory.wf m.cells = true)
    (hs : k.hibernate = x.stash.hibernate) : s.Raw x.pending x.out m k :=
  ⟨h.1, h.2.1, fun e => ⟨hm (h.2.2 e).1, fun i g => (h.2.2 e).2 i (hs ▸ g)⟩⟩

theorem TraceRing.header_wf {m : List Host.Cell} (h : Memory.wf m = true) (job : Nat) (r : TraceRing) :
    Memory.wf (TraceRing.header m job r) = true := by
  unfold TraceRing.header
  exact writeBytes_wf _ _ h

theorem TraceRing.put_wf {m : List Host.Cell} (h : Memory.wf m = true) (job : Nat) (r : TraceRing) (bs : List Byte) :
    Memory.wf (TraceRing.put m job r bs).1 = true := by
  unfold TraceRing.put
  dsimp only
  with_reducible exact TraceRing.header_wf (writeBytes_wf _ _ h) _ _

theorem TraceRing.unspill_wf (n : Nat) {m : List Host.Cell} (h : Memory.wf m = true) (job : Nat) (r : TraceRing) :
    Memory.wf (TraceRing.unspill n m job r).1 = true := by
  induction n generalizing m r with
  | zero => exact h
  | succ n ih =>
    unfold TraceRing.unspill
    split
    · exact h
    · split
      · exact ih (TraceRing.put_wf h _ _ _) _
      · exact ih (TraceRing.put_wf h _ _ _) _
      · exact h

/-! ### Ops -/

theorem State.free_keeps {s x : State} (h : s.Keeps x) : s.Keeps (State.free x).2 := by
  unfold State.free
  repeat' first | with_reducible assumption | with_reducible rfl | (simp only [State.keeps_mk]; with_reducible apply State.Raw.of)

theorem State.bumpIssue_keeps {s x : State} (h : s.Keeps x) (a1) : s.Keeps (State.bumpIssue x a1) := by
  unfold State.bumpIssue
  repeat' first | with_reducible assumption | with_reducible rfl | (simp only [State.keeps_mk]; with_reducible apply State.Raw.of)

theorem State.updJob_keeps {s x : State} (h : s.Keeps x) (a1 a2) : s.Keeps (State.updJob x a1 a2) := by
  unfold State.updJob
  repeat' first | with_reducible assumption | with_reducible rfl | (simp only [State.keeps_mk]; with_reducible apply State.Raw.of)

theorem State.setTraceRing_keeps {s x : State} (h : s.Keeps x) (a1 a2) : s.Keeps (State.setTraceRing x a1 a2) := by
  unfold State.setTraceRing
  repeat' first | with_reducible assumption | with_reducible rfl | with_reducible apply State.updJob_keeps
                | (simp only [State.keeps_mk]; with_reducible apply State.Raw.of) | dsimp only | split

theorem State.drainSpill_keeps {s x : State} (h : s.Keeps x) : s.Keeps (State.drainSpill x) := by
  unfold State.drainSpill
  repeat' first | with_reducible assumption | with_reducible rfl | with_reducible apply State.setTraceRing_keeps
                | with_reducible apply State.Keeps.fold | (simp only [State.keeps_mk]; with_reducible apply State.Raw.of) | (intro y b hy)
                | dsimp only | split

theorem State.spillRecord_keeps {s x : State} (h : s.Keeps x) (a1 a2 a3) : s.Keeps (State.spillRecord x a1 a2 a3) := by
  unfold State.spillRecord
  repeat' first | with_reducible assumption | with_reducible apply State.drainSpill_keeps | with_reducible apply State.setTraceRing_keeps

theorem State.count_keeps {s x : State} (h : s.Keeps x) (a1 a2) : s.Keeps (State.count x a1 a2) := by
  unfold State.count
  repeat' first | with_reducible assumption | with_reducible rfl | (simp only [State.keeps_mk]; with_reducible apply State.Raw.of)

theorem State.countJob_keeps {s x : State} (h : s.Keeps x) (a1 a2 a3) : s.Keeps (State.countJob x a1 a2 a3) := by
  unfold State.countJob
  repeat' first | with_reducible assumption | with_reducible apply State.updJob_keeps

theorem State.traceFull_keeps {s x : State} (h : s.Keeps x) (a1 a2 a3 a4 a5) : s.Keeps (State.traceFull x a1 a2 a3 a4 a5) := by
  unfold State.traceFull
  repeat' first | with_reducible assumption | with_reducible rfl | with_reducible apply State.spillRecord_keeps
                | with_reducible apply State.count_keeps | with_reducible apply State.setTraceRing_keeps | with_reducible apply State.countJob_keeps
                | with_reducible apply State.Keeps.fold | (simp only [State.keeps_mk]; with_reducible apply State.Raw.wf) | with_reducible exact id
                | with_reducible exact fun hw => TraceRing.header_wf hw _ _ | (intro y b hy) | dsimp only | split

theorem State.traceNow_keeps {s x : State} (h : s.Keeps x) (a1 a2 a3 a4 a5 a6) : s.Keeps (State.traceNow x a1 a2 a3 a4 a5 a6) := by
  unfold State.traceNow
  repeat' first | with_reducible assumption | with_reducible rfl | with_reducible apply State.bumpIssue_keeps
                | with_reducible apply State.traceFull_keeps | with_reducible apply State.setTraceRing_keeps
                | (simp only [State.keeps_mk]; with_reducible apply State.Raw.wf) | with_reducible exact fun hw => TraceRing.put_wf hw _ _ _
                | dsimp only | split

theorem State.traceRec_keeps {s x : State} (h : s.Keeps x) (a1 a2 a3 a4 a5 a6) : s.Keeps (State.traceRec x a1 a2 a3 a4 a5 a6) := by
  unfold State.traceRec
  repeat' first | with_reducible assumption | with_reducible rfl | with_reducible apply State.traceNow_keeps | with_reducible apply State.Keeps.fold
                | (simp only [State.keeps_mk]; with_reducible apply State.Raw.wf) | with_reducible exact id
                | with_reducible exact fun hw => TraceRing.put_wf hw _ _ _ | (intro y b hy) | dsimp only | split

theorem State.updCourse_keeps {s x : State} (h : s.Keeps x) (a1 a2) : s.Keeps (State.updCourse x a1 a2) := by
  unfold State.updCourse
  repeat' first | with_reducible assumption | with_reducible rfl | (simp only [State.keeps_mk]; with_reducible apply State.Raw.of)

theorem State.countUnit_keeps {s x : State} (h : s.Keeps x) (a1 a2 a3) : s.Keeps (State.countUnit x a1 a2 a3) := by
  unfold State.countUnit
  repeat' first | with_reducible assumption | with_reducible rfl | (simp only [State.keeps_mk]; with_reducible apply State.Raw.of)

theorem State.updLink_keeps {s x : State} (h : s.Keeps x) (a1 a2) : s.Keeps (State.updLink x a1 a2) := by
  unfold State.updLink
  repeat' first | with_reducible assumption | with_reducible rfl | (simp only [State.keeps_mk]; with_reducible apply State.Raw.of)

theorem State.sendVector_keeps {s x : State} (h : s.Keeps x) (a1) : s.Keeps (State.sendVector x a1) := by
  unfold State.sendVector
  repeat' first | with_reducible assumption | with_reducible rfl | with_reducible apply State.emit_keeps
                | (simp only [State.keeps_mk]; with_reducible apply State.Raw.of) | dsimp only | split

theorem State.setIntr_keeps {s x : State} (h : s.Keeps x) (a1) : s.Keeps (State.setIntr x a1) := by
  unfold State.setIntr
  repeat' first | with_reducible assumption | with_reducible rfl | with_reducible apply State.sendVector_keeps | with_reducible apply State.Keeps.fold
                | (simp only [State.keeps_mk]; with_reducible apply State.Raw.of) | (intro y b hy)

theorem State.raise_keeps {s x : State} (h : s.Keeps x) (a1) : s.Keeps (State.raise x a1) := by
  unfold State.raise
  repeat' first | with_reducible assumption | with_reducible apply State.setIntr_keeps

theorem State.writeAdminCpl_keeps {s x : State} (h : s.Keeps x) (a1) : s.Keeps (State.writeAdminCpl x a1) := by
  unfold State.writeAdminCpl
  repeat' first | with_reducible assumption | with_reducible rfl | with_reducible apply State.raise_keeps
                | (simp only [State.keeps_mk]; with_reducible apply State.Raw.of) | dsimp only | split

theorem State.updRing_keeps {s x : State} (h : s.Keeps x) (a1 a2) : s.Keeps (State.updRing x a1 a2) := by
  unfold State.updRing
  repeat' first | with_reducible assumption | with_reducible rfl | (simp only [State.keeps_mk]; with_reducible apply State.Raw.of)

theorem State.attention_keeps {s x : State} (h : s.Keeps x) (a1 a2) : s.Keeps (State.attention x a1 a2) := by
  unfold State.attention
  repeat' first | with_reducible assumption | with_reducible apply State.raise_keeps | with_reducible apply State.updRing_keeps

theorem State.writeRingCpl_keeps {s x : State} (h : s.Keeps x) (a1 a2 a3) : s.Keeps (State.writeRingCpl x a1 a2 a3) := by
  unfold State.writeRingCpl
  repeat' first | with_reducible assumption | with_reducible apply State.updRing_keeps | with_reducible apply State.attention_keeps
                | with_reducible apply State.count_keeps | with_reducible apply State.emit_keeps | with_reducible apply State.raise_keeps | dsimp only
                | split

theorem State.complete_keeps {s x : State} (h : s.Keeps x) (a1) : s.Keeps (State.complete x a1) := by
  unfold State.complete
  repeat' first | with_reducible assumption | with_reducible rfl | with_reducible apply State.writeAdminCpl_keeps
                | with_reducible apply State.updRing_keeps | with_reducible apply State.writeRingCpl_keeps
                | (simp only [State.keeps_mk]; with_reducible apply State.Raw.of) | dsimp only | split

theorem State.cper_keeps {s x : State} (h : s.Keeps x) (a1) : s.Keeps (State.cper x a1) := by
  unfold State.cper
  repeat' first | with_reducible assumption | with_reducible rfl | (simp only [State.keeps_mk]; with_reducible apply State.Raw.of) | dsimp only
                | split

theorem State.noteSecurity_keeps {s x : State} (h : s.Keeps x) (a1 a2) : s.Keeps (State.noteSecurity x a1 a2) := by
  unfold State.noteSecurity
  repeat' first | with_reducible assumption | with_reducible apply State.cper_keeps | dsimp only | split

theorem State.finish_keeps {s x : State} (h : s.Keeps x) (a1 a2 a3) : s.Keeps (State.finish x a1 a2 a3) := by
  unfold State.finish
  repeat' first | with_reducible assumption | with_reducible apply State.complete_keeps | with_reducible apply State.noteSecurity_keeps

theorem State.raiseFault_keeps {s x : State} (h : s.Keeps x) (a1) : s.Keeps (State.raiseFault x a1) := by
  unfold State.raiseFault
  repeat' first | with_reducible assumption | with_reducible apply State.raise_keeps

theorem State.traceFreed_keeps {s x : State} (h : s.Keeps x) (a1) : s.Keeps (State.traceFreed x a1) := by
  unfold State.traceFreed
  split
  · exact h
  · dsimp only
    apply State.setTraceRing_keeps
    simp only [State.keeps_mk]
    split
    · exact State.Raw.wf (State.count_keeps (State.bumpIssue_keeps h _) _ _) (fun hw => TraceRing.unspill_wf _ (TraceRing.put_wf hw _ _ _) _ _) rfl
    · exact State.Raw.wf h (fun hw => TraceRing.unspill_wf _ hw _ _) rfl

theorem State.writeHeld_keeps {s x : State} (h : s.Keeps x) : s.Keeps (State.writeHeld x) := by
  unfold State.writeHeld
  repeat' first | with_reducible assumption | with_reducible rfl | with_reducible apply State.traceFreed_keeps
                | with_reducible apply State.traceNow_keeps | with_reducible apply State.Keeps.fold
                | (simp only [State.keeps_mk]; with_reducible apply State.Raw.of) | (intro y b hy)

theorem State.updNeedle_keeps {s x : State} (h : s.Keeps x) (a1 a2) : s.Keeps (State.updNeedle x a1 a2) := by
  unfold State.updNeedle
  repeat' first | with_reducible assumption | with_reducible rfl | (simp only [State.keeps_mk]; with_reducible apply State.Raw.of)

theorem State.traceTime_keeps {s x : State} (h : s.Keeps x) (a1 a2 a3) : s.Keeps (State.traceTime x a1 a2 a3) := by
  unfold State.traceTime
  repeat' first | with_reducible assumption | with_reducible apply State.traceRec_keeps

theorem State.raiseTiming_keeps {s x : State} (h : s.Keeps x) (a1) : s.Keeps (State.raiseTiming x a1) := by
  unfold State.raiseTiming
  repeat' first | with_reducible assumption | with_reducible apply State.raise_keeps

theorem State.wear_keeps {s x : State} (h : s.Keeps x) : s.Keeps (State.wear x) := by
  unfold State.wear
  exact State.keeps_mk.mpr (State.Raw.of h rfl rfl)

theorem Stash.log_hibernate (x : Stash) (rs : List (List Byte)) : (x.log rs).hibernate = x.hibernate := rfl

theorem State.lostPage_keeps {s x : State} (h : s.Keeps x) : s.Keeps (State.lostPage x) := by
  unfold State.lostPage
  repeat' first | with_reducible assumption | with_reducible rfl | with_reducible exact Stash.log_hibernate _ _
                | (simp only [State.keeps_mk]; with_reducible apply State.Raw.of) | dsimp only | split

theorem State.finishData_keeps {s x : State} (h : s.Keeps x) (a1 a2 a3 a4 a5) : s.Keeps (State.finishData x a1 a2 a3 a4 a5) := by
  unfold State.finishData
  repeat' first | with_reducible assumption | with_reducible apply State.emit_keeps | with_reducible apply State.complete_keeps
                | with_reducible apply State.noteSecurity_keeps | dsimp only | split

/-! ### Queues -/

theorem State.sweepViews_keeps {s x : State} (h : s.Keeps x) (a1) : s.Keeps (State.sweepViews x a1) := by
  unfold State.sweepViews
  repeat' first | with_reducible assumption | with_reducible apply State.updJob_keeps

theorem State.setQueue_keeps {s x : State} (h : s.Keeps x) (a1 a2) : s.Keeps (State.setQueue x a1 a2) := by
  unfold State.setQueue
  repeat' first | with_reducible assumption | with_reducible rfl | (simp only [State.keeps_mk]; with_reducible apply State.Raw.of) | dsimp only
                | split

theorem State.leaveQueue_keeps {s x : State} (h : s.Keeps x) (a1 a2) : s.Keeps (State.leaveQueue x a1 a2) := by
  unfold State.leaveQueue
  repeat' first | with_reducible assumption | with_reducible apply State.setQueue_keeps

theorem State.leaveAll_keeps {s x : State} (h : s.Keeps x) (a1) : s.Keeps (State.leaveAll x a1) := by
  unfold State.leaveAll
  repeat' first | with_reducible assumption | with_reducible rfl | with_reducible apply State.leaveQueue_keeps | with_reducible apply State.Keeps.fold
                | (simp only [State.keeps_mk]; with_reducible apply State.Raw.of) | (intro y b hy)

theorem State.insertCourse_keeps {s x : State} (h : s.Keeps x) (a1 a2) : s.Keeps (State.insertCourse x a1 a2) := by
  unfold State.insertCourse
  repeat' first | with_reducible assumption | with_reducible rfl | with_reducible apply State.setQueue_keeps
                | (simp only [State.keeps_mk]; with_reducible apply State.Raw.of) | dsimp only | split

theorem State.newView_keeps {s x : State} (h : s.Keeps x) (a1 a2) : s.Keeps (State.newView x a1 a2) := by
  unfold State.newView
  repeat' first | with_reducible assumption | with_reducible apply State.updJob_keeps

theorem State.holdPages_keeps {s x : State} (h : s.Keeps x) (a1 a2 a3 a4) : s.Keeps (State.holdPages x a1 a2 a3 a4) := by
  unfold State.holdPages
  repeat' first | with_reducible assumption | with_reducible rfl | (simp only [State.keeps_mk]; with_reducible apply State.Raw.of)

theorem State.changeLatest_keeps {s x : State} (h : s.Keeps x) (a1 a2) : s.Keeps (State.changeLatest x a1 a2) := by
  unfold State.changeLatest
  dsimp only
  exact State.keeps_mk.mpr (State.Raw.wf (State.updJob_keeps (State.holdPages_keeps h _ _ _ _) _ _) (fun hw => publish_wf _ hw) rfl)

/-! ### Needles -/

theorem State.fillStores_keeps {s x : State} (h : s.Keeps x) (a1 a2) : s.Keeps (State.fillStores x a1 a2) := by
  unfold State.fillStores
  repeat' first | with_reducible assumption | with_reducible rfl | with_reducible apply State.updNeedle_keeps | with_reducible apply State.Keeps.fold
                | (simp only [State.keeps_mk]; with_reducible apply State.Raw.of) | (intro y b hy)

theorem State.loseRegisters_keeps {s x : State} (h : s.Keeps x) (a1) : s.Keeps (State.loseRegisters x a1) := by
  unfold State.loseRegisters
  repeat' first | with_reducible assumption | with_reducible rfl | with_reducible apply State.updNeedle_keeps | with_reducible apply State.Keeps.fold
                | (simp only [State.keeps_mk]; with_reducible apply State.Raw.of) | (intro y b hy)

theorem State.freeOf_keeps {s x : State} (h : s.Keeps x) (a1) : s.Keeps (State.freeOf x a1).2 := by
  unfold State.freeOf
  repeat' first | with_reducible assumption | with_reducible apply State.free_keeps

theorem State.spareOf_keeps {s x : State} (h : s.Keeps x) (a1) : s.Keeps (State.spareOf x a1).2 := by
  unfold State.spareOf
  repeat' first | with_reducible assumption | with_reducible apply State.freeOf_keeps | dsimp only | split

theorem State.followNeedle_keeps {s x : State} (h : s.Keeps x) (a1 a2 a3 a4) : s.Keeps (State.followNeedle x a1 a2 a3 a4) := by
  unfold State.followNeedle
  repeat' first | with_reducible assumption | with_reducible rfl | with_reducible apply State.updCourse_keeps
                | with_reducible apply State.leaveQueue_keeps | with_reducible apply State.insertCourse_keeps
                | (simp only [State.keeps_mk]; with_reducible apply State.Raw.of) | dsimp only | split

theorem State.retireNow_keeps {s x : State} (h : s.Keeps x) (a1 a2) : s.Keeps (State.retireNow x a1 a2) := by
  unfold State.retireNow
  repeat' first | with_reducible assumption | with_reducible rfl | with_reducible apply State.spareOf_keeps
                | with_reducible apply State.updNeedle_keeps | with_reducible apply State.followNeedle_keeps | with_reducible apply State.cper_keeps
                | with_reducible apply State.raiseFault_keeps | with_reducible apply State.Keeps.fold
                | (simp only [State.keeps_mk]; with_reducible apply State.Raw.of) | (intro y b hy) | dsimp only | split

theorem State.retire_keeps {s x : State} (h : s.Keeps x) (a1 a2) : s.Keeps (State.retire x a1 a2) := by
  unfold State.retire
  repeat' first | with_reducible assumption | with_reducible apply State.updNeedle_keeps | with_reducible apply State.retireNow_keeps | dsimp only
                | split

theorem State.mapRow_keeps {s x : State} (h : s.Keeps x) (a1 a2 a3) : s.Keeps (State.mapRow x a1 a2 a3) := by
  unfold State.mapRow
  repeat' first | with_reducible assumption | with_reducible apply State.cper_keeps | with_reducible apply State.count_keeps
                | with_reducible apply State.updNeedle_keeps | with_reducible apply State.retire_keeps | dsimp only | split

theorem State.mapFailedRows_keeps {s x : State} (h : s.Keeps x) : s.Keeps (State.mapFailedRows x) := by
  unfold State.mapFailedRows
  repeat' first | with_reducible assumption | with_reducible apply State.mapRow_keeps | with_reducible apply State.Keeps.fold | (intro y b hy)
                | dsimp only | split

theorem State.retireFree_keeps {s x : State} (h : s.Keeps x) : s.Keeps (State.retireFree x) := by
  unfold State.retireFree
  repeat' first | with_reducible assumption | with_reducible apply State.retireNow_keeps | with_reducible apply State.Keeps.fold | (intro y b hy)
                | dsimp only | split

theorem State.attribute_keeps {s x : State} (h : s.Keeps x) (a1 a2) : s.Keeps (State.attribute x a1 a2) := by
  unfold State.attribute
  repeat' first | with_reducible assumption | with_reducible apply State.updNeedle_keeps | with_reducible apply State.retire_keeps | dsimp only
                | split

theorem State.makeSuspect_keeps {s x : State} (h : s.Keeps x) (a1) : s.Keeps (State.makeSuspect x a1) := by
  unfold State.makeSuspect
  repeat' first | with_reducible assumption | with_reducible apply State.updNeedle_keeps

theorem State.clearSuspect_keeps {s x : State} (h : s.Keeps x) (a1) : s.Keeps (State.clearSuspect x a1) := by
  unfold State.clearSuspect
  repeat' first | with_reducible assumption | with_reducible apply State.updNeedle_keeps

theorem State.loadSample_keeps {s x : State} (h : s.Keeps x) (a1) : s.Keeps (State.loadSample x a1) := by
  unfold State.loadSample
  repeat' first | with_reducible assumption | with_reducible rfl | with_reducible apply State.updNeedle_keeps
                | (simp only [State.keeps_mk]; with_reducible apply State.Raw.of)

theorem State.pickSpares_keeps {s x : State} (h : s.Keeps x) (a0 a1 a2) : s.Keeps (State.pickSpares a0 a1 a2 x).2 := by
  induction a0 generalizing x a1 with
  | zero => exact h
  | succ n ih => exact ih (State.freeOf_keeps (State.freeOf_keeps h _) _) _

theorem State.freeOrder_keeps {s x : State} (h : s.Keeps x) (a0 a1) : s.Keeps (State.freeOrder a0 a1 x).2 := by
  induction a0 generalizing x a1 with
  | zero => exact h
  | succ n ih => exact ih (State.freeOf_keeps h _) _

theorem State.dieMap_keeps {s x : State} (h : s.Keeps x) (a1) : s.Keeps (State.dieMap x a1).2 := by
  unfold State.dieMap
  repeat' first | with_reducible assumption | with_reducible apply State.pickSpares_keeps | with_reducible apply State.freeOrder_keeps

theorem State.buildSpareMap_keeps {s x : State} (h : s.Keeps x) : s.Keeps (State.buildSpareMap x) := by
  unfold State.buildSpareMap
  repeat' first | with_reducible assumption | with_reducible rfl | with_reducible apply State.dieMap_keeps
                | (simp only [State.keeps_mk]; with_reducible apply State.Raw.of)

/-! ### Clock -/

theorem State.hostWait_keeps {s x : State} (h : s.Keeps x) (a1) : s.Keeps (State.hostWait x a1) := by
  unfold State.hostWait
  repeat' first | with_reducible assumption | with_reducible apply State.free_keeps | with_reducible apply State.traceRec_keeps

theorem State.endHostWaits_keeps {s x : State} (h : s.Keeps x) (a1) : s.Keeps (State.endHostWaits x a1) := by
  unfold State.endHostWaits
  repeat' first | with_reducible assumption | with_reducible rfl | with_reducible apply State.hostWait_keeps | with_reducible apply State.Keeps.fold
                | (simp only [State.keeps_mk]; with_reducible apply State.Raw.of) | (intro y b hy)

theorem State.bookTo_keeps {s x : State} (h : s.Keeps x) (a1 a2 a3 a4) : s.Keeps (State.bookTo x a1 a2 a3 a4) := by
  unfold State.bookTo
  repeat' first | with_reducible assumption | with_reducible apply State.countUnit_keeps | with_reducible apply State.countJob_keeps | dsimp only
                | split

theorem State.traceWait_keeps {s x : State} (h : s.Keeps x) (a1 a2 a3 a4 a5 a6 a7 a8) : s.Keeps (State.traceWait x a1 a2 a3 a4 a5 a6 a7 a8) := by
  unfold State.traceWait
  repeat' first | with_reducible assumption | with_reducible apply State.traceRec_keeps | dsimp only | split

theorem State.countPort_keeps {s x : State} (h : s.Keeps x) (a1 a2) : s.Keeps (State.countPort x a1 a2) := by
  unfold State.countPort
  repeat' first | with_reducible assumption | with_reducible rfl | (simp only [State.keeps_mk]; with_reducible apply State.Raw.of)

theorem State.chargePort_keeps {s x : State} (h : s.Keeps x) (a1 a2 a3) : s.Keeps (State.chargePort x a1 a2 a3) := by
  unfold State.chargePort
  repeat' first | with_reducible assumption | with_reducible apply State.updCourse_keeps | with_reducible apply State.countPort_keeps | dsimp only
                | split

theorem State.endWait_keeps {s x : State} (h : s.Keeps x) (a1 a2) : s.Keeps (State.endWait x a1 a2) := by
  unfold State.endWait
  repeat' first | with_reducible assumption | with_reducible apply State.updCourse_keeps | with_reducible apply State.bookTo_keeps
                | with_reducible apply State.traceWait_keeps | with_reducible apply State.chargePort_keeps | dsimp only | split

theorem State.endSpans_keeps {s x : State} (h : s.Keeps x) (a1) : s.Keeps (State.endSpans x a1) := by
  unfold State.endSpans
  repeat' first | with_reducible assumption | with_reducible apply State.updCourse_keeps | with_reducible apply State.endWait_keeps
                | with_reducible apply State.Keeps.fold | (intro y b hy) | dsimp only | split

theorem State.book_keeps {s x : State} (h : s.Keeps x) (a1 a2) : s.Keeps (State.book x a1 a2) := by
  unfold State.book
  repeat' first | with_reducible assumption | with_reducible rfl | (simp only [State.keeps_mk]; with_reducible apply State.Raw.of)

theorem State.elapse_keeps {s x : State} (h : s.Keeps x) (a1) : s.Keeps (State.elapse x a1) := by
  unfold State.elapse
  dsimp only
  exact State.keeps_mk.mpr (State.Raw.of (x := State.book _ _ _) (State.book_keeps (State.endHostWaits_keeps (State.endSpans_keeps h _) _) _ _) rfl rfl)

theorem State.advance_keeps {s x : State} (h : s.Keeps x) (a1) : s.Keeps (State.advance x a1) := by
  unfold State.advance
  repeat' first | with_reducible assumption | with_reducible apply State.elapse_keeps | dsimp only | split

/-! ### Operands -/

theorem State.pop_keeps {s x : State} (h : s.Keeps x) (a1) : s.Keeps (State.pop x a1) := by
  unfold State.pop
  repeat' first | with_reducible assumption | with_reducible rfl | with_reducible apply State.updRing_keeps
                | (simp only [State.keeps_mk]; with_reducible apply State.Raw.of) | dsimp only | split

/-! ### Bar2 -/

theorem State.memEvent_keeps {s x : State} (h : s.Keeps x) (a1 a2 a3 a4 a5) : s.Keeps (State.memEvent x a1 a2 a3 a4 a5) := by
  unfold State.memEvent
  repeat' first | with_reducible assumption | with_reducible rfl | with_reducible apply State.cper_keeps
                | (simp only [State.keeps_mk]; with_reducible apply State.Raw.of)

theorem State.wakeModule_keeps {s x : State} (h : s.Keeps x) : s.Keeps (State.wakeModule x) := by
  unfold State.wakeModule
  split
  · refine ⟨h.1, h.2.1, fun k => ⟨(h.2.2 k).1, fun i e => ?_⟩⟩
    dsimp only at e
    split at e
    · cases e
    · exact (h.2.2 k).2 i e
  · exact h

theorem State.bar2Serve_keeps {s x : State} (h : s.Keeps x) (a1 a2) : s.Keeps (State.bar2Serve x a1 a2) := by
  unfold State.bar2Serve
  repeat' first | with_reducible assumption | with_reducible apply State.count_keeps | with_reducible apply State.emit_keeps
                | with_reducible apply State.Keeps.fold | (intro y b hy) | dsimp only | split

theorem State.clearPoison_keeps {s x : State} (h : s.Keeps x) (a1 a2) : s.Keeps (State.clearPoison x a1 a2) := by
  unfold State.clearPoison
  repeat' first | with_reducible assumption | with_reducible rfl | with_reducible apply State.memEvent_keeps | with_reducible apply State.Keeps.fold
                | (simp only [State.keeps_mk]; with_reducible apply State.Raw.of) | (intro y b hy)

theorem State.clearStored_keeps {s x : State} (h : s.Keeps x) (a1 a2 a3) : s.Keeps (State.clearStored x a1 a2 a3) := by
  unfold State.clearStored
  repeat' first | with_reducible assumption | with_reducible apply State.clearPoison_keeps | with_reducible apply State.Keeps.fold | (intro y b hy)

theorem State.hostStore_keeps {s x : State} (h : s.Keeps x) (a1 a2) : s.Keeps (State.hostStore x a1 a2) := by
  unfold State.hostStore
  repeat' first | with_reducible assumption | with_reducible rfl | with_reducible apply State.Keeps.fold
                | (simp only [State.keeps_mk]; with_reducible apply State.Raw.wf) | with_reducible exact id
                | with_reducible exact fun hw => write_wf _ _ hw

theorem State.hostStoreAll_keeps {s x : State} (h : s.Keeps x) (a1 a2 a3) : s.Keeps (State.hostStoreAll x a1 a2 a3) := by
  induction a3 generalizing x a2 with
  | nil => exact h
  | cons b bs ih =>
    unfold State.hostStoreAll
    split
    · exact ih (State.hostStore_keeps h _ _) _
    · exact ih h _

theorem State.consumeTrace_keeps {s x : State} (h : s.Keeps x) (a1 a2 a3) : s.Keeps (State.consumeTrace x a1 a2 a3) := by
  unfold State.consumeTrace
  repeat' first | with_reducible assumption | with_reducible rfl | with_reducible apply State.count_keeps
                | with_reducible apply State.setTraceRing_keeps | with_reducible apply State.traceFreed_keeps | with_reducible apply State.Keeps.fold
                | (simp only [State.keeps_mk]; with_reducible apply State.Raw.wf) | with_reducible exact id
                | with_reducible exact fun hw => writeBytes_wf _ _ hw | (intro y b hy) | dsimp only | split

theorem State.bar2Store_keeps {s x : State} (h : s.Keeps x) (a1 a2) : s.Keeps (State.bar2Store x a1 a2) := by
  unfold State.bar2Store
  repeat' first | with_reducible assumption | with_reducible apply State.count_keeps | with_reducible apply State.clearStored_keeps
                | with_reducible apply State.hostStoreAll_keeps | with_reducible apply State.consumeTrace_keeps
                | with_reducible apply State.Keeps.fold | (intro y b hy) | dsimp only | split

theorem State.serveWait_keeps {s x : State} (h : s.Keeps x) (a1) : s.Keeps (State.serveWait x a1) := by
  unfold State.serveWait
  repeat' first | with_reducible assumption | with_reducible apply State.bar2Serve_keeps | with_reducible apply State.bar2Store_keeps | dsimp only
                | split

theorem State.serveBar2_keeps {s x : State} (h : s.Keeps x) : s.Keeps (State.serveBar2 x) := by
  unfold State.serveBar2
  repeat' first | with_reducible assumption | with_reducible rfl | with_reducible apply State.serveWait_keeps | with_reducible apply State.Keeps.fold
                | (simp only [State.keeps_mk]; with_reducible apply State.Raw.of) | (intro y b hy)

theorem State.abortWait_keeps {s x : State} (h : s.Keeps x) (a1) : s.Keeps (State.abortWait x a1) := by
  unfold State.abortWait
  repeat' first | with_reducible assumption | with_reducible rfl | with_reducible apply State.cper_keeps | with_reducible apply State.count_keeps
                | with_reducible apply State.emit_keeps | (simp only [State.keeps_mk]; with_reducible apply State.Raw.of)

theorem State.bar2ThermalAbort_keeps {s x : State} (h : s.Keeps x) (a1) : s.Keeps (State.bar2ThermalAbort x a1) := by
  unfold State.bar2ThermalAbort
  repeat' first | with_reducible assumption | with_reducible apply State.abortWait_keeps | dsimp only | split

theorem State.abortOverdue_keeps {s x : State} (h : s.Keeps x) : s.Keeps (State.abortOverdue x) := by
  unfold State.abortOverdue
  repeat' first | with_reducible assumption | with_reducible apply State.abortWait_keeps | with_reducible apply State.Keeps.fold | (intro y b hy)

theorem State.poisonGranule_keeps {s x : State} (h : s.Keeps x) (a1) : s.Keeps (State.poisonGranule x a1) := by
  unfold State.poisonGranule
  repeat' first | with_reducible assumption | with_reducible rfl | with_reducible apply State.memEvent_keeps
                | (simp only [State.keeps_mk]; with_reducible apply State.Raw.of) | dsimp only | split

theorem State.bar2Later_keeps {s x : State} (h : s.Keeps x) (a1 a2 a3) : s.Keeps (State.bar2Later x a1 a2 a3) := by
  unfold State.bar2Later
  repeat' first | with_reducible assumption | with_reducible rfl | (simp only [State.keeps_mk]; with_reducible apply State.Raw.of)

theorem State.bar2Write_keeps {s x : State} (h : s.Keeps x) (a1 a2) : s.Keeps (State.bar2Write x a1 a2) := by
  unfold State.bar2Write
  repeat' first | with_reducible assumption | with_reducible apply State.wakeModule_keeps | with_reducible apply State.count_keeps
                | with_reducible apply State.bar2Later_keeps | with_reducible apply State.bar2Store_keeps | dsimp only | split

theorem State.bar2Read_keeps {s x : State} (h : s.Keeps x) (a1 a2) : s.Keeps (State.bar2Read x a1 a2) := by
  unfold State.bar2Read
  repeat' first | with_reducible assumption | with_reducible apply State.wakeModule_keeps | with_reducible apply State.count_keeps
                | with_reducible apply State.emit_keeps | with_reducible apply State.bar2Later_keeps | with_reducible apply State.bar2Serve_keeps
                | dsimp only | split

/-! ### Frames -/

theorem State.sendFrame_keeps {s x : State} (h : s.Keeps x) (a1 a2 a3 a4) : s.Keeps (State.sendFrame x a1 a2 a3 a4) := by
  unfold State.sendFrame
  repeat' first | with_reducible assumption | with_reducible apply State.emit_keeps | with_reducible apply State.updLink_keeps

theorem State.putAt_keeps {s x : State} (h : s.Keeps x) (a1 a2 a3 a4 a5 a6) : s.Keeps (State.putAt x a1 a2 a3 a4 a5 a6) := by
  unfold State.putAt
  repeat' first | with_reducible assumption | with_reducible apply State.sendFrame_keeps | with_reducible apply State.updLink_keeps

theorem State.putFrame_keeps {s x : State} (h : s.Keeps x) (a1 a2 a3 a4) : s.Keeps (State.putFrame x a1 a2 a3 a4) := by
  unfold State.putFrame
  repeat' first | with_reducible assumption | with_reducible apply State.putAt_keeps

theorem State.traceReport_keeps {s x : State} (h : s.Keeps x) (a1 a2 a3 a4) : s.Keeps (State.traceReport x a1 a2 a3 a4) := by
  unfold State.traceReport
  repeat' first | with_reducible assumption | with_reducible apply State.traceRec_keeps | dsimp only | split

theorem State.sendReserved_keeps {s x : State} (h : s.Keeps x) (a1 a2) : s.Keeps (State.sendReserved x a1 a2) := by
  unfold State.sendReserved
  repeat' first | with_reducible assumption | with_reducible apply State.putFrame_keeps | with_reducible apply State.traceReport_keeps
                | with_reducible apply State.updLink_keeps | dsimp only | split

theorem State.sendControl_keeps {s x : State} (h : s.Keeps x) (a1 a2 a3 a4) : s.Keeps (State.sendControl x a1 a2 a3 a4) := by
  unfold State.sendControl
  repeat' first | with_reducible assumption | with_reducible apply State.sendReserved_keeps

theorem State.sendUnnumbered_keeps {s x : State} (h : s.Keeps x) (a1 a2) : s.Keeps (State.sendUnnumbered x a1 a2) := by
  unfold State.sendUnnumbered
  repeat' first | with_reducible assumption | with_reducible apply State.emit_keeps | with_reducible apply State.updLink_keeps

theorem State.heard_keeps {s x : State} (h : s.Keeps x) (a1) : s.Keeps (State.heard x a1) := by
  unfold State.heard
  repeat' first | with_reducible assumption | with_reducible apply State.updLink_keeps

theorem State.reparent_keeps {s x : State} (h : s.Keeps x) : s.Keeps (State.reparent x) := by
  unfold State.reparent
  repeat' first | with_reducible assumption | with_reducible rfl | (simp only [State.keeps_mk]; with_reducible apply State.Raw.of)

theorem State.flood_keeps {s x : State} (h : s.Keeps x) (a1 a2 a3) : s.Keeps (State.flood x a1 a2 a3) := by
  unfold State.flood
  repeat' first | with_reducible assumption | with_reducible apply State.sendControl_keeps | with_reducible apply State.Keeps.fold | (intro y b hy)

/-! ### Timing -/

theorem State.timingError_keeps {s x : State} (h : s.Keeps x) (a1 a2) : s.Keeps (State.timingError x a1 a2) := by
  unfold State.timingError
  repeat' first | with_reducible assumption | with_reducible apply State.cper_keeps

theorem State.enterHoldover_keeps {s x : State} (h : s.Keeps x) : s.Keeps (State.enterHoldover x) := by
  unfold State.enterHoldover
  repeat' first | with_reducible assumption | with_reducible rfl | with_reducible apply State.traceTime_keeps
                | with_reducible apply State.timingError_keeps | with_reducible apply State.raiseTiming_keeps
                | (simp only [State.keeps_mk]; with_reducible apply State.Raw.of) | dsimp only | split

theorem State.elect_keeps {s x : State} (h : s.Keeps x) (a1 a2) : s.Keeps (State.elect x a1 a2) := by
  unfold State.elect
  repeat' first | with_reducible assumption | with_reducible rfl | with_reducible apply State.reparent_keeps
                | (simp only [State.keeps_mk]; with_reducible apply State.Raw.of) | dsimp only | split

theorem State.floodElection_keeps {s x : State} (h : s.Keeps x) (a1 a2) : s.Keeps (State.floodElection x a1 a2) := by
  unfold State.floodElection
  repeat' first | with_reducible assumption | with_reducible apply State.flood_keeps | with_reducible apply State.Keeps.fold | (intro y b hy)
                | dsimp only | split

theorem State.sendElection_keeps {s x : State} (h : s.Keeps x) (a1) : s.Keeps (State.sendElection x a1) := by
  unfold State.sendElection
  repeat' first | with_reducible assumption | with_reducible rfl | with_reducible apply State.floodElection_keeps
                | (simp only [State.keeps_mk]; with_reducible apply State.Raw.of)

theorem State.cycDetChange_keeps {s x : State} (h : s.Keeps x) (a1) : s.Keeps (State.cycDetChange x a1) := by
  unfold State.cycDetChange
  repeat' first | with_reducible assumption | with_reducible rfl | (simp only [State.keeps_mk]; with_reducible apply State.Raw.of)

theorem State.cycOutPulse_keeps {s x : State} (h : s.Keeps x) : s.Keeps (State.cycOutPulse x) := by
  unfold State.cycOutPulse
  repeat' first | with_reducible assumption | with_reducible rfl | with_reducible apply State.emit_keeps
                | (simp only [State.keeps_mk]; with_reducible apply State.Raw.of) | dsimp only | split

theorem State.bindAll_keeps {s x : State} (h : s.Keeps x) : s.Keeps (State.bindAll x) := by
  unfold State.bindAll
  repeat' first | with_reducible assumption | with_reducible rfl | (simp only [State.keeps_mk]; with_reducible apply State.Raw.of)

theorem State.gaugeReceived_keeps {s x : State} (h : s.Keeps x) (a1 a2) : s.Keeps (State.gaugeReceived x a1 a2) := by
  unfold State.gaugeReceived
  repeat' first | with_reducible assumption | with_reducible rfl | with_reducible apply State.heard_keeps | with_reducible apply State.flood_keeps
                | with_reducible apply State.bindAll_keeps | (simp only [State.keeps_mk]; with_reducible apply State.Raw.of) | dsimp only | split

theorem State.setGaugeState_keeps {s x : State} (h : s.Keeps x) (a1) : s.Keeps (State.setGaugeState x a1) := by
  unfold State.setGaugeState
  repeat' first | with_reducible assumption | with_reducible rfl | with_reducible apply State.traceTime_keeps
                | (simp only [State.keeps_mk]; with_reducible apply State.Raw.of) | dsimp only | split

theorem State.issueRecord_keeps {s x : State} (h : s.Keeps x) (a1 a2 a3 a4) : s.Keeps (State.issueRecord x a1 a2 a3 a4) := by
  unfold State.issueRecord
  repeat' first | with_reducible assumption | with_reducible rfl | with_reducible apply State.flood_keeps | with_reducible apply State.bindAll_keeps
                | (simp only [State.keeps_mk]; with_reducible apply State.Raw.of)

theorem State.edgeRecord_keeps {s x : State} (h : s.Keeps x) (a1 a2) : s.Keeps (State.edgeRecord x a1 a2) := by
  unfold State.edgeRecord
  repeat' first | with_reducible assumption | with_reducible apply State.issueRecord_keeps | dsimp only | split

theorem State.gaugeCoasted_keeps {s x : State} (h : s.Keeps x) : s.Keeps (State.gaugeCoasted x) := by
  unfold State.gaugeCoasted
  repeat' first | with_reducible assumption | with_reducible rfl | with_reducible apply State.setGaugeState_keeps
                | with_reducible apply State.edgeRecord_keeps | with_reducible apply State.timingError_keeps
                | with_reducible apply State.raiseTiming_keeps | (simp only [State.keeps_mk]; with_reducible apply State.Raw.of) | dsimp only | split

theorem State.subRecords_keeps {s x : State} (h : s.Keeps x) (a1 a2 a3) : s.Keeps (State.subRecords x a1 a2 a3) := by
  induction a2 generalizing x a3 with
  | zero => exact h
  | succ n ih =>
    unfold State.subRecords
    dsimp only
    split
    · exact ih (State.issueRecord_keeps (State.keeps_mk.mpr (State.Raw.of h rfl rfl)) _ _ _ _) _
    · exact ih (State.keeps_mk.mpr (State.Raw.of h rfl rfl)) _

theorem State.quadCounted_keeps {s x : State} (h : s.Keeps x) (a1) : s.Keeps (State.quadCounted x a1) := by
  unfold State.quadCounted
  repeat' first | with_reducible assumption | with_reducible rfl | with_reducible apply State.subRecords_keeps
                | (simp only [State.keeps_mk]; with_reducible apply State.Raw.of) | dsimp only | split

theorem State.acquiringEdge_keeps {s x : State} (h : s.Keeps x) (a1 a2 a3) : s.Keeps (State.acquiringEdge x a1 a2 a3) := by
  unfold State.acquiringEdge
  repeat' first | with_reducible assumption | with_reducible rfl | with_reducible apply State.edgeRecord_keeps
                | with_reducible apply State.setGaugeState_keeps | (simp only [State.keeps_mk]; with_reducible apply State.Raw.of) | dsimp only
                | split

theorem State.numberedEdge_keeps {s x : State} (h : s.Keeps x) (a1 a2 a3) : s.Keeps (State.numberedEdge x a1 a2 a3) := by
  unfold State.numberedEdge
  repeat' first | with_reducible assumption | with_reducible rfl | with_reducible apply State.edgeRecord_keeps
                | with_reducible apply State.setGaugeState_keeps | (simp only [State.keeps_mk]; with_reducible apply State.Raw.of) | dsimp only
                | split

theorem State.takeEdge_keeps {s x : State} (h : s.Keeps x) (a1) : s.Keeps (State.takeEdge x a1) := by
  unfold State.takeEdge
  repeat' first | with_reducible assumption | with_reducible rfl | with_reducible apply State.acquiringEdge_keeps
                | with_reducible apply State.numberedEdge_keeps | (simp only [State.keeps_mk]; with_reducible apply State.Raw.of) | dsimp only | split

theorem State.cycInEdge_keeps {s x : State} (h : s.Keeps x) (a1 a2) : s.Keeps (State.cycInEdge x a1 a2) := by
  unfold State.cycInEdge
  repeat' first | with_reducible assumption | with_reducible rfl | with_reducible apply State.takeEdge_keeps
                | (simp only [State.keeps_mk]; with_reducible apply State.Raw.of) | dsimp only | split

theorem State.stepCounter_keeps {s x : State} (h : s.Keeps x) (a1 a2) : s.Keeps (State.stepCounter x a1 a2) := by
  unfold State.stepCounter
  repeat' first | with_reducible assumption | with_reducible rfl | with_reducible apply State.book_keeps | with_reducible apply State.traceTime_keeps
                | (simp only [State.keeps_mk]; with_reducible apply State.Raw.of) | dsimp only | split

theorem State.discipline_keeps {s x : State} (h : s.Keeps x) (a1) : s.Keeps (State.discipline x a1) := by
  unfold State.discipline
  repeat' first | with_reducible assumption | with_reducible rfl | (simp only [State.keeps_mk]; with_reducible apply State.Raw.of)

theorem State.locked_keeps {s x : State} (h : s.Keeps x) (a1) : s.Keeps (State.locked x a1) := by
  unfold State.locked
  repeat' first | with_reducible assumption | with_reducible rfl | with_reducible apply State.stepCounter_keeps
                | with_reducible apply State.discipline_keeps | (simp only [State.keeps_mk]; with_reducible apply State.Raw.of) | dsimp only | split

theorem State.ptpMessage_keeps {s x : State} (h : s.Keeps x) (a1) : s.Keeps (State.ptpMessage x a1) := by
  unfold State.ptpMessage
  repeat' first | with_reducible assumption | with_reducible rfl | with_reducible apply State.locked_keeps
                | (simp only [State.keeps_mk]; with_reducible apply State.Raw.of) | dsimp only | split

theorem State.ppsOutPulse_keeps {s x : State} (h : s.Keeps x) : s.Keeps (State.ppsOutPulse x) := by
  unfold State.ppsOutPulse
  repeat' first | with_reducible assumption | with_reducible rfl | with_reducible apply State.emit_keeps
                | (simp only [State.keeps_mk]; with_reducible apply State.Raw.of) | dsimp only | split

theorem State.unlock_keeps {s x : State} (h : s.Keeps x) : s.Keeps (State.unlock x) := by
  unfold State.unlock
  repeat' first | with_reducible assumption | with_reducible rfl | (simp only [State.keeps_mk]; with_reducible apply State.Raw.of)

theorem State.refLoss_keeps {s x : State} (h : s.Keeps x) (a1) : s.Keeps (State.refLoss x a1) := by
  unfold State.refLoss
  repeat' first | with_reducible assumption | with_reducible apply State.unlock_keeps | dsimp only | split

theorem State.ppsInEdge_keeps {s x : State} (h : s.Keeps x) (a1) : s.Keeps (State.ppsInEdge x a1) := by
  unfold State.ppsInEdge
  repeat' first | with_reducible assumption | with_reducible rfl | with_reducible apply State.locked_keeps
                | (simp only [State.keeps_mk]; with_reducible apply State.Raw.of) | dsimp only | split

theorem State.leaveHoldover_keeps {s x : State} (h : s.Keeps x) : s.Keeps (State.leaveHoldover x) := by
  unfold State.leaveHoldover
  repeat' first | with_reducible assumption | with_reducible rfl | (simp only [State.keeps_mk]; with_reducible apply State.Raw.of) | dsimp only
                | split

theorem State.newMaster_keeps {s x : State} (h : s.Keeps x) (a1) : s.Keeps (State.newMaster x a1) := by
  unfold State.newMaster
  repeat' first | with_reducible assumption | with_reducible rfl | with_reducible apply State.leaveHoldover_keeps
                | with_reducible apply State.reparent_keeps | with_reducible apply State.traceTime_keeps
                | with_reducible apply State.timingError_keeps | with_reducible apply State.raiseTiming_keeps
                | (simp only [State.keeps_mk]; with_reducible apply State.Raw.of)

theorem State.electionMessage_keeps {s x : State} (h : s.Keeps x) (a1 a2) : s.Keeps (State.electionMessage x a1 a2) := by
  unfold State.electionMessage
  repeat' first | with_reducible assumption | with_reducible rfl | with_reducible apply State.heard_keeps
                | with_reducible apply State.floodElection_keeps | with_reducible apply State.newMaster_keeps | with_reducible apply State.elect_keeps
                | (simp only [State.keeps_mk]; with_reducible apply State.Raw.of) | dsimp only | split

theorem State.holdoverExpiry_keeps {s x : State} (h : s.Keeps x) : s.Keeps (State.holdoverExpiry x) := by
  unfold State.holdoverExpiry
  repeat' first | with_reducible assumption | with_reducible rfl | with_reducible apply State.traceTime_keeps
                | with_reducible apply State.timingError_keeps | with_reducible apply State.raiseTiming_keeps
                | (simp only [State.keeps_mk]; with_reducible apply State.Raw.of) | dsimp only | split

theorem State.masterTakeover_keeps {s x : State} (h : s.Keeps x) : s.Keeps (State.masterTakeover x) := by
  unfold State.masterTakeover
  repeat' first | with_reducible assumption | with_reducible apply State.sendElection_keeps | with_reducible apply State.newMaster_keeps
                | with_reducible apply State.enterHoldover_keeps | dsimp only | split

theorem State.holdoverEntry_keeps {s x : State} (h : s.Keeps x) : s.Keeps (State.holdoverEntry x) := by
  unfold State.holdoverEntry
  repeat' first | with_reducible assumption | with_reducible apply State.enterHoldover_keeps | dsimp only | split

theorem State.masterHeard_keeps {s x : State} (h : s.Keeps x) (a1) : s.Keeps (State.masterHeard x a1) := by
  unfold State.masterHeard
  repeat' first | with_reducible assumption | with_reducible rfl | with_reducible apply State.heard_keeps
                | (simp only [State.keeps_mk]; with_reducible apply State.Raw.of) | dsimp only | split

theorem State.align_keeps {s x : State} (h : s.Keeps x) (a1) : s.Keeps (State.align x a1) := by
  unfold State.align
  repeat' first | with_reducible assumption | with_reducible rfl | with_reducible apply State.stepCounter_keeps
                | (simp only [State.keeps_mk]; with_reducible apply State.Raw.of) | dsimp only | split

theorem State.follow_keeps {s x : State} (h : s.Keeps x) (a1) : s.Keeps (State.follow x a1) := by
  unfold State.follow
  repeat' first | with_reducible assumption | with_reducible rfl | with_reducible apply State.align_keeps
                | with_reducible apply State.stepCounter_keeps | with_reducible apply State.leaveHoldover_keeps
                | with_reducible apply State.discipline_keeps | (simp only [State.keeps_mk]; with_reducible apply State.Raw.of) | dsimp only | split

theorem State.timeMessage_keeps {s x : State} (h : s.Keeps x) (a1 a2) : s.Keeps (State.timeMessage x a1 a2) := by
  unfold State.timeMessage
  repeat' first | with_reducible assumption | with_reducible rfl | with_reducible apply State.masterHeard_keeps
                | with_reducible apply State.heard_keeps | with_reducible apply State.follow_keeps | with_reducible apply State.sendControl_keeps
                | with_reducible apply State.Keeps.fold | (simp only [State.keeps_mk]; with_reducible apply State.Raw.of) | (intro y b hy)
                | dsimp only | split

theorem State.timeMessageSend_keeps {s x : State} (h : s.Keeps x) : s.Keeps (State.timeMessageSend x) := by
  unfold State.timeMessageSend
  repeat' first | with_reducible assumption | with_reducible rfl | with_reducible apply State.align_keeps
                | with_reducible apply State.sendControl_keeps | with_reducible apply State.Keeps.fold
                | (simp only [State.keeps_mk]; with_reducible apply State.Raw.of) | (intro y b hy) | dsimp only | split

theorem State.delayMeasured_keeps {s x : State} (h : s.Keeps x) (a1 a2 a3 a4 a5) : s.Keeps (State.delayMeasured x a1 a2 a3 a4 a5) := by
  unfold State.delayMeasured
  repeat' first | with_reducible assumption | with_reducible apply State.sendControl_keeps | with_reducible apply State.updLink_keeps
                | with_reducible apply State.heard_keeps | dsimp only | split

theorem State.gaugeDelayWrite_keeps {s x : State} (h : s.Keeps x) (a1) : s.Keeps (State.gaugeDelayWrite x a1) := by
  unfold State.gaugeDelayWrite
  repeat' first | with_reducible assumption | with_reducible rfl | with_reducible apply State.count_keeps
                | (simp only [State.keeps_mk]; with_reducible apply State.Raw.of) | dsimp only | split

theorem State.gaugeControlWrite_keeps {s x : State} (h : s.Keeps x) (a1) : s.Keeps (State.gaugeControlWrite x a1) := by
  unfold State.gaugeControlWrite
  repeat' first | with_reducible assumption | with_reducible rfl | with_reducible apply State.count_keeps
                | with_reducible apply State.setGaugeState_keeps | (simp only [State.keeps_mk]; with_reducible apply State.Raw.of) | dsimp only
                | split

theorem State.timeGaugeRead_keeps {s x : State} (h : s.Keeps x) : s.Keeps (State.timeGaugeRead x) := by
  unfold State.timeGaugeRead
  repeat' first | with_reducible assumption | with_reducible rfl | with_reducible apply State.emit_keeps
                | (simp only [State.keeps_mk]; with_reducible apply State.Raw.of)

theorem State.beginElection_keeps {s x : State} (h : s.Keeps x) : s.Keeps (State.beginElection x) := by
  unfold State.beginElection
  repeat' first | with_reducible assumption | with_reducible rfl | with_reducible apply State.sendElection_keeps
                | with_reducible apply State.elect_keeps | (simp only [State.keeps_mk]; with_reducible apply State.Raw.of) | dsimp only | split

/-! ### ConfigCmd -/

theorem State.getConfigReport_keeps {s x : State} (h : s.Keeps x) (a1) : s.Keeps (State.getConfigReport x a1) := by
  unfold State.getConfigReport
  repeat' first | with_reducible assumption | with_reducible apply State.finish_keeps | with_reducible apply State.finishData_keeps | dsimp only
                | split

theorem State.endSetConfig_keeps {s x : State} (h : s.Keeps x) (a1 a2 a3 a4) : s.Keeps (State.endSetConfig x a1 a2 a3 a4) := by
  unfold State.endSetConfig
  repeat' first | with_reducible assumption | with_reducible rfl | with_reducible apply State.emit_keeps | with_reducible apply State.complete_keeps
                | (simp only [State.keeps_mk]; with_reducible apply State.Raw.of) | dsimp only | split

theorem State.applyRecord_keeps {s x : State} (h : s.Keeps x) (a1 a2) : s.Keeps (State.applyRecord x a1 a2) := by
  unfold State.applyRecord
  repeat' first | with_reducible assumption | with_reducible rfl | (simp only [State.keeps_mk]; with_reducible apply State.Raw.of)

theorem State.setConfig_keeps {s x : State} (h : s.Keeps x) (a1) : s.Keeps (State.setConfig x a1) := by
  unfold State.setConfig
  repeat' first | with_reducible assumption | with_reducible apply State.finish_keeps | with_reducible apply State.endSetConfig_keeps
                | with_reducible apply State.wear_keeps | with_reducible apply State.applyRecord_keeps | dsimp only | split

theorem State.identify_keeps {s x : State} (h : s.Keeps x) (a1) : s.Keeps (State.identify x a1) := by
  unfold State.identify
  repeat' first | with_reducible assumption | with_reducible apply State.finish_keeps | with_reducible apply State.finishData_keeps | dsimp only
                | split

/-! ### Links -/

theorem State.regroup_keeps {s x : State} (h : s.Keeps x) : s.Keeps (State.regroup x) := by
  unfold State.regroup
  repeat' first | with_reducible assumption | with_reducible rfl | (simp only [State.keeps_mk]; with_reducible apply State.Raw.of)

theorem State.sendAckList_keeps {s x : State} (h : s.Keeps x) (a1 a2) : s.Keeps (State.sendAckList x a1 a2) := by
  unfold State.sendAckList
  repeat' first | with_reducible assumption | with_reducible apply State.sendControl_keeps

theorem State.unknownFrame_keeps {s x : State} (h : s.Keeps x) (a1 a2) : s.Keeps (State.unknownFrame x a1 a2) := by
  unfold State.unknownFrame
  repeat' first | with_reducible assumption | with_reducible apply State.count_keeps | dsimp only | split

theorem State.giveCredit_keeps {s x : State} (h : s.Keeps x) (a1) : s.Keeps (State.giveCredit x a1) := by
  unfold State.giveCredit
  repeat' first | with_reducible assumption | with_reducible rfl | (simp only [State.keeps_mk]; with_reducible apply State.Raw.of)

theorem State.ackFrames_keeps {s x : State} (h : s.Keeps x) (a1 a2) : s.Keeps (State.ackFrames x a1 a2) := by
  unfold State.ackFrames
  repeat' first | with_reducible assumption | with_reducible apply State.updLink_keeps | with_reducible apply State.giveCredit_keeps
                | with_reducible apply State.updCourse_keeps | with_reducible apply State.Keeps.fold | (intro y b hy) | dsimp only | split

theorem State.ackUpTo_keeps {s x : State} (h : s.Keeps x) (a1 a2) : s.Keeps (State.ackUpTo x a1 a2) := by
  unfold State.ackUpTo
  repeat' first | with_reducible assumption | with_reducible apply State.ackFrames_keeps

theorem State.cutFrame_keeps {s x : State} (h : s.Keeps x) (a1 a2 a3) : s.Keeps (State.cutFrame x a1 a2 a3) := by
  unfold State.cutFrame
  repeat' first | with_reducible assumption | with_reducible apply State.updLink_keeps | with_reducible apply State.heard_keeps | dsimp only | split

theorem State.trainingFrame_keeps {s x : State} (h : s.Keeps x) (a1 a2 a3 a4 a5) : s.Keeps (State.trainingFrame x a1 a2 a3 a4 a5) := by
  unfold State.trainingFrame
  repeat' first | with_reducible assumption | with_reducible apply State.regroup_keeps | with_reducible apply State.updLink_keeps
                | with_reducible apply State.sendUnnumbered_keeps | with_reducible apply State.reparent_keeps | dsimp only | split

theorem State.delayFrame_keeps {s x : State} (h : s.Keeps x) (a1 a2 a3) : s.Keeps (State.delayFrame x a1 a2 a3) := by
  unfold State.delayFrame
  repeat' first | with_reducible assumption | with_reducible apply State.sendControl_keeps | with_reducible apply State.updLink_keeps
                | with_reducible apply State.heard_keeps | dsimp only | split

theorem State.recut_keeps {s x : State} (h : s.Keeps x) (a1) : s.Keeps (State.recut x a1) := by
  unfold State.recut
  repeat' first | with_reducible assumption | with_reducible rfl | (simp only [State.keeps_mk]; with_reducible apply State.Raw.of) | dsimp only
                | split

theorem State.linkDown_keeps {s x : State} (h : s.Keeps x) (a1 a2) : s.Keeps (State.linkDown x a1 a2) := by
  unfold State.linkDown
  dsimp only
  refine State.cper_keeps (State.raiseFault_keeps (State.reparent_keeps (State.regroup_keeps
    (State.keeps_mk.mpr (State.Raw.drop (State.updLink_keeps (State.Keeps.fold (State.recut_keeps h _) fun y b hy => ?_) _ _)
      (fun e g => ?_) rfl rfl)))) _) _
  · exact State.giveCredit_keeps hy _
  · cases e <;> simp_all [Emission.lasting, Emission.beyond]

theorem State.uncorrectableFrame_keeps {s x : State} (h : s.Keeps x) (a1 a2) : s.Keeps (State.uncorrectableFrame x a1 a2) := by
  unfold State.uncorrectableFrame
  repeat' first | with_reducible assumption | with_reducible apply State.updLink_keeps | with_reducible apply State.linkDown_keeps
                | with_reducible apply State.sendAckList_keeps | dsimp only | split

theorem State.resendFrame_keeps {s x : State} (h : s.Keeps x) (a1 a2) : s.Keeps (State.resendFrame x a1 a2) := by
  unfold State.resendFrame
  repeat' first | with_reducible assumption | with_reducible apply State.linkDown_keeps | with_reducible apply State.updLink_keeps | dsimp only
                | split

theorem State.resendTimeout_keeps {s x : State} (h : s.Keeps x) (a1 a2) : s.Keeps (State.resendTimeout x a1 a2) := by
  unfold State.resendTimeout
  repeat' first | with_reducible assumption | with_reducible apply State.resendFrame_keeps | dsimp only | split

theorem State.ackReceived_keeps {s x : State} (h : s.Keeps x) (a1 a2 a3) : s.Keeps (State.ackReceived x a1 a2 a3) := by
  unfold State.ackReceived
  repeat' first | with_reducible assumption | with_reducible apply State.resendFrame_keeps | with_reducible apply State.ackFrames_keeps
                | with_reducible apply State.heard_keeps | with_reducible apply State.Keeps.fold | (intro y b hy) | dsimp only | split

theorem State.idleReceived_keeps {s x : State} (h : s.Keeps x) (a1 a2) : s.Keeps (State.idleReceived x a1 a2) := by
  unfold State.idleReceived
  repeat' first | with_reducible assumption | with_reducible apply State.ackUpTo_keeps | dsimp only | split

theorem State.noSkein_keeps {s x : State} (h : s.Keeps x) (a1 a2) : s.Keeps (State.noSkein x a1 a2) := by
  unfold State.noSkein
  repeat' first | with_reducible assumption | with_reducible rfl | with_reducible apply State.cper_keeps | with_reducible apply State.regroup_keeps
                | (simp only [State.keeps_mk]; with_reducible apply State.Raw.of)

theorem State.joinSkein_keeps {s x : State} (h : s.Keeps x) (a1 a2) : s.Keeps (State.joinSkein x a1 a2) := by
  unfold State.joinSkein
  repeat' first | with_reducible assumption | with_reducible rfl | with_reducible apply State.regroup_keeps
                | (simp only [State.keeps_mk]; with_reducible apply State.Raw.of)

theorem State.skeinFormation_keeps {s x : State} (h : s.Keeps x) (a1 a2) : s.Keeps (State.skeinFormation x a1 a2) := by
  unfold State.skeinFormation
  repeat' first | with_reducible assumption | with_reducible rfl | with_reducible apply State.noSkein_keeps
                | with_reducible apply State.joinSkein_keeps | with_reducible apply State.elect_keeps | with_reducible apply State.sendElection_keeps
                | (simp only [State.keeps_mk]; with_reducible apply State.Raw.of) | dsimp only | split

theorem State.linkRejoin_keeps {s x : State} (h : s.Keeps x) (a1) : s.Keeps (State.linkRejoin x a1) := by
  unfold State.linkRejoin
  repeat' first | with_reducible assumption | with_reducible apply State.updLink_keeps | dsimp only | split

theorem State.linkTrain_keeps {s x : State} (h : s.Keeps x) (a1) : s.Keeps (State.linkTrain x a1) := by
  unfold State.linkTrain
  repeat' first | with_reducible assumption | with_reducible apply State.updLink_keeps | with_reducible apply State.sendUnnumbered_keeps

theorem State.linkRetry_keeps {s x : State} (h : s.Keeps x) (a1) : s.Keeps (State.linkRetry x a1) := by
  unfold State.linkRetry
  repeat' first | with_reducible assumption | with_reducible apply State.linkTrain_keeps | dsimp only | split

theorem State.linkLoss_keeps {s x : State} (h : s.Keeps x) (a1) : s.Keeps (State.linkLoss x a1) := by
  unfold State.linkLoss
  repeat' first | with_reducible assumption | with_reducible apply State.linkDown_keeps | dsimp only | split

theorem State.linkUp_keeps {s x : State} (h : s.Keeps x) (a1 a2) : s.Keeps (State.linkUp x a1 a2) := by
  unfold State.linkUp
  repeat' first | with_reducible assumption | with_reducible apply State.linkDown_keeps | with_reducible apply State.reparent_keeps
                | with_reducible apply State.regroup_keeps | with_reducible apply State.updLink_keeps | dsimp only | split

theorem State.readCable_keeps {s x : State} (h : s.Keeps x) (a1 a2) : s.Keeps (State.readCable x a1 a2) := by
  unfold State.readCable
  repeat' first | with_reducible assumption | with_reducible apply State.updLink_keeps

theorem State.linkTraining_keeps {s x : State} (h : s.Keeps x) (a1 a2) : s.Keeps (State.linkTraining x a1 a2) := by
  unfold State.linkTraining
  repeat' first | with_reducible assumption | with_reducible apply State.readCable_keeps | with_reducible apply State.linkTrain_keeps | dsimp only
                | split

/-! ### Records -/

theorem State.takeSnapshot_keeps {s x : State} (h : s.Keeps x) : s.Keeps (State.takeSnapshot x) := by
  unfold State.takeSnapshot
  repeat' first | with_reducible assumption | with_reducible rfl | (simp only [State.keeps_mk]; with_reducible apply State.Raw.of)

/-! ### Observe -/

theorem State.jtagTake_keeps {s x : State} (h : s.Keeps x) (a1) : s.Keeps (State.jtagTake x a1) := by
  unfold State.jtagTake
  repeat' first | with_reducible assumption | with_reducible rfl | (simp only [State.keeps_mk]; with_reducible apply State.Raw.of) | dsimp only
                | split

theorem State.uartRx_keeps {s x : State} (h : s.Keeps x) (a1) : s.Keeps (State.uartRx x a1) := by
  unfold State.uartRx
  repeat' first | with_reducible assumption | with_reducible rfl | (simp only [State.keeps_mk]; with_reducible apply State.Raw.of) | dsimp only
                | split

theorem State.lapse_keeps {s x : State} (h : s.Keeps x) : s.Keeps (State.lapse x) := by
  unfold State.lapse
  repeat' first | with_reducible assumption | with_reducible rfl | (simp only [State.keeps_mk]; with_reducible apply State.Raw.of)

theorem State.tokenExpiry_keeps {s x : State} (h : s.Keeps x) : s.Keeps (State.tokenExpiry x) := by
  unfold State.tokenExpiry
  repeat' first | with_reducible assumption | with_reducible apply State.lapse_keeps | dsimp only | split

theorem State.obsWrite_keeps {s x : State} (h : s.Keeps x) (a1 a2) : s.Keeps (State.obsWrite x a1 a2) := by
  unfold State.obsWrite
  repeat' first | with_reducible assumption | with_reducible rfl | (simp only [State.keeps_mk]; with_reducible apply State.Raw.of) | dsimp only
                | split

theorem State.obsAccess_keeps {s x : State} (h : s.Keeps x) (a1 a2) : s.Keeps (State.obsAccess x a1 a2) := by
  unfold State.obsAccess
  repeat' first | with_reducible assumption | with_reducible apply State.emit_keeps | with_reducible apply State.obsWrite_keeps
                | with_reducible apply State.count_keeps | dsimp only | split

theorem State.countersRead_keeps {s x : State} (h : s.Keeps x) (a1) : s.Keeps (State.countersRead x a1) := by
  unfold State.countersRead
  repeat' first | with_reducible assumption | with_reducible apply State.finish_keeps | with_reducible apply State.finishData_keeps
                | with_reducible apply State.lostPage_keeps | dsimp only | split

theorem State.placeRing_keeps {s x : State} (h : s.Keeps x) (a1 a2) : s.Keeps (State.placeRing x a1 a2) := by
  unfold State.placeRing
  repeat' first | with_reducible assumption | with_reducible rfl | with_reducible apply State.setTraceRing_keeps
                | with_reducible apply State.Keeps.fold | (simp only [State.keeps_mk]; with_reducible apply State.Raw.wf) | with_reducible exact id
                | with_reducible exact fun hw => TraceRing.header_wf hw _ _

theorem State.traceStart_keeps {s x : State} (h : s.Keeps x) (a1 a2) : s.Keeps (State.traceStart x a1 a2) := by
  unfold State.traceStart
  repeat' first | with_reducible assumption | with_reducible apply State.finish_keeps | with_reducible apply State.placeRing_keeps | dsimp only
                | split

theorem State.traceStop_keeps {s x : State} (h : s.Keeps x) (a1 a2) : s.Keeps (State.traceStop x a1 a2) := by
  unfold State.traceStop
  repeat' first | with_reducible assumption | with_reducible apply State.finish_keeps | with_reducible apply State.placeRing_keeps | dsimp only
                | split

theorem State.traceStatus_keeps {s x : State} (h : s.Keeps x) (a1 a2) : s.Keeps (State.traceStatus x a1 a2) := by
  unfold State.traceStatus
  repeat' first | with_reducible assumption | with_reducible apply State.finishData_keeps | with_reducible apply State.finish_keeps | dsimp only
                | split

theorem State.tokenInstall_keeps {s x : State} (h : s.Keeps x) (a1) : s.Keeps (State.tokenInstall x a1) := by
  unfold State.tokenInstall
  repeat' first | with_reducible assumption | with_reducible rfl | with_reducible apply State.finish_keeps | with_reducible apply State.lapse_keeps
                | (simp only [State.keeps_mk]; with_reducible apply State.Raw.of) | dsimp only | split

theorem State.traceControl_keeps {s x : State} (h : s.Keeps x) (a1) : s.Keeps (State.traceControl x a1) := by
  unfold State.traceControl
  repeat' first | with_reducible assumption | with_reducible apply State.finish_keeps | with_reducible apply State.traceStart_keeps
                | with_reducible apply State.traceStop_keeps | with_reducible apply State.traceStatus_keeps
                | with_reducible apply State.tokenInstall_keeps | with_reducible apply State.lapse_keeps | dsimp only | split

/-! ### Pages -/

theorem State.updStack_keeps {s x : State} (h : s.Keeps x) (a1 a2) : s.Keeps (State.updStack x a1 a2) := by
  unfold State.updStack
  repeat' first | with_reducible assumption | with_reducible rfl | (simp only [State.keeps_mk]; with_reducible apply State.Raw.of)

theorem State.retired_keeps {s x : State} (h : s.Keeps x) (a1 a2) : s.Keeps (State.retired x a1 a2) := by
  unfold State.retired
  repeat' first | with_reducible assumption | with_reducible rfl | with_reducible apply State.updStack_keeps
                | with_reducible apply State.memEvent_keeps | with_reducible apply State.raiseFault_keeps
                | (simp only [State.keeps_mk]; with_reducible apply State.Raw.of)

theorem State.retirePage_keeps {s x : State} (h : s.Keeps x) (a1) : s.Keeps (State.retirePage x a1) := by
  unfold State.retirePage
  repeat' first | with_reducible assumption | with_reducible rfl | with_reducible apply State.retired_keeps
                | with_reducible apply State.memEvent_keeps | with_reducible apply State.updJob_keeps
                | (simp only [State.keeps_mk]; with_reducible apply State.Raw.of) | dsimp only | split

theorem State.serveDeferred_keeps {s x : State} (h : s.Keeps x) : s.Keeps (State.serveDeferred x) := by
  unfold State.serveDeferred
  repeat' first | with_reducible assumption | with_reducible rfl | with_reducible apply State.retirePage_keeps | with_reducible apply State.Keeps.fold
                | (simp only [State.keeps_mk]; with_reducible apply State.Raw.of) | (intro y b hy)

theorem State.stashChannel_keeps {s x : State} (h : s.Keeps x) (a1 a2) : s.Keeps (State.stashChannel x a1 a2) := by
  unfold State.stashChannel
  repeat' first | with_reducible assumption | with_reducible rfl | with_reducible apply State.cper_keeps | with_reducible apply State.raiseFault_keeps
                | (simp only [State.keeps_mk]; with_reducible apply State.Raw.of) | dsimp only | split

theorem State.uncorrected_keeps {s x : State} (h : s.Keeps x) (a1) : s.Keeps (State.uncorrected x a1) := by
  unfold State.uncorrected
  repeat' first | with_reducible assumption | with_reducible rfl | with_reducible apply State.updStack_keeps
                | with_reducible apply State.poisonGranule_keeps | (simp only [State.keeps_mk]; with_reducible apply State.Raw.of)

theorem State.rowError_keeps {s x : State} (h : s.Keeps x) (a1 a2) : s.Keeps (State.rowError x a1 a2) := by
  unfold State.rowError
  repeat' first | with_reducible assumption | with_reducible apply State.uncorrected_keeps | dsimp only | split

theorem State.pageRetirement_keeps {s x : State} (h : s.Keeps x) (a1 a2) : s.Keeps (State.pageRetirement x a1 a2) := by
  unfold State.pageRetirement
  repeat' first | with_reducible assumption | with_reducible apply State.retirePage_keeps | with_reducible apply State.rowError_keeps | dsimp only
                | split

theorem State.rowRepair_keeps {s x : State} (h : s.Keeps x) (a1 a2) : s.Keeps (State.rowRepair x a1 a2) := by
  unfold State.rowRepair
  repeat' first | with_reducible assumption | with_reducible rfl | with_reducible apply State.rowError_keeps
                | with_reducible apply State.updStack_keeps | with_reducible apply State.memEvent_keeps
                | (simp only [State.keeps_mk]; with_reducible apply State.Raw.of) | dsimp only | split

theorem State.corrected_keeps {s x : State} (h : s.Keeps x) (a1) : s.Keeps (State.corrected x a1) := by
  unfold State.corrected
  repeat' first | with_reducible assumption | with_reducible rfl | with_reducible apply State.updStack_keeps
                | (simp only [State.keeps_mk]; with_reducible apply State.Raw.of)

theorem State.patrolScrub_keeps {s x : State} (h : s.Keeps x) (a1 a2 a3) : s.Keeps (State.patrolScrub x a1 a2 a3) := by
  unfold State.patrolScrub
  repeat' first | with_reducible assumption | with_reducible apply State.corrected_keeps | with_reducible apply State.updStack_keeps
                | with_reducible apply State.uncorrected_keeps | dsimp only | split

/-! ### CastOn -/

theorem State.majorChange_keeps {s x : State} (h : s.Keeps x) (a1 a2) : s.Keeps (State.majorChange x a1 a2) := by
  unfold State.majorChange
  repeat' first | with_reducible assumption | with_reducible rfl | (simp only [State.keeps_mk]; with_reducible apply State.Raw.of) | dsimp only
                | split

theorem State.bridgeFail_keeps {s x : State} (h : s.Keeps x) (a1) : s.Keeps (State.bridgeFail x a1) := by
  unfold State.bridgeFail
  repeat' first | with_reducible assumption | with_reducible rfl | with_reducible apply State.cper_keeps | with_reducible apply State.raiseFault_keeps
                | (simp only [State.keeps_mk]; with_reducible apply State.Raw.of) | dsimp only | split

theorem State.lose_keeps {s x : State} (h : s.Keeps x) (a1) : s.Keeps (State.lose x a1) := by
  unfold State.lose
  repeat' first | with_reducible assumption | with_reducible rfl | (simp only [State.keeps_mk]; with_reducible apply State.Raw.of)

theorem State.unpowered_keeps {s x : State} (h : s.Keeps x) : s.Keeps (State.unpowered x) := by
  exact ⟨h.1, h.2.1, fun _ => ⟨wf_nil, fun i e => by cases e⟩⟩

theorem State.overvoltage_keeps {s x : State} (h : s.Keeps x) (a1) : s.Keeps (State.overvoltage x a1) := by
  unfold State.overvoltage
  repeat' first | with_reducible assumption | with_reducible rfl | with_reducible apply State.unpowered_keeps
                | (simp only [State.keeps_mk]; with_reducible apply State.Raw.of) | dsimp only | split

theorem State.powerLoss_keeps {s x : State} (h : s.Keeps x) (a1) : s.Keeps (State.powerLoss x a1) := by
  unfold State.powerLoss
  repeat' first | with_reducible assumption | with_reducible apply State.unpowered_keeps | with_reducible apply State.lose_keeps | dsimp only | split

theorem State.powerGood_keeps {s x : State} (h : s.Keeps x) (a1) : s.Keeps (State.powerGood x a1) := by
  unfold State.powerGood
  repeat' first | with_reducible assumption | with_reducible rfl | with_reducible apply State.unpowered_keeps
                | (simp only [State.keeps_mk]; with_reducible apply State.Raw.of) | dsimp only | split

theorem State.overtemp_keeps {s x : State} (h : s.Keeps x) (a1 a2) : s.Keeps (State.overtemp x a1 a2) := by
  unfold State.overtemp
  repeat' first | with_reducible assumption | with_reducible rfl | with_reducible apply State.lose_keeps
                | (simp only [State.keeps_mk]; with_reducible apply State.Raw.of) | dsimp only | split

theorem State.readStash_keeps {s x : State} (h : s.Keeps x) (a1) : s.Keeps (State.readStash x a1) := by
  unfold State.readStash
  repeat' first | with_reducible assumption | with_reducible rfl | with_reducible apply State.stashChannel_keeps
                | with_reducible apply State.Keeps.fold | (simp only [State.keeps_mk]; with_reducible apply State.Raw.of) | (intro y b hy)

theorem State.castBank_keeps {s x : State} (h : s.Keeps x) (a1) : s.Keeps (State.castBank x a1) := by
  unfold State.castBank
  repeat' first | with_reducible assumption | with_reducible rfl | with_reducible apply State.majorChange_keeps
                | (simp only [State.keeps_mk]; with_reducible apply State.Raw.of) | dsimp only | split

theorem State.takeConfig_keeps {s x : State} (h : s.Keeps x) (a1 a2 a3 a4 a5) : s.Keeps (State.takeConfig x a1 a2 a3 a4 a5) := by
  unfold State.takeConfig
  repeat' first | with_reducible assumption | with_reducible rfl | (simp only [State.keeps_mk]; with_reducible apply State.Raw.of)

theorem State.factoryConfig_keeps {s x : State} (h : s.Keeps x) : s.Keeps (State.factoryConfig x) := by
  unfold State.factoryConfig
  repeat' first | with_reducible assumption | with_reducible apply State.takeConfig_keeps

theorem State.castConfig_keeps {s x : State} (h : s.Keeps x) (a1) : s.Keeps (State.castConfig x a1) := by
  unfold State.castConfig
  repeat' first | with_reducible assumption | with_reducible rfl | with_reducible apply State.takeConfig_keeps
                | with_reducible apply State.factoryConfig_keeps | (simp only [State.keeps_mk]; with_reducible apply State.Raw.of) | dsimp only
                | split

theorem State.castTables_keeps {s x : State} (h : s.Keeps x) : s.Keeps (State.castTables x) := by
  unfold State.castTables
  repeat' first | with_reducible assumption | with_reducible rfl | (simp only [State.keeps_mk]; with_reducible apply State.Raw.of) | dsimp only
                | split

theorem State.castDefaults_keeps {s x : State} (h : s.Keeps x) : s.Keeps (State.castDefaults x) := by
  unfold State.castDefaults
  repeat' first | with_reducible assumption | with_reducible rfl | with_reducible apply State.factoryConfig_keeps
                | (simp only [State.keeps_mk]; with_reducible apply State.Raw.of) | dsimp only | split

theorem State.castMemory_keeps {s x : State} (h : s.Keeps x) (a1) : s.Keeps (State.castMemory x a1) := by
  unfold State.castMemory
  repeat' first | with_reducible assumption | with_reducible rfl | with_reducible apply State.serveDeferred_keeps
                | with_reducible apply State.castTables_keeps | with_reducible apply State.castDefaults_keeps | with_reducible apply State.Keeps.fold
                | (simp only [State.keeps_mk]; with_reducible apply State.Raw.wf) | with_reducible exact id | with_reducible exact fun hw => wf_nil

theorem State.castNeedles_keeps {s x : State} (h : s.Keeps x) : s.Keeps (State.castNeedles x) := by
  unfold State.castNeedles
  repeat' first | with_reducible assumption | with_reducible rfl | (simp only [State.keeps_mk]; with_reducible apply State.Raw.of) | dsimp only
                | split

theorem State.castUnits_keeps {s x : State} (h : s.Keeps x) (a1) : s.Keeps (State.castUnits x a1) := by
  unfold State.castUnits
  repeat' first | with_reducible assumption | with_reducible rfl | with_reducible apply State.castNeedles_keeps
                | with_reducible apply State.castDefaults_keeps | with_reducible apply State.mapRow_keeps | with_reducible apply State.retireNow_keeps
                | with_reducible apply State.buildSpareMap_keeps | with_reducible apply State.loadSample_keeps
                | with_reducible apply State.bridgeFail_keeps | with_reducible apply State.Keeps.fold
                | (simp only [State.keeps_mk]; with_reducible apply State.Raw.of) | (intro y b hy) | dsimp only | split

theorem State.castComplete_keeps {s x : State} (h : s.Keeps x) : s.Keeps (State.castComplete x) := by
  unfold State.castComplete
  repeat' first | with_reducible assumption | with_reducible rfl | with_reducible apply State.cper_keeps
                | (simp only [State.keeps_mk]; with_reducible apply State.Raw.of) | dsimp only | split

theorem State.castLinks_keeps {s x : State} (h : s.Keeps x) (a1) : s.Keeps (State.castLinks x a1) := by
  unfold State.castLinks
  repeat' first | with_reducible assumption | with_reducible apply State.updLink_keeps | with_reducible apply State.castDefaults_keeps
                | with_reducible apply State.regroup_keeps | with_reducible apply State.Keeps.fold | (intro y b hy) | dsimp only | split

theorem State.castPhase_keeps {s x : State} (h : s.Keeps x) : s.Keeps (State.castPhase x) := by
  unfold State.castPhase
  repeat' first | with_reducible assumption | with_reducible rfl | with_reducible apply State.readStash_keeps
                | with_reducible apply State.castBank_keeps | with_reducible apply State.castConfig_keeps
                | with_reducible apply State.castMemory_keeps | with_reducible apply State.castUnits_keeps
                | with_reducible apply State.castComplete_keeps | with_reducible apply State.castLinks_keeps
                | (simp only [State.keeps_mk]; with_reducible apply State.Raw.of) | dsimp only | split

theorem State.tick_keeps {s x : State} (h : s.Keeps x) : s.Keeps (State.tick x) := by
  unfold State.tick
  repeat' first | with_reducible assumption | with_reducible apply State.advance_keeps | with_reducible apply State.castPhase_keeps | dsimp only
                | split

/-! ### Power -/

theorem State.dieTemperature_keeps {s x : State} (h : s.Keeps x) (a1 a2) : s.Keeps (State.dieTemperature x a1 a2) := by
  unfold State.dieTemperature
  repeat' first | with_reducible assumption | with_reducible rfl | (simp only [State.keeps_mk]; with_reducible apply State.Raw.of) | dsimp only
                | split

theorem State.overcurrent_keeps {s x : State} (h : s.Keeps x) (a1) : s.Keeps (State.overcurrent x a1) := by
  unfold State.overcurrent
  repeat' first | with_reducible assumption | with_reducible rfl | (simp only [State.keeps_mk]; with_reducible apply State.Raw.of) | dsimp only
                | split

theorem State.powerSample_keeps {s x : State} (h : s.Keeps x) (a1 a2 a3 a4) : s.Keeps (State.powerSample x a1 a2 a3 a4) := by
  unfold State.powerSample
  repeat' first | with_reducible assumption | with_reducible rfl | (simp only [State.keeps_mk]; with_reducible apply State.Raw.of) | dsimp only
                | split

theorem State.measureExit_keeps {s x : State} (h : s.Keeps x) (a1 a2) : s.Keeps (State.measureExit x a1 a2) := by
  unfold State.measureExit
  repeat' first | with_reducible assumption | with_reducible rfl | (simp only [State.keeps_mk]; with_reducible apply State.Raw.of)

theorem State.reloadAtExit_keeps {s x : State} (h : s.Keeps x) : s.Keeps (State.reloadAtExit x) := by
  unfold State.reloadAtExit
  repeat' first | with_reducible assumption | with_reducible rfl | (simp only [State.keeps_mk]; with_reducible apply State.Raw.of)

theorem State.settleTolerance_keeps {s x : State} (h : s.Keeps x) : s.Keeps (State.settleTolerance x) := by
  unfold State.settleTolerance
  repeat' first | with_reducible assumption | with_reducible rfl | with_reducible apply State.finish_keeps
                | (simp only [State.keeps_mk]; with_reducible apply State.Raw.of) | dsimp only | split

theorem State.wake_keeps {s x : State} (h : s.Keeps x) (a1) : s.Keeps (State.wake x a1) := by
  unfold State.wake
  repeat' first | with_reducible assumption | with_reducible rfl | with_reducible apply State.wakeModule_keeps
                | (simp only [State.keeps_mk]; with_reducible apply State.Raw.of) | dsimp only | split

theorem State.exitDeeper_keeps {s x : State} (h : s.Keeps x) : s.Keeps (State.exitDeeper x) := by
  unfold State.exitDeeper
  repeat' first | with_reducible assumption | with_reducible apply State.wake_keeps | with_reducible apply State.Keeps.fold | (intro y b hy)

theorem State.exitDone_keeps {s x : State} (h : s.Keeps x) (a1) : s.Keeps (State.exitDone x a1) := by
  unfold State.exitDone
  repeat' first | with_reducible assumption | with_reducible rfl | with_reducible apply State.measureExit_keeps
                | with_reducible apply State.reloadAtExit_keeps | with_reducible apply State.settleTolerance_keeps
                | with_reducible apply State.exitDeeper_keeps | with_reducible apply State.serveBar2_keeps
                | (simp only [State.keeps_mk]; with_reducible apply State.Raw.of) | dsimp only | split

theorem State.badChunk_keeps {s x : State} (h : s.Keeps x) (a1) : s.Keeps (State.badChunk x a1) := by
  unfold State.badChunk
  repeat' first | with_reducible assumption | with_reducible rfl | with_reducible apply State.memEvent_keeps
                | (simp only [State.keeps_mk]; with_reducible apply State.Raw.of) | dsimp only | split

theorem State.hibernateExit_keeps {s x : State} (h : s.Keeps x) (a1) : s.Keeps (State.hibernateExit x a1) := by
  unfold State.hibernateExit
  split
  · next cells e =>
    split
    · dsimp only
      simp only [State.keeps_mk]
      refine State.Raw.of (State.Keeps.fold (x := { x with mem := { x.mem with cells := cells }, stash := { x.stash with hibernate := none } }) ?_ ?_) rfl rfl
      · exact ⟨h.1, h.2.1, fun k => ⟨(h.2.2 k).2 _ e, fun i g => by cases g⟩⟩
      · exact fun y b hy => State.badChunk_keeps hy _
    · exact h
  · exact h

theorem State.linksOff_keeps {s x : State} (h : s.Keeps x) : s.Keeps (State.linksOff x) := by
  unfold State.linksOff
  repeat' first | with_reducible assumption | with_reducible rfl | with_reducible apply State.regroup_keeps
                | (simp only [State.keeps_mk]; with_reducible apply State.Raw.of)

theorem State.hibernateEntry_keeps {s x : State} (h : s.Keeps x) : s.Keeps (State.hibernateEntry x) := by
  unfold State.hibernateEntry
  split
  · exact h
  · split
    · refine State.wear_keeps ?_
      repeat' first | with_reducible assumption | with_reducible rfl | with_reducible apply State.fillStores_keeps
                    | with_reducible apply State.enterHoldover_keeps | with_reducible apply State.linksOff_keeps
                    | (simp only [State.keeps_mk]; with_reducible apply State.Raw.of) | dsimp only | split
    · split
      · refine State.keeps_mk.mpr ⟨h.1, h.2.1, fun e => ⟨(h.2.2 e).1, ?_⟩⟩
        intro i g
        cases g
        exact (h.2.2 e).1
      · exact h

theorem State.standbyEntry_keeps {s x : State} (h : s.Keeps x) : s.Keeps (State.standbyEntry x) := by
  unfold State.standbyEntry
  repeat' first | with_reducible assumption | with_reducible rfl | (simp only [State.keeps_mk]; with_reducible apply State.Raw.of) | dsimp only
                | split

theorem State.setPw_keeps {s x : State} (h : s.Keeps x) (a1 a2) : s.Keeps (State.setPw x a1 a2) := by
  unfold State.setPw
  repeat' first | with_reducible assumption | with_reducible rfl | (simp only [State.keeps_mk]; with_reducible apply State.Raw.of) | dsimp only
                | split

theorem State.deepEntry_keeps {s x : State} (h : s.Keeps x) (a1) : s.Keeps (State.deepEntry x a1) := by
  unfold State.deepEntry
  repeat' first | with_reducible assumption | with_reducible rfl | with_reducible apply State.loseRegisters_keeps
                | with_reducible apply State.setPw_keeps | (simp only [State.keeps_mk]; with_reducible apply State.Raw.of) | dsimp only | split

theorem State.shallowEntry_keeps {s x : State} (h : s.Keeps x) (a1) : s.Keeps (State.shallowEntry x a1) := by
  unfold State.shallowEntry
  repeat' first | with_reducible assumption | with_reducible apply State.setPw_keeps | dsimp only | split

theorem State.timedWake_keeps {s x : State} (h : s.Keeps x) (a1) : s.Keeps (State.timedWake x a1) := by
  unfold State.timedWake
  repeat' first | with_reducible assumption | with_reducible apply State.wake_keeps | dsimp only | split

theorem State.setLatencyTolerance_keeps {s x : State} (h : s.Keeps x) (a1) : s.Keeps (State.setLatencyTolerance x a1) := by
  unfold State.setLatencyTolerance
  repeat' first | with_reducible assumption | with_reducible rfl | with_reducible apply State.finish_keeps
                | with_reducible apply State.settleTolerance_keeps | with_reducible apply State.exitDeeper_keeps
                | (simp only [State.keeps_mk]; with_reducible apply State.Raw.of) | dsimp only | split

/-! ### Firmware -/

theorem State.dhcpAddress_keeps {s x : State} (h : s.Keeps x) (a1) : s.Keeps (State.dhcpAddress x a1) := by
  unfold State.dhcpAddress
  repeat' first | with_reducible assumption | with_reducible rfl | (simp only [State.keeps_mk]; with_reducible apply State.Raw.of)

theorem State.dhcpFallback_keeps {s x : State} (h : s.Keeps x) : s.Keeps (State.dhcpFallback x) := by
  unfold State.dhcpFallback
  repeat' first | with_reducible assumption | with_reducible rfl | with_reducible apply State.free_keeps
                | (simp only [State.keeps_mk]; with_reducible apply State.Raw.of) | dsimp only | split

theorem State.spdm_keeps {s x : State} (h : s.Keeps x) (a1 a2) : s.Keeps (State.spdm x a1 a2) := by
  unfold State.spdm
  repeat' first | with_reducible assumption | with_reducible rfl | with_reducible apply State.emit_keeps
                | (simp only [State.keeps_mk]; with_reducible apply State.Raw.of) | dsimp only | split

theorem State.trialExpiry_keeps {s x : State} (h : s.Keeps x) : s.Keeps (State.trialExpiry x) := by
  unfold State.trialExpiry
  repeat' first | with_reducible assumption | with_reducible rfl | (simp only [State.keeps_mk]; with_reducible apply State.Raw.of) | dsimp only
                | split

theorem State.microcodeSwitch_keeps {s x : State} (h : s.Keeps x) (a1) : s.Keeps (State.microcodeSwitch x a1) := by
  unfold State.microcodeSwitch
  repeat' first | with_reducible assumption | with_reducible rfl | (simp only [State.keeps_mk]; with_reducible apply State.Raw.of) | dsimp only
                | split

theorem State.handedOver_keeps {s x : State} (h : s.Keeps x) (a1) : s.Keeps (State.handedOver x a1) := by
  unfold State.handedOver
  repeat' first | with_reducible assumption | with_reducible rfl | with_reducible apply State.majorChange_keeps
                | with_reducible apply State.finish_keeps | with_reducible apply State.writeHeld_keeps | with_reducible apply State.complete_keeps
                | with_reducible apply State.Keeps.fold | (simp only [State.keeps_mk]; with_reducible apply State.Raw.of) | (intro y b hy)

theorem State.fwHandover_keeps {s x : State} (h : s.Keeps x) : s.Keeps (State.fwHandover x) := by
  unfold State.fwHandover
  repeat' first | with_reducible assumption | with_reducible rfl | with_reducible apply State.handedOver_keeps
                | (simp only [State.keeps_mk]; with_reducible apply State.Raw.of) | dsimp only | split

theorem State.attest_keeps {s x : State} (h : s.Keeps x) (a1) : s.Keeps (State.attest x a1) := by
  unfold State.attest
  repeat' first | with_reducible assumption | with_reducible apply State.finish_keeps | with_reducible apply State.finishData_keeps | dsimp only
                | split

theorem State.activate_keeps {s x : State} (h : s.Keeps x) (a1 a2) : s.Keeps (State.activate x a1 a2) := by
  unfold State.activate
  repeat' first | with_reducible assumption | with_reducible rfl | with_reducible apply State.wear_keeps | with_reducible apply State.finish_keeps
                | (simp only [State.keeps_mk]; with_reducible apply State.Raw.of) | dsimp only | split

theorem State.fwActivate_keeps {s x : State} (h : s.Keeps x) (a1) : s.Keeps (State.fwActivate x a1) := by
  unfold State.fwActivate
  repeat' first | with_reducible assumption | with_reducible apply State.finish_keeps | with_reducible apply State.lostPage_keeps
                | with_reducible apply State.activate_keeps | dsimp only | split

theorem State.fwBlock_keeps {s x : State} (h : s.Keeps x) (a1) : s.Keeps (State.fwBlock x a1) := by
  unfold State.fwBlock
  repeat' first | with_reducible assumption | with_reducible rfl | with_reducible apply State.finish_keeps | with_reducible apply State.wear_keeps
                | (simp only [State.keeps_mk]; with_reducible apply State.Raw.of) | dsimp only | split

/-! ### Stacks -/

theorem State.flashWear_keeps {s x : State} (h : s.Keeps x) : s.Keeps (State.flashWear x) := by
  unfold State.flashWear
  repeat' first | with_reducible assumption | with_reducible rfl | with_reducible apply State.wear_keeps | with_reducible apply State.raiseFault_keeps
                | (simp only [State.keeps_mk]; with_reducible apply State.Raw.of) | dsimp only | split

theorem State.wearMove_keeps {s x : State} (h : s.Keeps x) (a1 a2) : s.Keeps (State.wearMove x a1 a2) := by
  unfold State.wearMove
  repeat' first | with_reducible assumption | with_reducible rfl | with_reducible apply State.flashWear_keeps
                | (simp only [State.keeps_mk]; with_reducible apply State.Raw.of) | dsimp only | split

theorem State.retentionScrub_keeps {s x : State} (h : s.Keeps x) (a1) : s.Keeps (State.retentionScrub x a1) := by
  unfold State.retentionScrub
  repeat' first | with_reducible assumption | with_reducible apply State.free_keeps | with_reducible rfl | with_reducible apply State.flashWear_keeps
                | (simp only [State.keeps_mk]; with_reducible apply State.Raw.of) | dsimp only | split

theorem State.stackTemperature_keeps {s x : State} (h : s.Keeps x) (a1 a2) : s.Keeps (State.stackTemperature x a1 a2) := by
  unfold State.stackTemperature
  repeat' first | with_reducible assumption | with_reducible rfl | with_reducible apply State.abortOverdue_keeps
                | with_reducible apply State.updStack_keeps | with_reducible apply State.memEvent_keeps | with_reducible apply State.raiseFault_keeps
                | with_reducible apply State.drainSpill_keeps | with_reducible apply State.serveBar2_keeps
                | with_reducible apply State.wakeModule_keeps | (simp only [State.keeps_mk]; with_reducible apply State.Raw.of) | dsimp only | split

/-! ### Scale -/

theorem State.putWorking_keeps {s x : State} (h : s.Keeps x) (a1 a2 a3) : s.Keeps (State.putWorking x a1 a2 a3) := by
  unfold State.putWorking
  repeat' first | with_reducible assumption | with_reducible apply State.updJob_keeps

theorem State.writeCode_keeps {s x : State} (h : s.Keeps x) (a1 a2 a3) : s.Keeps (State.writeCode x a1 a2 a3) := by
  unfold State.writeCode
  repeat' first | with_reducible assumption | with_reducible apply State.count_keeps | with_reducible apply State.updJob_keeps
                | with_reducible apply State.putWorking_keeps | dsimp only | split

theorem State.startAttempt_keeps {s x : State} (h : s.Keeps x) (a1 a2) : s.Keeps (State.startAttempt x a1 a2) := by
  unfold State.startAttempt
  repeat' first | with_reducible assumption | with_reducible apply State.updJob_keeps | with_reducible apply State.writeCode_keeps
                | with_reducible apply State.Keeps.fold | (intro y b hy)

/-! ### Lifecycle -/

theorem State.closeJob_keeps {s x : State} (h : s.Keeps x) (a1 a2) : s.Keeps (State.closeJob x a1 a2) := by
  unfold State.closeJob
  dsimp only
  refine State.finish_keeps (State.serveDeferred_keeps (State.keeps_mk.mpr (State.Raw.wf (State.endHostWaits_keeps h _) (fun hw => ?_) rfl))) _ _ _
  dsimp only
  split
  · exact TraceRing.header_wf hw _ _
  · exact hw

theorem State.endClose_keeps {s x : State} (h : s.Keeps x) (a1) : s.Keeps (State.endClose x a1) := by
  unfold State.endClose
  repeat' first | with_reducible assumption | with_reducible apply State.closeJob_keeps | dsimp only | split

theorem State.applyDelta_keeps {s x : State} (h : s.Keeps x) (a1 a2 a3) : s.Keeps (State.applyDelta x a1 a2 a3) := by
  unfold State.applyDelta
  repeat' first | with_reducible assumption | with_reducible apply State.finish_keeps | with_reducible apply State.updJob_keeps | dsimp only | split

theorem State.flushDelta_keeps {s x : State} (h : s.Keeps x) (a1 a2 a3) : s.Keeps (State.flushDelta x a1 a2 a3) := by
  induction a3 generalizing x with
  | nil => exact h
  | cons d ds ih =>
    unfold State.flushDelta
    split
    · exact ih (State.applyDelta_keeps (State.updJob_keeps h _ _) _ _ _)
    · exact h

theorem State.flushDeltas_keeps {s x : State} (h : s.Keeps x) (a1) : s.Keeps (State.flushDeltas x a1) := by
  unfold State.flushDeltas
  repeat' first | with_reducible assumption | with_reducible apply State.flushDelta_keeps | with_reducible apply State.Keeps.fold | (intro y b hy)
                | dsimp only | split

theorem State.tryClose_keeps {s x : State} (h : s.Keeps x) (a1) : s.Keeps (State.tryClose x a1) := by
  unfold State.tryClose
  repeat' first | with_reducible assumption | with_reducible apply State.endClose_keeps | with_reducible apply State.flushDeltas_keeps

theorem State.dropWait_keeps {s x : State} (h : s.Keeps x) (a0 a1 a3) : s.Keeps (State.dropWait a0 a1 x a3) := by
  unfold State.dropWait
  repeat' first | with_reducible assumption | with_reducible apply State.traceWait_keeps | with_reducible apply State.chargePort_keeps
                | with_reducible apply State.bookTo_keeps | with_reducible apply State.free_keeps | dsimp only | split

theorem State.bookAttempt_keeps {s x : State} (h : s.Keeps x) (a1 a2) : s.Keeps (State.bookAttempt x a1 a2) := by
  unfold State.bookAttempt
  repeat' first | with_reducible assumption | with_reducible rfl | with_reducible apply State.updCourse_keeps
                | with_reducible apply State.countPort_keeps | with_reducible apply State.dropWait_keeps | with_reducible apply State.bookTo_keeps
                | with_reducible apply State.Keeps.fold | (intro y b hy)

theorem State.countTiles_keeps {s x : State} (h : s.Keeps x) (a1 a2 a3) : s.Keeps (State.countTiles x a1 a2 a3) := by
  unfold State.countTiles
  repeat' first | with_reducible assumption | with_reducible apply State.updNeedle_keeps | with_reducible apply State.updCourse_keeps

theorem State.countSome_keeps {s x : State} (h : s.Keeps x) (a1) : s.Keeps (State.countSome x a1) := by
  unfold State.countSome
  repeat' first | with_reducible assumption | with_reducible apply State.free_keeps | with_reducible apply State.countTiles_keeps
                | with_reducible apply State.Keeps.fold | (intro y b hy)

theorem State.flagTile_keeps {s x : State} (h : s.Keeps x) (a1 a2) : s.Keeps (State.flagTile x a1 a2) := by
  unfold State.flagTile
  repeat' first | with_reducible assumption | with_reducible apply State.free_keeps | with_reducible apply State.traceRec_keeps
                | with_reducible apply State.count_keeps

theorem State.flagSome_keeps {s x : State} (h : s.Keeps x) (a1) : s.Keeps (State.flagSome x a1) := by
  unfold State.flagSome
  repeat' first | with_reducible assumption | with_reducible apply State.free_keeps | with_reducible apply State.flagTile_keeps
                | with_reducible apply State.Keeps.fold | (intro y b hy) | dsimp only | split

theorem State.traceRetire_keeps {s x : State} (h : s.Keeps x) (a1 a2 a3) : s.Keeps (State.traceRetire x a1 a2 a3) := by
  unfold State.traceRetire
  repeat' first | with_reducible assumption | with_reducible apply State.traceRec_keeps

theorem State.stopCourse_keeps {s x : State} (h : s.Keeps x) (a1 a2 a3) : s.Keeps (State.stopCourse x a1 a2 a3) := by
  unfold State.stopCourse
  repeat' first | with_reducible assumption | with_reducible apply State.countSome_keeps | with_reducible apply State.flagSome_keeps
                | with_reducible apply State.traceRetire_keeps | with_reducible apply State.countUnit_keeps | with_reducible apply State.Keeps.fold
                | (intro y b hy) | dsimp only | split

theorem State.voidEmissions_keeps {s x : State} (h : s.Keeps x) (a1) : s.Keeps (State.voidEmissions x a1) := by
  unfold State.voidEmissions
  repeat' first | with_reducible assumption | with_reducible apply State.updJob_keeps

theorem State.purge_keeps {s x : State} (h : s.Keeps x) (a1) : s.Keeps (State.purge x a1) := by
  unfold State.purge
  dsimp only
  refine State.keeps_mk.mpr (State.Raw.drop h (fun e g => ?_) rfl rfl)
  cases e <;> simp_all [Emission.lasting, State.unsends]

theorem State.boundary_keeps {s x : State} (h : s.Keeps x) (a1) : s.Keeps (State.boundary x a1) := by
  unfold State.boundary
  repeat' first | with_reducible assumption | with_reducible rfl | with_reducible apply State.mapFailedRows_keeps
                | with_reducible apply State.retireFree_keeps | with_reducible apply State.Keeps.fold
                | (simp only [State.keeps_mk]; with_reducible apply State.Raw.of) | (intro y b hy) | dsimp only | split

theorem State.dropCourse_keeps {s x : State} (h : s.Keeps x) (a1 a2) : s.Keeps (State.dropCourse x a1 a2) := by
  unfold State.dropCourse
  repeat' first | with_reducible assumption | with_reducible rfl | with_reducible apply State.bookAttempt_keeps
                | with_reducible apply State.stopCourse_keeps | with_reducible apply State.voidEmissions_keeps
                | with_reducible apply State.purge_keeps | with_reducible apply State.leaveAll_keeps | with_reducible apply State.boundary_keeps
                | (simp only [State.keeps_mk]; with_reducible apply State.Raw.of)

theorem State.traceStep_keeps {s x : State} (h : s.Keeps x) (a1 a2 a3) : s.Keeps (State.traceStep x a1 a2 a3) := by
  unfold State.traceStep
  repeat' first | with_reducible assumption | with_reducible apply State.traceRec_keeps

theorem State.reportAll_keeps {s x : State} (h : s.Keeps x) (a1 a2) : s.Keeps (State.reportAll x a1 a2) := by
  unfold State.reportAll
  repeat' first | with_reducible assumption | with_reducible rfl | with_reducible apply State.sendReserved_keeps
                | with_reducible apply State.traceRec_keeps | with_reducible apply State.Keeps.fold
                | (simp only [State.keeps_mk]; with_reducible apply State.Raw.of) | (intro y b hy) | dsimp only | split

theorem State.expose_keeps {s x : State} (h : s.Keeps x) (a1) : s.Keeps (State.expose x a1) := by
  unfold State.expose
  repeat' first | with_reducible assumption | with_reducible rfl | (simp only [State.keeps_mk]; with_reducible apply State.Raw.of)

theorem State.hide_keeps {s x : State} (h : s.Keeps x) (a1 a2) : s.Keeps (State.hide x a1 a2) := by
  unfold State.hide
  repeat' first | with_reducible assumption | with_reducible rfl | (simp only [State.keeps_mk]; with_reducible apply State.Raw.of) | dsimp only
                | split

theorem State.endWaits_keeps {s x : State} (h : s.Keeps x) (a1 a2) : s.Keeps (State.endWaits x a1 a2) := by
  unfold State.endWaits
  repeat' first | with_reducible assumption | with_reducible apply State.updCourse_keeps | with_reducible apply State.endWait_keeps
                | with_reducible apply State.Keeps.fold | (intro y b hy)

theorem State.relayReport_keeps {s x : State} (h : s.Keeps x) (a1 a2 a3 a4) : s.Keeps (State.relayReport x a1 a2 a3 a4) := by
  unfold State.relayReport
  repeat' first | with_reducible assumption | with_reducible apply State.traceRec_keeps | with_reducible apply State.reportAll_keeps | dsimp only
                | split

theorem State.exposeBy_keeps {s x : State} (h : s.Keeps x) (a1 a2 a3 a4) : s.Keeps (State.exposeBy x a1 a2 a3 a4) := by
  unfold State.exposeBy
  repeat' first | with_reducible assumption | with_reducible apply State.expose_keeps

/-! ### Steps -/

theorem State.endStep_keeps {s x : State} (h : s.Keeps x) (a1 a2 a3 a4) : s.Keeps (State.endStep x a1 a2 a3 a4) := by
  unfold State.endStep
  repeat' first | with_reducible assumption | with_reducible apply State.traceStep_keeps | with_reducible apply State.finish_keeps | dsimp only
                | split

theorem State.discardStep_keeps {s x : State} (h : s.Keeps x) (a1 a2 a3) : s.Keeps (State.discardStep x a1 a2 a3) := by
  unfold State.discardStep
  repeat' first | with_reducible assumption | with_reducible apply State.dropCourse_keeps | with_reducible apply State.endStep_keeps
                | with_reducible apply State.Keeps.fold | (intro y b hy)

theorem State.discardWork_keeps {s x : State} (h : s.Keeps x) (a1) : s.Keeps (State.discardWork x a1) := by
  unfold State.discardWork
  repeat' first | with_reducible assumption | with_reducible apply State.updJob_keeps

theorem State.judge_keeps {s x : State} (h : s.Keeps x) (a1 a2) : s.Keeps (State.judge x a1 a2) := by
  unfold State.judge
  repeat' first | with_reducible assumption | with_reducible apply State.updJob_keeps | with_reducible apply State.reportAll_keeps | dsimp only
                | split

theorem State.abandonStep_keeps {s x : State} (h : s.Keeps x) (a1 a2 a3 a4) : s.Keeps (State.abandonStep x a1 a2 a3 a4) := by
  unfold State.abandonStep
  repeat' first | with_reducible assumption | with_reducible apply State.dropCourse_keeps | with_reducible apply State.updJob_keeps
                | with_reducible apply State.discardWork_keeps | with_reducible apply State.cper_keeps | with_reducible apply State.endStep_keeps
                | with_reducible apply State.countJob_keeps | with_reducible apply State.discardStep_keeps | with_reducible apply State.Keeps.fold
                | (intro y b hy) | dsimp only | split

theorem State.renewEmission_keeps {s x : State} (h : s.Keeps x) (a1) : s.Keeps (State.renewEmission x a1) := by
  unfold State.renewEmission
  repeat' first | with_reducible assumption | with_reducible rfl | with_reducible apply State.updJob_keeps
                | with_reducible apply State.updCourse_keeps | (simp only [State.keeps_mk]; with_reducible apply State.Raw.of) | dsimp only | split

theorem State.frogCourse_keeps {s x : State} (h : s.Keeps x) (a1 a2 a3) : s.Keeps (State.frogCourse x a1 a2 a3) := by
  unfold State.frogCourse
  repeat' first | with_reducible assumption | with_reducible apply State.bookAttempt_keeps | with_reducible apply State.stopCourse_keeps
                | with_reducible apply State.renewEmission_keeps | with_reducible apply State.voidEmissions_keeps
                | with_reducible apply State.purge_keeps | with_reducible apply State.leaveAll_keeps | with_reducible apply State.boundary_keeps
                | with_reducible apply State.updCourse_keeps

theorem State.renameAfter_keeps {s x : State} (h : s.Keeps x) (a1) : s.Keeps (State.renameAfter x a1) := by
  unfold State.renameAfter
  repeat' first | with_reducible assumption | with_reducible apply State.updCourse_keeps | with_reducible apply State.Keeps.fold | (intro y b hy)

theorem State.repeatStep_keeps {s x : State} (h : s.Keeps x) (a1 a2 a3 a4) : s.Keeps (State.repeatStep x a1 a2 a3 a4) := by
  unfold State.repeatStep
  repeat' first | with_reducible assumption | with_reducible apply State.frogCourse_keeps | with_reducible apply State.updJob_keeps
                | with_reducible apply State.discardWork_keeps | with_reducible apply State.renameAfter_keeps | with_reducible apply State.Keeps.fold
                | (intro y b hy)

theorem State.frogStep_keeps {s x : State} (h : s.Keeps x) (a1 a2 a3 a4) : s.Keeps (State.frogStep x a1 a2 a3 a4) := by
  unfold State.frogStep
  repeat' first | with_reducible assumption | with_reducible apply State.countJob_keeps | with_reducible apply State.abandonStep_keeps
                | with_reducible apply State.repeatStep_keeps | dsimp only | split

theorem State.releaseCourses_keeps {s x : State} (h : s.Keeps x) (a1) : s.Keeps (State.releaseCourses x a1) := by
  unfold State.releaseCourses
  repeat' first | with_reducible assumption | with_reducible rfl | with_reducible apply State.bookAttempt_keeps
                | with_reducible apply State.Keeps.fold | (simp only [State.keeps_mk]; with_reducible apply State.Raw.of) | (intro y b hy)

theorem State.commitStep_keeps {s x : State} (h : s.Keeps x) (a1 a2 a3) : s.Keeps (State.commitStep x a1 a2 a3) := by
  unfold State.commitStep
  repeat' first | with_reducible assumption | with_reducible apply State.releaseCourses_keeps | with_reducible apply State.newView_keeps
                | with_reducible apply State.clearPoison_keeps | with_reducible apply State.changeLatest_keeps
                | with_reducible apply State.expose_keeps | with_reducible apply State.updJob_keeps | with_reducible apply State.countJob_keeps
                | with_reducible apply State.endStep_keeps | with_reducible apply State.sweepViews_keeps
                | with_reducible apply State.startAttempt_keeps | with_reducible apply State.Keeps.fold | (intro y b hy) | dsimp only | split

theorem State.conclude_keeps {s x : State} (h : s.Keeps x) (a1 a2 a3 a4) : s.Keeps (State.conclude x a1 a2 a3 a4) := by
  unfold State.conclude
  repeat' first | with_reducible assumption | with_reducible apply State.frogStep_keeps | with_reducible apply State.commitStep_keeps | dsimp only
                | split

theorem State.collectVerdicts_keeps {s x : State} (h : s.Keeps x) (a1) : s.Keeps (State.collectVerdicts x a1) := by
  unfold State.collectVerdicts
  repeat' first | with_reducible assumption | with_reducible apply State.conclude_keeps | with_reducible apply State.Keeps.fold | (intro y b hy)
                | dsimp only | split

theorem State.settleOnce_keeps {s x : State} (h : s.Keeps x) (a1) : s.Keeps (State.settleOnce x a1) := by
  unfold State.settleOnce
  repeat' first | with_reducible assumption | with_reducible apply State.judge_keeps | with_reducible apply State.collectVerdicts_keeps
                | with_reducible apply State.Keeps.fold | (intro y b hy) | dsimp only | split

theorem State.settle_keeps {s x : State} (h : s.Keeps x) (a1) : s.Keeps (State.settle x a1) := by
  unfold State.settle
  repeat' first | with_reducible assumption | with_reducible apply State.tryClose_keeps | with_reducible apply State.settleOnce_keeps

theorem State.frogImplicit_keeps {s x : State} (h : s.Keeps x) (a1) : s.Keeps (State.frogImplicit x a1) := by
  unfold State.frogImplicit
  repeat' first | with_reducible assumption | with_reducible apply State.countJob_keeps | with_reducible apply State.dropCourse_keeps
                | with_reducible apply State.tryClose_keeps | with_reducible apply State.cper_keeps | with_reducible apply State.frogCourse_keeps
                | dsimp only | split

theorem State.settleImplicit_keeps {s x : State} (h : s.Keeps x) (a1) : s.Keeps (State.settleImplicit x a1) := by
  unfold State.settleImplicit
  repeat' first | with_reducible assumption | with_reducible apply State.frogImplicit_keeps | dsimp only | split

theorem State.dropWindowEnd_keeps {s x : State} (h : s.Keeps x) (a1) : s.Keeps (State.dropWindowEnd x a1) := by
  unfold State.dropWindowEnd
  repeat' first | with_reducible assumption | with_reducible apply State.updJob_keeps | with_reducible apply State.tryClose_keeps
                | with_reducible apply State.finish_keeps | dsimp only | split

theorem State.reenter_keeps {s x : State} (h : s.Keeps x) (a1) : s.Keeps (State.reenter x a1) := by
  unfold State.reenter
  repeat' first | with_reducible assumption | with_reducible apply State.insertCourse_keeps | with_reducible apply State.updCourse_keeps
                | with_reducible apply State.Keeps.fold | (intro y b hy)

theorem State.frogRestart_keeps {s x : State} (h : s.Keeps x) (a1) : s.Keeps (State.frogRestart x a1) := by
  unfold State.frogRestart
  repeat' first | with_reducible assumption | with_reducible apply State.reenter_keeps | with_reducible apply State.startAttempt_keeps
                | with_reducible apply State.updJob_keeps | with_reducible apply State.Keeps.fold | (intro y b hy) | dsimp only | split

theorem State.verdictTimeout_keeps {s x : State} (h : s.Keeps x) (a1) : s.Keeps (State.verdictTimeout x a1) := by
  unfold State.verdictTimeout
  repeat' first | with_reducible assumption | with_reducible apply State.settle_keeps | with_reducible apply State.conclude_keeps | dsimp only | split

theorem State.verdictIn_keeps {s x : State} (h : s.Keeps x) (a1 a2 a3 a4 a5) : s.Keeps (State.verdictIn x a1 a2 a3 a4 a5) := by
  unfold State.verdictIn
  repeat' first | with_reducible assumption | with_reducible apply State.settle_keeps | with_reducible apply State.updJob_keeps
                | with_reducible apply State.traceReportIn_keeps | dsimp only | split

theorem State.verdictReport_keeps {s x : State} (h : s.Keeps x) (a1 a2 a3 a4 a5 a6) : s.Keeps (State.verdictReport x a1 a2 a3 a4 a5 a6) := by
  unfold State.verdictReport
  repeat' first | with_reducible assumption | with_reducible apply State.verdictIn_keeps | with_reducible apply State.relayReport_keeps

theorem State.implicitCommit_keeps {s x : State} (h : s.Keeps x) (a1) : s.Keeps (State.implicitCommit x a1) := by
  unfold State.implicitCommit
  repeat' first | with_reducible assumption | with_reducible apply State.clearPoison_keeps | with_reducible apply State.changeLatest_keeps
                | with_reducible apply State.countJob_keeps | with_reducible apply State.releaseCourses_keeps
                | with_reducible apply State.expose_keeps | with_reducible apply State.tryClose_keeps | with_reducible apply State.sweepViews_keeps
                | with_reducible apply State.Keeps.fold | (intro y b hy) | dsimp only | split

theorem State.stepCommit_keeps {s x : State} (h : s.Keeps x) (a1) : s.Keeps (State.stepCommit x a1) := by
  unfold State.stepCommit
  repeat' first | with_reducible assumption | with_reducible apply State.finish_keeps | with_reducible apply State.settle_keeps
                | with_reducible apply State.updJob_keeps | dsimp only | split

theorem State.stepBegin_keeps {s x : State} (h : s.Keeps x) (a1) : s.Keeps (State.stepBegin x a1) := by
  unfold State.stepBegin
  repeat' first | with_reducible assumption | with_reducible apply State.finish_keeps | with_reducible apply State.updJob_keeps
                | with_reducible apply State.startAttempt_keeps | with_reducible apply State.settle_keeps | dsimp only | split

/-! ### Jobs -/

theorem State.snapGranules_keeps {s x : State} (h : s.Keeps x) (a1 a2 a3) : s.Keeps (State.snapGranules x a1 a2 a3).2 := by
  induction a2 generalizing x a3 with
  | zero => exact h
  | succ n ih =>
    unfold State.snapGranules
    dsimp only
    split
    · exact ih h _
    · exact ih (State.free_keeps h) _

theorem State.snapBytes_keeps {s x : State} (h : s.Keeps x) (a1 a2 a3 a4 a5) : s.Keeps (State.snapBytes x a1 a2 a3 a4 a5).2 := by
  unfold State.snapBytes
  repeat' first | with_reducible assumption | with_reducible apply State.snapGranules_keeps | dsimp only | split

theorem State.snapCopy_keeps {s x : State} (h : s.Keeps x) (a1 a2 a3 a4) : s.Keeps (State.snapCopy x a1 a2 a3 a4).1 := by
  induction a4 generalizing x a3 with
  | nil => exact h
  | cons e es ih =>
    unfold State.snapCopy
    split
    · exact h
    · dsimp only
      split
      · exact State.emit_keeps (State.snapBytes_keeps h _ _ _ _ _) _
      · exact ih (State.emit_keeps (State.snapBytes_keeps h _ _ _ _ _) _) _

theorem State.snapshotDone_keeps {s x : State} (h : s.Keeps x) (a1 a2) : s.Keeps (State.snapshotDone x a1 a2) := by
  unfold State.snapshotDone
  repeat' first | with_reducible assumption | with_reducible rfl | with_reducible apply State.snapCopy_keeps | with_reducible apply State.finish_keeps
                | with_reducible apply State.tryClose_keeps | with_reducible apply State.sweepViews_keeps
                | (simp only [State.keeps_mk]; with_reducible apply State.Raw.of) | dsimp only | split

theorem State.closeUnderCut_keeps {s x : State} (h : s.Keeps x) (a1) : s.Keeps (State.closeUnderCut x a1) := by
  unfold State.closeUnderCut
  repeat' first | with_reducible assumption | with_reducible apply State.discardStep_keeps | with_reducible apply State.updJob_keeps
                | with_reducible apply State.discardWork_keeps | with_reducible apply State.dropCourse_keeps | with_reducible apply State.Keeps.fold
                | (intro y b hy)

theorem State.openTimeout_keeps {s x : State} (h : s.Keeps x) (a1) : s.Keeps (State.openTimeout x a1) := by
  unfold State.openTimeout
  repeat' first | with_reducible assumption | with_reducible rfl | with_reducible apply State.finish_keeps
                | (simp only [State.keeps_mk]; with_reducible apply State.Raw.of) | dsimp only | split

theorem State.tryOpen_keeps {s x : State} (h : s.Keeps x) (a1) : s.Keeps (State.tryOpen x a1) := by
  unfold State.tryOpen
  repeat' first | with_reducible assumption | with_reducible rfl | with_reducible apply State.finish_keeps
                | (simp only [State.keeps_mk]; with_reducible apply State.Raw.of) | dsimp only | split

theorem State.takeExchange_keeps {s x : State} (h : s.Keeps x) (a1 a2) : s.Keeps (State.takeExchange x a1 a2) := by
  unfold State.takeExchange
  repeat' first | with_reducible assumption | with_reducible rfl | with_reducible apply State.tryOpen_keeps
                | (simp only [State.keeps_mk]; with_reducible apply State.Raw.of) | dsimp only | split

theorem State.openExchange_keeps {s x : State} (h : s.Keeps x) (a1 a2 a3) : s.Keeps (State.openExchange x a1 a2 a3) := by
  unfold State.openExchange
  repeat' first | with_reducible assumption | with_reducible apply State.takeExchange_keeps | with_reducible apply State.relayReport_keeps

theorem State.snapshotRead_keeps {s x : State} (h : s.Keeps x) (a1) : s.Keeps (State.snapshotRead x a1) := by
  unfold State.snapshotRead
  repeat' first | with_reducible assumption | with_reducible rfl | with_reducible apply State.finish_keeps
                | (simp only [State.keeps_mk]; with_reducible apply State.Raw.of) | dsimp only | split

theorem State.mapTensor_keeps {s x : State} (h : s.Keeps x) (a1 a2) : s.Keeps (State.mapTensor x a1 a2) := by
  unfold State.mapTensor
  repeat' first | with_reducible assumption | with_reducible apply State.updJob_keeps

theorem State.tensorMapIn_keeps {s x : State} (h : s.Keeps x) (a1 a2) : s.Keeps (State.tensorMapIn x a1 a2) := by
  unfold State.tensorMapIn
  repeat' first | with_reducible assumption | with_reducible apply State.finish_keeps | with_reducible apply State.mapTensor_keeps | dsimp only
                | split

theorem State.tensorUnmap_keeps {s x : State} (h : s.Keeps x) (a1 a2 a3) : s.Keeps (State.tensorUnmap x a1 a2 a3) := by
  unfold State.tensorUnmap
  repeat' first | with_reducible assumption | with_reducible apply State.finish_keeps | with_reducible apply State.updJob_keeps
                | with_reducible apply State.serveDeferred_keeps | with_reducible apply State.Keeps.fold | (intro y b hy) | dsimp only | split

theorem State.tensorMap_keeps {s x : State} (h : s.Keeps x) (a1) : s.Keeps (State.tensorMap x a1) := by
  unfold State.tensorMap
  repeat' first | with_reducible assumption | with_reducible apply State.finish_keeps | with_reducible apply State.tensorMapIn_keeps
                | with_reducible apply State.tensorUnmap_keeps | dsimp only | split

theorem State.closeOpenStep_keeps {s x : State} (h : s.Keeps x) (a1) : s.Keeps (State.closeOpenStep x a1) := by
  unfold State.closeOpenStep
  repeat' first | with_reducible assumption | with_reducible apply State.updJob_keeps | with_reducible apply State.discardStep_keeps
                | with_reducible apply State.discardWork_keeps | dsimp only | split

theorem State.jobClose_keeps {s x : State} (h : s.Keeps x) (a1) : s.Keeps (State.jobClose x a1) := by
  unfold State.jobClose
  repeat' first | with_reducible assumption | with_reducible apply State.finish_keeps | with_reducible apply State.updJob_keeps
                | with_reducible apply State.settle_keeps | with_reducible apply State.closeUnderCut_keeps
                | with_reducible apply State.closeOpenStep_keeps | dsimp only | split

theorem State.startOpening_keeps {s x : State} (h : s.Keeps x) (a1 a2) : s.Keeps (State.startOpening x a1 a2) := by
  unfold State.startOpening
  repeat' first | with_reducible assumption | with_reducible rfl | with_reducible apply State.tryOpen_keeps
                | with_reducible apply State.reportAll_keeps | with_reducible apply State.beginElection_keeps
                | (simp only [State.keeps_mk]; with_reducible apply State.Raw.of)

theorem State.jobOpen_keeps {s x : State} (h : s.Keeps x) (a1) : s.Keeps (State.jobOpen x a1) := by
  unfold State.jobOpen
  repeat' first | with_reducible assumption | with_reducible rfl | with_reducible apply State.finish_keeps
                | with_reducible apply State.startOpening_keeps | (simp only [State.keeps_mk]; with_reducible apply State.Raw.of) | dsimp only | split

/-! ### Patterns -/

theorem State.patternIn_keeps {s x : State} (h : s.Keeps x) (a1 a2) : s.Keeps (State.patternIn x a1 a2) := by
  unfold State.patternIn
  repeat' first | with_reducible assumption | with_reducible apply State.finish_keeps | with_reducible apply State.updJob_keeps | dsimp only | split

theorem State.patternOut_keeps {s x : State} (h : s.Keeps x) (a1 a2 a3) : s.Keeps (State.patternOut x a1 a2 a3) := by
  unfold State.patternOut
  repeat' first | with_reducible assumption | with_reducible apply State.finish_keeps | with_reducible apply State.updJob_keeps | dsimp only | split

theorem State.patternLoad_keeps {s x : State} (h : s.Keeps x) (a1) : s.Keeps (State.patternLoad x a1) := by
  unfold State.patternLoad
  repeat' first | with_reducible assumption | with_reducible apply State.finish_keeps | with_reducible apply State.patternIn_keeps
                | with_reducible apply State.patternOut_keeps | dsimp only | split

/-! ### Submit -/

theorem State.heldEnqueue_keeps {s x : State} (h : s.Keeps x) (a1) : s.Keeps (State.heldEnqueue x a1) := by
  unfold State.heldEnqueue
  repeat' first | with_reducible assumption | with_reducible rfl | with_reducible apply State.setQueue_keeps
                | (simp only [State.keeps_mk]; with_reducible apply State.Raw.of) | dsimp only | split

theorem State.holdCommand_keeps {s x : State} (h : s.Keeps x) (a1) : s.Keeps (State.holdCommand x a1) := by
  unfold State.holdCommand
  repeat' first | with_reducible assumption | with_reducible apply State.updRing_keeps | dsimp only | split

theorem State.enqueue_keeps {s x : State} (h : s.Keeps x) (a1) : s.Keeps (State.enqueue x a1) := by
  unfold State.enqueue
  repeat' first | with_reducible assumption | with_reducible rfl | with_reducible apply State.insertCourse_keeps
                | with_reducible apply State.Keeps.fold | (simp only [State.keeps_mk]; with_reducible apply State.Raw.of) | (intro y b hy)

theorem State.acceptCourse_keeps {s x : State} (h : s.Keeps x) (a1 a2 a3) : s.Keeps (State.acceptCourse x a1 a2 a3) := by
  unfold State.acceptCourse
  repeat' first | with_reducible assumption | with_reducible apply State.finish_keeps | with_reducible apply State.updJob_keeps
                | with_reducible apply State.enqueue_keeps

theorem State.submit_keeps {s x : State} (h : s.Keeps x) (a1 a2 a3 a4 a5) : s.Keeps (State.submit x a1 a2 a3 a4 a5) := by
  unfold State.submit
  repeat' first | with_reducible assumption | with_reducible apply State.finish_keeps | with_reducible apply State.holdCommand_keeps
                | with_reducible apply State.acceptCourse_keeps | dsimp only | split

theorem State.courseSubmit_keeps {s x : State} (h : s.Keeps x) (a1) : s.Keeps (State.courseSubmit x a1) := by
  unfold State.courseSubmit
  repeat' first | with_reducible assumption | with_reducible apply State.finish_keeps | with_reducible apply State.submit_keeps | dsimp only | split

/-! ### SolveCmd -/

theorem State.solveCmd_keeps {s x : State} (h : s.Keeps x) (a1) : s.Keeps (State.solveCmd x a1) := by
  unfold State.solveCmd
  repeat' first | with_reducible assumption | with_reducible apply State.finish_keeps | with_reducible apply State.holdCommand_keeps
                | with_reducible apply State.enqueue_keeps | dsimp only | split

theorem State.holdAccept_keeps {s x : State} (h : s.Keeps x) (a1) : s.Keeps (State.holdAccept x a1) := by
  unfold State.holdAccept
  repeat' first | with_reducible assumption | with_reducible apply State.updRing_keeps | with_reducible apply State.finish_keeps
                | with_reducible apply State.solveCmd_keeps | with_reducible apply State.courseSubmit_keeps | dsimp only | split

theorem State.takeDelta_keeps {s x : State} (h : s.Keeps x) (a1 a2 a3) : s.Keeps (State.takeDelta x a1 a2 a3) := by
  unfold State.takeDelta
  repeat' first | with_reducible assumption | with_reducible apply State.flushDeltas_keeps | with_reducible apply State.updJob_keeps

theorem State.deltaUpdate_keeps {s x : State} (h : s.Keeps x) (a1) : s.Keeps (State.deltaUpdate x a1) := by
  unfold State.deltaUpdate
  repeat' first | with_reducible assumption | with_reducible apply State.finish_keeps | with_reducible apply State.takeDelta_keeps | dsimp only
                | split

theorem State.reportStructure_keeps {s x : State} (h : s.Keeps x) (a1 a2) : s.Keeps (State.reportStructure x a1 a2) := by
  unfold State.reportStructure
  repeat' first | with_reducible assumption | with_reducible apply State.finishData_keeps

theorem State.structureIn_keeps {s x : State} (h : s.Keeps x) (a1 a2) : s.Keeps (State.structureIn x a1 a2) := by
  unfold State.structureIn
  repeat' first | with_reducible assumption | with_reducible apply State.finish_keeps | with_reducible apply State.reportStructure_keeps
                | with_reducible apply State.updJob_keeps | dsimp only | split

theorem State.structureChange_keeps {s x : State} (h : s.Keeps x) (a1 a2 a3 a4 a5) : s.Keeps (State.structureChange x a1 a2 a3 a4 a5) := by
  unfold State.structureChange
  repeat' first | with_reducible assumption | with_reducible apply State.finish_keeps | with_reducible apply State.updJob_keeps
                | with_reducible apply State.reportStructure_keeps | with_reducible apply State.serveDeferred_keeps | dsimp only | split

theorem State.structureLoad_keeps {s x : State} (h : s.Keeps x) (a1) : s.Keeps (State.structureLoad x a1) := by
  unfold State.structureLoad
  repeat' first | with_reducible assumption | with_reducible apply State.finish_keeps | with_reducible apply State.structureIn_keeps
                | with_reducible apply State.structureChange_keeps | dsimp only | split

/-! ### Launch -/

theorem State.keepStaging_keeps {s x : State} (h : s.Keeps x) (a1 a2 a3 a4 a5) : s.Keeps (State.keepStaging x a1 a2 a3 a4 a5) := by
  unfold State.keepStaging
  repeat' first | with_reducible assumption | with_reducible apply State.updCourse_keeps | with_reducible apply State.Keeps.fold | (intro y b hy)
                | dsimp only | split

theorem State.runLinks_keeps {s x : State} (h : s.Keeps x) (a1) : s.Keeps (State.runLinks x a1) := by
  unfold State.runLinks
  repeat' first | with_reducible assumption | with_reducible rfl | with_reducible apply State.keepStaging_keeps
                | with_reducible apply State.updCourse_keeps | with_reducible apply State.Keeps.fold
                | (simp only [State.keeps_mk]; with_reducible apply State.Raw.of) | (intro y b hy) | dsimp only | split

theorem State.runPanel_keeps {s x : State} (h : s.Keeps x) (a1 a2) : s.Keeps (State.runPanel x a1 a2) := by
  unfold State.runPanel
  repeat' first | with_reducible assumption | with_reducible rfl | with_reducible apply State.keepStaging_keeps
                | with_reducible apply State.fillStores_keeps | (simp only [State.keeps_mk]; with_reducible apply State.Raw.of) | dsimp only | split

theorem State.missLaunch_keeps {s x : State} (h : s.Keeps x) (a1) : s.Keeps (State.missLaunch x a1) := by
  unfold State.missLaunch
  repeat' first | with_reducible assumption | with_reducible rfl | with_reducible apply State.raiseTiming_keeps
                | with_reducible apply State.countUnit_keeps | with_reducible apply State.countJob_keeps | with_reducible apply State.count_keeps
                | (simp only [State.keeps_mk]; with_reducible apply State.Raw.of)

theorem State.firstLaunch_keeps {s x : State} (h : s.Keeps x) (a1 a2) : s.Keeps (State.firstLaunch x a1 a2) := by
  unfold State.firstLaunch
  repeat' first | with_reducible assumption | with_reducible apply State.updCourse_keeps | with_reducible apply State.traceRec_keeps
                | with_reducible apply State.missLaunch_keeps | dsimp only | split

theorem State.dropItem_keeps {s x : State} (h : s.Keeps x) (a1) : s.Keeps (State.dropItem x a1) := by
  unfold State.dropItem
  repeat' first | with_reducible assumption | with_reducible apply State.updNeedle_keeps | dsimp only | split

theorem State.start_keeps {s x : State} (h : s.Keeps x) (a1 a2) : s.Keeps (State.start x a1 a2) := by
  unfold State.start
  repeat' first | with_reducible assumption | with_reducible apply State.firstLaunch_keeps | with_reducible apply State.endWaits_keeps
                | with_reducible apply State.leaveQueue_keeps | with_reducible apply State.updCourse_keeps | with_reducible apply State.dropItem_keeps
                | with_reducible apply State.Keeps.fold | (intro y b hy) | dsimp only | split

theorem State.unbatch_keeps {s x : State} (h : s.Keeps x) (a1) : s.Keeps (State.unbatch x a1) := by
  unfold State.unbatch
  repeat' first | with_reducible assumption | with_reducible rfl | (simp only [State.keeps_mk]; with_reducible apply State.Raw.of)

theorem State.launchBatch_keeps {s x : State} (h : s.Keeps x) (a1 a2) : s.Keeps (State.launchBatch x a1 a2) := by
  unfold State.launchBatch
  repeat' first | with_reducible assumption | with_reducible apply State.runPanel_keeps | with_reducible apply State.start_keeps
                | with_reducible apply State.updCourse_keeps | with_reducible apply State.unbatch_keeps | with_reducible apply State.Keeps.fold
                | (intro y b hy)

theorem State.courseLaunch_keeps {s x : State} (h : s.Keeps x) (a1) : s.Keeps (State.courseLaunch x a1) := by
  unfold State.courseLaunch
  repeat' first | with_reducible assumption | with_reducible apply State.launchBatch_keeps | with_reducible apply State.updCourse_keeps
                | with_reducible apply State.runLinks_keeps | with_reducible apply State.start_keeps | dsimp only | split

theorem State.retryUnit_keeps {s x : State} (h : s.Keeps x) (a1 a2) : s.Keeps (State.retryUnit x a1 a2) := by
  unfold State.retryUnit
  repeat' first | with_reducible assumption | with_reducible apply State.runPanel_keeps | with_reducible apply State.runLinks_keeps
                | with_reducible apply State.updCourse_keeps | dsimp only | split

theorem State.endPageWaits_keeps {s x : State} (h : s.Keeps x) (a1) : s.Keeps (State.endPageWaits x a1) := by
  unfold State.endPageWaits
  repeat' first | with_reducible assumption | with_reducible apply State.endWait_keeps | with_reducible apply State.updCourse_keeps
                | with_reducible apply State.Keeps.fold | (intro y b hy)

theorem State.retryCourse_keeps {s x : State} (h : s.Keeps x) (a1) : s.Keeps (State.retryCourse x a1) := by
  unfold State.retryCourse
  repeat' first | with_reducible assumption | with_reducible apply State.retryUnit_keeps | with_reducible apply State.endPageWaits_keeps
                | with_reducible apply State.Keeps.fold | (intro y b hy) | dsimp only | split

theorem State.pageAvailable_keeps {s x : State} (h : s.Keeps x) (a1) : s.Keeps (State.pageAvailable x a1) := by
  unfold State.pageAvailable
  repeat' first | with_reducible assumption | with_reducible apply State.retryCourse_keeps | with_reducible apply State.Keeps.fold | (intro y b hy)

theorem State.batchExpiry_keeps {s x : State} (h : s.Keeps x) (a1) : s.Keeps (State.batchExpiry x a1) := by
  unfold State.batchExpiry
  repeat' first | with_reducible assumption | with_reducible apply State.launchBatch_keeps | dsimp only | split

theorem State.readyReport_keeps {s x : State} (h : s.Keeps x) (a1 a2) : s.Keeps (State.readyReport x a1 a2) := by
  unfold State.readyReport
  repeat' first | with_reducible assumption | with_reducible apply State.updCourse_keeps | dsimp only | split

/-! ### Runs -/

theorem State.startRun_keeps {s x : State} (h : s.Keeps x) (a1 a2) : s.Keeps (State.startRun x a1 a2) := by
  unfold State.startRun
  repeat' first | with_reducible assumption | with_reducible apply State.updCourse_keeps | dsimp only | split

/-! ### Retire -/

theorem State.abortOne_keeps {s x : State} (h : s.Keeps x) (a1 a2 a3) : s.Keeps (State.abortOne x a1 a2 a3) := by
  unfold State.abortOne
  repeat' first | with_reducible assumption | with_reducible apply State.purge_keeps | with_reducible apply State.stopCourse_keeps
                | with_reducible apply State.boundary_keeps | with_reducible apply State.updCourse_keeps | dsimp only | split

theorem State.faultRetire_keeps {s x : State} (h : s.Keeps x) (a1 a2 a3) : s.Keeps (State.faultRetire x a1 a2 a3) := by
  unfold State.faultRetire
  repeat' first | with_reducible assumption | with_reducible apply State.updNeedle_keeps | with_reducible apply State.retireNow_keeps | dsimp only
                | split

theorem State.rowFault_keeps {s x : State} (h : s.Keeps x) (a1 a2 a3) : s.Keeps (State.rowFault x a1 a2 a3) := by
  unfold State.rowFault
  repeat' first | with_reducible assumption | with_reducible apply State.updNeedle_keeps | with_reducible apply State.faultRetire_keeps | dsimp only
                | split

theorem State.abandonRecord_keeps {s x : State} (h : s.Keeps x) (a1) : s.Keeps (State.abandonRecord x a1) := by
  unfold State.abandonRecord
  repeat' first | with_reducible assumption | with_reducible apply State.cper_keeps

theorem State.abandon_keeps {s x : State} (h : s.Keeps x) (a1) : s.Keeps (State.abandon x a1) := by
  unfold State.abandon
  repeat' first | with_reducible assumption | with_reducible rfl | with_reducible apply State.raiseFault_keeps
                | with_reducible apply State.abandonRecord_keeps | with_reducible apply State.voidEmissions_keeps
                | with_reducible apply State.purge_keeps | with_reducible apply State.leaveAll_keeps | with_reducible apply State.tryClose_keeps
                | with_reducible apply State.sweepViews_keeps | with_reducible apply State.retireFree_keeps | with_reducible apply State.finish_keeps
                | with_reducible apply State.settle_keeps | with_reducible apply State.updCourse_keeps | with_reducible apply State.bookAttempt_keeps
                | (simp only [State.keeps_mk]; with_reducible apply State.Raw.of) | dsimp only | split

theorem State.runAgain_keeps {s x : State} (h : s.Keeps x) (a1) : s.Keeps (State.runAgain x a1) := by
  unfold State.runAgain
  repeat' first | with_reducible assumption | with_reducible apply State.updCourse_keeps | with_reducible apply State.startRun_keeps
                | with_reducible apply State.runLinks_keeps | with_reducible apply State.runPanel_keeps | with_reducible apply State.Keeps.fold
                | (intro y b hy) | dsimp only | split

theorem State.afterAbort_keeps {s x : State} (h : s.Keeps x) (a1 a2) : s.Keeps (State.afterAbort x a1 a2) := by
  unfold State.afterAbort
  repeat' first | with_reducible assumption | with_reducible rfl | with_reducible apply State.abandon_keeps
                | with_reducible apply State.runAgain_keeps | (simp only [State.keeps_mk]; with_reducible apply State.Raw.of) | dsimp only | split

theorem State.faultCourse_keeps {s x : State} (h : s.Keeps x) (a1 a2 a3 a4 a5) : s.Keeps (State.faultCourse x a1 a2 a3 a4 a5) := by
  unfold State.faultCourse
  repeat' first | with_reducible assumption | with_reducible apply State.raiseFault_keeps | with_reducible apply State.abortOne_keeps
                | with_reducible apply State.rowFault_keeps | with_reducible apply State.updCourse_keeps
                | with_reducible apply State.mapFailedRows_keeps | with_reducible apply State.afterAbort_keeps | with_reducible apply State.Keeps.fold
                | (intro y b hy) | dsimp only | split

theorem State.installAll_keeps {s x : State} (h : s.Keeps x) (a1) : s.Keeps (State.installAll x a1) := by
  unfold State.installAll
  repeat' first | with_reducible assumption | with_reducible apply State.updJob_keeps

theorem State.publishFree_keeps {s x : State} (h : s.Keeps x) (a1 a2) : s.Keeps (State.publishFree x a1 a2) := by
  unfold State.publishFree
  repeat' first | with_reducible assumption | with_reducible rfl | with_reducible apply State.holdPages_keeps | with_reducible apply State.hide_keeps
                | with_reducible apply State.updJob_keeps | with_reducible apply State.Keeps.fold
                | (simp only [State.keeps_mk]; with_reducible apply State.Raw.wf) | with_reducible exact id
                | with_reducible exact fun hw => publish_wf _ hw

theorem State.publishStep_keeps {s x : State} (h : s.Keeps x) (a1 a2) : s.Keeps (State.publishStep x a1 a2) := by
  unfold State.publishStep
  repeat' first | with_reducible assumption | with_reducible apply State.holdPages_keeps | with_reducible apply State.updJob_keeps

theorem State.publish_keeps {s x : State} (h : s.Keeps x) (a1) : s.Keeps (State.publish x a1) := by
  unfold State.publish
  repeat' first | with_reducible assumption | with_reducible apply State.clearPoison_keeps | with_reducible apply State.publishFree_keeps
                | with_reducible apply State.publishStep_keeps | with_reducible apply State.updCourse_keeps | with_reducible apply State.Keeps.fold
                | (intro y b hy) | dsimp only | split

theorem State.watchdog_keeps {s x : State} (h : s.Keeps x) (a1 a2) : s.Keeps (State.watchdog x a1 a2) := by
  unfold State.watchdog
  repeat' first | with_reducible assumption | with_reducible apply State.faultCourse_keeps | dsimp only | split

theorem State.forceFrog_keeps {s x : State} (h : s.Keeps x) (a1) : s.Keeps (State.forceFrog x a1) := by
  unfold State.forceFrog
  repeat' first | with_reducible assumption | with_reducible apply State.settle_keeps | with_reducible apply State.updJob_keeps

theorem State.memoryFault_keeps {s x : State} (h : s.Keeps x) (a1 a2 a3 a4) : s.Keeps (State.memoryFault x a1 a2 a3 a4) := by
  unfold State.memoryFault
  repeat' first | with_reducible assumption | with_reducible apply State.updStack_keeps | with_reducible apply State.forceFrog_keeps
                | with_reducible apply State.faultCourse_keeps | with_reducible apply State.uncorrected_keeps | dsimp only | split

theorem State.courseFault_keeps {s x : State} (h : s.Keeps x) (a1 a2 a3 a4 a5) : s.Keeps (State.courseFault x a1 a2 a3 a4 a5) := by
  unfold State.courseFault
  repeat' first | with_reducible assumption | with_reducible apply State.memoryFault_keeps | with_reducible apply State.faultCourse_keeps
                | with_reducible apply State.free_keeps | dsimp only | split

theorem State.traceMark_keeps {s x : State} (h : s.Keeps x) (a1 a2 a3) : s.Keeps (State.traceMark x a1 a2 a3) := by
  unfold State.traceMark
  repeat' first | with_reducible assumption | with_reducible apply State.traceRec_keeps

theorem State.updMark_keeps {s x : State} (h : s.Keeps x) (a1 a2 a3) : s.Keeps (State.updMark x a1 a2 a3) := by
  unfold State.updMark
  repeat' first | with_reducible assumption | with_reducible apply State.updJob_keeps

theorem State.joinMark_keeps {s x : State} (h : s.Keeps x) (a1 a2) : s.Keeps (State.joinMark x a1 a2) := by
  unfold State.joinMark
  repeat' first | with_reducible assumption | with_reducible apply State.exposeBy_keeps | with_reducible apply State.traceMark_keeps
                | with_reducible apply State.updMark_keeps | with_reducible apply State.Keeps.fold | (intro y b hy) | dsimp only | split

theorem State.takeMark_keeps {s x : State} (h : s.Keeps x) (a1 a2 a3) : s.Keeps (State.takeMark x a1 a2 a3) := by
  unfold State.takeMark
  repeat' first | with_reducible assumption | with_reducible apply State.updJob_keeps | with_reducible apply State.joinMark_keeps
                | with_reducible apply State.updMark_keeps | dsimp only | split

theorem State.markReport_keeps {s x : State} (h : s.Keeps x) (a1 a2 a3 a4 a5 a6) : s.Keeps (State.markReport x a1 a2 a3 a4 a5 a6) := by
  unfold State.markReport
  repeat' first | with_reducible assumption | with_reducible apply State.takeMark_keeps | with_reducible apply State.relayReport_keeps

theorem State.lastOf_keeps {s x : State} (h : s.Keeps x) (a1 a2) : s.Keeps (State.lastOf x a1 a2).2 := by
  unfold State.lastOf
  repeat' first | with_reducible assumption | with_reducible apply State.free_keeps

theorem State.panelMark_keeps {s x : State} (h : s.Keeps x) (a1 a2 a3) : s.Keeps (State.panelMark x a1 a2 a3) := by
  unfold State.panelMark
  repeat' first | with_reducible assumption | with_reducible apply State.lastOf_keeps | with_reducible apply State.updMark_keeps

theorem State.deviceMark_keeps {s x : State} (h : s.Keeps x) (a1 a2) : s.Keeps (State.deviceMark x a1 a2) := by
  unfold State.deviceMark
  repeat' first | with_reducible assumption | with_reducible apply State.lastOf_keeps | with_reducible apply State.updMark_keeps
                | with_reducible apply State.traceMark_keeps | with_reducible apply State.exposeBy_keeps | with_reducible apply State.joinMark_keeps
                | with_reducible apply State.reportAll_keeps | dsimp only | split

theorem State.markerComplete_keeps {s x : State} (h : s.Keeps x) (a1 a2 a3) : s.Keeps (State.markerComplete x a1 a2 a3) := by
  unfold State.markerComplete
  repeat' first | with_reducible assumption | with_reducible apply State.panelMark_keeps | with_reducible apply State.deviceMark_keeps | dsimp only
                | split

theorem State.afterEnd_keeps {s x : State} (h : s.Keeps x) (a1) : s.Keeps (State.afterEnd x a1) := by
  unfold State.afterEnd
  repeat' first | with_reducible assumption | with_reducible apply State.tryClose_keeps | with_reducible apply State.settleImplicit_keeps
                | with_reducible apply State.settle_keeps | dsimp only | split

theorem State.weigh_keeps {s x : State} (h : s.Keeps x) (a1) : s.Keeps (State.weigh x a1) := by
  unfold State.weigh
  repeat' first | with_reducible assumption | with_reducible apply State.updCourse_keeps

theorem State.gatherLinks_keeps {s x : State} (h : s.Keeps x) (a1) : s.Keeps (State.gatherLinks x a1) := by
  unfold State.gatherLinks
  repeat' first | with_reducible assumption | with_reducible apply State.updCourse_keeps | with_reducible apply State.Keeps.fold | (intro y b hy)
                | dsimp only | split

theorem State.absorb_keeps {s x : State} (h : s.Keeps x) (a1) : s.Keeps (State.absorb x a1) := by
  unfold State.absorb
  repeat' first | with_reducible assumption | with_reducible apply State.updJob_keeps | dsimp only | split

theorem State.sealMark_keeps {s x : State} (h : s.Keeps x) (a1) : s.Keeps (State.sealMark x a1) := by
  unfold State.sealMark
  repeat' first | with_reducible assumption | with_reducible apply State.updJob_keeps

theorem State.leaveRetired_keeps {s x : State} (h : s.Keeps x) (a1) : s.Keeps (State.leaveRetired x a1) := by
  unfold State.leaveRetired
  repeat' first | with_reducible assumption | with_reducible rfl | with_reducible apply State.updCourse_keeps
                | with_reducible apply State.bookAttempt_keeps | (simp only [State.keeps_mk]; with_reducible apply State.Raw.of) | dsimp only | split

theorem State.noteDrained_keeps {s x : State} (h : s.Keeps x) (a1) : s.Keeps (State.noteDrained x a1) := by
  unfold State.noteDrained
  repeat' first | with_reducible assumption | with_reducible rfl | (simp only [State.keeps_mk]; with_reducible apply State.Raw.of)

theorem State.retireOne_keeps {s x : State} (h : s.Keeps x) (a1) : s.Keeps (State.retireOne x a1) := by
  unfold State.retireOne
  split
  · exact h
  · next s0 c e =>
    obtain ⟨d, _, e⟩ := Option.bind_eq_some_iff.mp e
    obtain ⟨k, _, e⟩ := Option.map_eq_some_iff.mp e
    cases e
    repeat' first | with_reducible assumption | with_reducible apply State.weigh_keeps | with_reducible apply State.gatherLinks_keeps
                  | with_reducible apply State.flagTile_keeps | with_reducible apply State.countTiles_keeps | with_reducible apply State.absorb_keeps
                  | with_reducible apply State.installAll_keeps | with_reducible apply State.publish_keeps
                  | with_reducible apply State.traceRetire_keeps | with_reducible apply State.countUnit_keeps
                  | with_reducible apply State.sweepViews_keeps | with_reducible apply State.boundary_keeps
                  | with_reducible apply State.sealMark_keeps | with_reducible apply State.leaveRetired_keeps
                  | with_reducible apply State.noteDrained_keeps | with_reducible apply State.Keeps.fold | (intro y b hy)

theorem State.courseRetire_keeps {s x : State} (h : s.Keeps x) (a1) : s.Keeps (State.courseRetire x a1) := by
  unfold State.courseRetire
  repeat' first | with_reducible assumption | with_reducible apply State.afterEnd_keeps | with_reducible apply State.retireOne_keeps
                | with_reducible apply State.Keeps.fold | (intro y b hy) | dsimp only | split

/-! ### Slots -/

theorem State.resendIn_keeps {s x : State} (h : s.Keeps x) (a1 a2) : s.Keeps (State.resendIn x a1 a2) := by
  unfold State.resendIn
  repeat' first | with_reducible assumption | with_reducible apply State.putAt_keeps | with_reducible apply State.updLink_keeps

theorem State.resendPassed_keeps {s x : State} (h : s.Keeps x) (a0 a1 a3) : s.Keeps (State.resendPassed a0 a1 x a3) := by
  unfold State.resendPassed
  repeat' first | with_reducible assumption | with_reducible apply State.updLink_keeps | with_reducible apply State.resendIn_keeps
                | with_reducible apply State.Keeps.fold | (intro y b hy) | dsimp only | split

theorem State.route_keeps {s x : State} (h : s.Keeps x) (a1 a2 a3 a4) : s.Keeps (State.route x a1 a2 a3 a4).2 := by
  unfold State.route
  repeat' first | with_reducible assumption | with_reducible apply State.free_keeps | dsimp only | split

theorem State.unqueue_keeps {s x : State} (h : s.Keeps x) (a1) : s.Keeps (State.unqueue x a1) := by
  unfold State.unqueue
  repeat' first | with_reducible assumption | with_reducible rfl | (simp only [State.keeps_mk]; with_reducible apply State.Raw.of)

theorem State.takeCredit_keeps {s x : State} (h : s.Keeps x) (a1 a2) : s.Keeps (State.takeCredit x a1 a2) := by
  unfold State.takeCredit
  repeat' first | with_reducible assumption | with_reducible rfl | (simp only [State.keeps_mk]; with_reducible apply State.Raw.of)

theorem State.sentItem_keeps {s x : State} (h : s.Keeps x) (a1 a2 a3 a4 a5 a6) : s.Keeps (State.sentItem x a1 a2 a3 a4 a5 a6) := by
  unfold State.sentItem
  repeat' first | with_reducible assumption | with_reducible apply State.updCourse_keeps | with_reducible apply State.traceRec_keeps | dsimp only
                | split

theorem State.sendItem_keeps {s x : State} (h : s.Keeps x) (a1 a2 a3 a4 a5 a6 a7 a8) : s.Keeps (State.sendItem x a1 a2 a3 a4 a5 a6 a7 a8) := by
  unfold State.sendItem
  repeat' first | with_reducible assumption | with_reducible apply State.sentItem_keeps | with_reducible apply State.putAt_keeps

theorem State.sendWaiting_keeps {s x : State} (h : s.Keeps x) (a1 a2 a3 a4 a5) : s.Keeps (State.sendWaiting x a1 a2 a3 a4 a5) := by
  unfold State.sendWaiting
  repeat' first | with_reducible assumption | with_reducible apply State.sendItem_keeps | with_reducible apply State.unqueue_keeps
                | with_reducible apply State.putAt_keeps | with_reducible apply State.updLink_keeps | dsimp only | split

theorem State.unscheduled_keeps {s x : State} (h : s.Keeps x) (a0 a1 a3 a4 a5) : s.Keeps (State.unscheduled a0 a1 x a3 a4 a5) := by
  unfold State.unscheduled
  repeat' first | with_reducible assumption | with_reducible apply State.route_keeps | with_reducible apply State.count_keeps
                | with_reducible apply State.unqueue_keeps | with_reducible apply State.updCourse_keeps | with_reducible apply State.takeCredit_keeps
                | with_reducible apply State.sendWaiting_keeps | dsimp only | split

theorem State.againPassed_keeps {s x : State} (h : s.Keeps x) (a0 a1 a3) : s.Keeps (State.againPassed a0 a1 x a3) := by
  unfold State.againPassed
  repeat' first | with_reducible assumption | with_reducible apply State.unscheduled_keeps | with_reducible apply State.sendWaiting_keeps
                | with_reducible apply State.takeCredit_keeps | dsimp only | split

theorem State.hopPassed_keeps {s x : State} (h : s.Keeps x) (a0 a1 a3) : s.Keeps (State.hopPassed a0 a1 x a3) := by
  unfold State.hopPassed
  repeat' first | with_reducible assumption | with_reducible apply State.unscheduled_keeps | dsimp only | split

theorem State.passTimes_keeps {s x : State} (h : s.Keeps x) (a1) : s.Keeps (State.passTimes x a1) := by
  unfold State.passTimes
  repeat' first | with_reducible assumption | with_reducible apply State.resendPassed_keeps | with_reducible apply State.againPassed_keeps
                | with_reducible apply State.hopPassed_keeps | with_reducible apply State.Keeps.fold | (intro y b hy)

theorem State.countDisplaced_keeps {s x : State} (h : s.Keeps x) (a1) : s.Keeps (State.countDisplaced x a1) := by
  unfold State.countDisplaced
  repeat' first | with_reducible assumption | with_reducible apply State.updLink_keeps

theorem State.losePlace_keeps {s x : State} (h : s.Keeps x) (a1 a2) : s.Keeps (State.losePlace x a1 a2) := by
  unfold State.losePlace
  repeat' first | with_reducible assumption | with_reducible rfl | with_reducible apply State.countDisplaced_keeps
                | (simp only [State.keeps_mk]; with_reducible apply State.Raw.of)

theorem State.dropPlanned_keeps {s x : State} (h : s.Keeps x) : s.Keeps (State.dropPlanned x) := by
  unfold State.dropPlanned
  repeat' first | with_reducible assumption | with_reducible apply State.losePlace_keeps | with_reducible apply State.Keeps.fold | (intro y b hy)

theorem State.sweep_keeps {s x : State} (h : s.Keeps x) : s.Keeps (State.sweep x) := by
  unfold State.sweep
  repeat' first | with_reducible assumption | with_reducible apply State.passTimes_keeps | with_reducible apply State.dropPlanned_keeps | dsimp only
                | split

theorem State.resendOn_keeps {s x : State} (h : s.Keeps x) (a1) : s.Keeps (State.resendOn x a1) := by
  unfold State.resendOn
  repeat' first | with_reducible assumption | with_reducible apply State.updLink_keeps | with_reducible apply State.resendIn_keeps
                | with_reducible apply State.Keeps.fold | (intro y b hy) | dsimp only | split

theorem State.fetches_keeps {s x : State} (h : s.Keeps x) (a1) : s.Keeps (State.fetches x a1).2 := by
  unfold State.fetches
  repeat' first | with_reducible assumption | with_reducible apply State.free_keeps | dsimp only | split

theorem State.fillPlanned_keeps {s x : State} (h : s.Keeps x) (a1) : s.Keeps (State.fillPlanned x a1) := by
  unfold State.fillPlanned
  repeat' first | with_reducible assumption | with_reducible apply State.fetches_keeps | with_reducible apply State.sendItem_keeps
                | with_reducible apply State.unqueue_keeps | with_reducible apply State.losePlace_keeps | dsimp only | split

theorem State.originate_keeps {s x : State} (h : s.Keeps x) (a1) : s.Keeps (State.originate x a1) := by
  unfold State.originate
  repeat' first | with_reducible assumption | with_reducible rfl | (simp only [State.keeps_mk]; with_reducible apply State.Raw.of) | dsimp only
                | split

theorem State.noteSend_keeps {s x : State} (h : s.Keeps x) (a1) : s.Keeps (State.noteSend x a1) := by
  unfold State.noteSend
  repeat' first | with_reducible assumption | with_reducible apply State.updCourse_keeps | dsimp only | split

theorem State.sendCut_keeps {s x : State} (h : s.Keeps x) (a1) : s.Keeps (State.sendCut x a1) := by
  unfold State.sendCut
  repeat' first | with_reducible assumption | with_reducible apply State.sendControl_keeps | with_reducible apply State.updLink_keeps | dsimp only
                | split

theorem State.settleLinks_keeps {s x : State} (h : s.Keeps x) : s.Keeps (State.settleLinks x) := by
  unfold State.settleLinks
  repeat' first | with_reducible assumption | with_reducible apply State.resendOn_keeps | with_reducible apply State.fillPlanned_keeps
                | with_reducible apply State.originate_keeps | with_reducible apply State.noteSend_keeps | with_reducible apply State.sendCut_keeps
                | with_reducible apply State.Keeps.fold | (intro y b hy)

theorem State.onLinks_keeps {s x : State} (h : s.Keeps x) {f : State → State} (hf : ∀ y, s.Keeps y → s.Keeps (f y)) : s.Keeps (State.onLinks x f) := by
  unfold State.onLinks
  exact State.settleLinks_keeps (hf _ (State.sweep_keeps h))

theorem State.prefetchFrame_keeps {s x : State} (h : s.Keeps x) (a0 a1 a2 a4) : s.Keeps (State.prefetchFrame a0 a1 a2 x a4) := by
  unfold State.prefetchFrame
  repeat' first | with_reducible assumption | with_reducible apply State.fetches_keeps | with_reducible apply State.updLink_keeps | dsimp only | split

theorem State.prefetch_keeps {s x : State} (h : s.Keeps x) (a1) : s.Keeps (State.prefetch x a1) := by
  unfold State.prefetch
  repeat' first | with_reducible assumption | with_reducible apply State.prefetchFrame_keeps | with_reducible apply State.Keeps.fold | (intro y b hy)
                | dsimp only | split

theorem State.sendHeld_keeps {s x : State} (h : s.Keeps x) (a1) : s.Keeps (State.sendHeld x a1) := by
  unfold State.sendHeld
  repeat' first | with_reducible assumption | with_reducible apply State.sendReserved_keeps | with_reducible apply State.updLink_keeps
                | with_reducible apply State.Keeps.fold | (intro y b hy)

theorem State.directed_keeps {s x : State} (h : s.Keeps x) (a0 a2) : s.Keeps (State.directed a0 x a2) := by
  unfold State.directed
  repeat' first | with_reducible assumption | with_reducible apply State.sendWaiting_keeps | with_reducible apply State.takeCredit_keeps | dsimp only
                | split

theorem State.acknowledge_keeps {s x : State} (h : s.Keeps x) (a1) : s.Keeps (State.acknowledge x a1) := by
  unfold State.acknowledge
  repeat' first | with_reducible assumption | with_reducible apply State.sendUnnumbered_keeps | with_reducible apply State.sendAckList_keeps
                | dsimp only | split

theorem State.unbuffer_keeps {s x : State} (h : s.Keeps x) (a1 a2 a3) : s.Keeps (State.unbuffer x a1 a2 a3) := by
  unfold State.unbuffer
  repeat' first | with_reducible assumption | with_reducible apply State.updLink_keeps

theorem State.queueFrame_keeps {s x : State} (h : s.Keeps x) (a1 a2 a3 a4 a5 a6) : s.Keeps (State.queueFrame x a1 a2 a3 a4 a5 a6) := by
  unfold State.queueFrame
  repeat' first | with_reducible assumption | with_reducible rfl | (simp only [State.keeps_mk]; with_reducible apply State.Raw.of)

theorem State.displace_keeps {s x : State} (h : s.Keeps x) (a1 a2 a3 a4 a5) : s.Keeps (State.displace x a1 a2 a3 a4 a5) := by
  unfold State.displace
  repeat' first | with_reducible assumption | with_reducible apply State.countDisplaced_keeps | with_reducible apply State.queueFrame_keeps

theorem State.planFrame_keeps {s x : State} (h : s.Keeps x) (a0 a1 a2 a3 a5) : s.Keeps (State.planFrame a0 a1 a2 a3 x a5) := by
  unfold State.planFrame
  repeat' first | with_reducible assumption | with_reducible apply State.unbuffer_keeps | with_reducible apply State.sendItem_keeps
                | with_reducible apply State.displace_keeps | with_reducible apply State.queueFrame_keeps | dsimp only | split

theorem State.plan_keeps {s : State} {x : State × List Nat} (h : s.Keeps x.1) (id : Nat) : s.Keeps (State.plan x id).1 := by
  unfold State.plan
  repeat' first
    | with_reducible assumption | with_reducible apply State.planFrame_keeps | with_reducible apply State.count_keeps
    | with_reducible apply State.updCourse_keeps | with_reducible apply State.queueFrame_keeps | with_reducible apply State.Keeps.pairs
    | with_reducible apply State.updLink_keeps | with_reducible apply State.Keeps.fold | (intro y b hy) | dsimp only | split

theorem State.slotBoundary_keeps {s x : State} (h : s.Keeps x) : s.Keeps (State.slotBoundary x) := by
  unfold State.slotBoundary
  split
  · exact h
  · dsimp only
    repeat' first | with_reducible assumption | with_reducible apply State.prefetch_keeps | with_reducible apply State.resendOn_keeps
                  | with_reducible apply State.sendHeld_keeps | with_reducible apply State.directed_keeps
                  | with_reducible apply State.acknowledge_keeps | with_reducible apply State.Keeps.fold | with_reducible apply State.Keeps.pairs
                  | (simp only [State.keeps_mk]; with_reducible apply State.Raw.of) | with_reducible apply State.plan_keeps | with_reducible rfl
                  | (intro y b hy)

theorem State.frameHeard_keeps {s x : State} (h : s.Keeps x) (a1 a2) : s.Keeps (State.frameHeard x a1 a2) := by
  unfold State.frameHeard
  repeat' first | with_reducible assumption | with_reducible apply State.updLink_keeps | with_reducible apply State.ackUpTo_keeps

theorem State.endFrameWaits_keeps {s x : State} (h : s.Keeps x) (a1 a2 a3) : s.Keeps (State.endFrameWaits x a1 a2 a3) := by
  unfold State.endFrameWaits
  repeat' first | with_reducible assumption | with_reducible apply State.chargePort_keeps | with_reducible apply State.traceRec_keeps
                | with_reducible apply State.updCourse_keeps | with_reducible apply State.Keeps.fold | (intro y b hy) | dsimp only | split

theorem State.placeFrame_keeps {s x : State} (h : s.Keeps x) (a1 a2 a3 a4 a5 a6) : s.Keeps (State.placeFrame x a1 a2 a3 a4 a5 a6) := by
  unfold State.placeFrame
  repeat' first | with_reducible assumption | with_reducible apply State.count_keeps | with_reducible apply State.updCourse_keeps
                | with_reducible apply State.endFrameWaits_keeps | with_reducible apply State.traceRec_keeps | dsimp only | split

theorem State.takeFrame_keeps {s x : State} (h : s.Keeps x) (a1 a2) : s.Keeps (State.takeFrame x a1 a2) := by
  unfold State.takeFrame
  repeat' first | with_reducible assumption | with_reducible rfl | with_reducible apply State.count_keeps
                | with_reducible apply State.placeFrame_keeps | (simp only [State.keeps_mk]; with_reducible apply State.Raw.of) | dsimp only | split

theorem State.wrapCrossed_keeps {s x : State} (h : s.Keeps x) (a1 a2) : s.Keeps (State.wrapCrossed x a1 a2).2 := by
  unfold State.wrapCrossed
  repeat' first | with_reducible assumption | with_reducible apply State.free_keeps | dsimp only | split

theorem State.unscheduledFrame_keeps {s x : State} (h : s.Keeps x) (a1 a2) : s.Keeps (State.unscheduledFrame x a1 a2) := by
  unfold State.unscheduledFrame
  repeat' first | with_reducible assumption | with_reducible apply State.wakeModule_keeps | with_reducible rfl
                | with_reducible apply State.frameHeard_keeps | with_reducible apply State.takeFrame_keeps
                | with_reducible apply State.wrapCrossed_keeps | with_reducible apply State.route_keeps | with_reducible apply State.count_keeps
                | (simp only [State.keeps_mk]; with_reducible apply State.Raw.of) | dsimp only | split

theorem State.dataFrame_keeps {s x : State} (h : s.Keeps x) (a1 a2) : s.Keeps (State.dataFrame x a1 a2) := by
  unfold State.dataFrame
  repeat' first | with_reducible assumption | with_reducible apply State.wakeModule_keeps | with_reducible apply State.takeFrame_keeps
                | with_reducible apply State.frameHeard_keeps | dsimp only | split

/-! ### Samples -/

theorem State.queueSample_keeps {s x : State} (h : s.Keeps x) (a1 a2 a3) : s.Keeps (State.queueSample x a1 a2 a3).1 := by
  unfold State.queueSample
  repeat' first | with_reducible assumption | with_reducible apply State.free_keeps | dsimp only | split

theorem State.groupValue_keeps {s x : State} (h : s.Keeps x) (a1) : s.Keeps (State.groupValue x a1).1 := by
  unfold State.groupValue
  repeat' first | with_reducible assumption | with_reducible apply State.queueSample_keeps | dsimp only | split

theorem State.obsSample_keeps {s x : State} (h : s.Keeps x) : s.Keeps (State.obsSample x) := by
  unfold State.obsSample
  repeat' first | with_reducible assumption | with_reducible rfl | with_reducible apply State.groupValue_keeps | with_reducible apply State.emit_keeps
                | (simp only [State.keeps_mk]; with_reducible apply State.Raw.of) | dsimp only | split

/-! ### Mailbox -/

theorem State.resizableBarWrite_keeps {s x : State} (h : s.Keeps x) (a1) : s.Keeps (State.resizableBarWrite x a1) := by
  unfold State.resizableBarWrite
  repeat' first | with_reducible assumption | with_reducible rfl | (simp only [State.keeps_mk]; with_reducible apply State.Raw.of) | dsimp only
                | split

theorem State.releasePending_keeps {s x : State} (h : s.Keeps x) (a1) : s.Keeps (State.releasePending x a1) := by
  unfold State.releasePending
  repeat' first | with_reducible assumption | with_reducible rfl | with_reducible apply State.emit_keeps
                | (simp only [State.keeps_mk]; with_reducible apply State.Raw.of) | dsimp only | split

theorem State.intrMaskWrite_keeps {s x : State} (h : s.Keeps x) (a1 a2) : s.Keeps (State.intrMaskWrite x a1 a2) := by
  unfold State.intrMaskWrite
  repeat' first | with_reducible assumption | with_reducible rfl | with_reducible apply State.setIntr_keeps
                | with_reducible apply State.releasePending_keeps | with_reducible apply State.Keeps.fold
                | (simp only [State.keeps_mk]; with_reducible apply State.Raw.of) | (intro y b hy) | dsimp only | split

theorem State.adminDoorbell_keeps {s x : State} (h : s.Keeps x) (a1) : s.Keeps (State.adminDoorbell x a1) := by
  unfold State.adminDoorbell
  repeat' first | with_reducible assumption | with_reducible rfl | with_reducible apply State.raise_keeps
                | with_reducible apply State.wakeModule_keeps | (simp only [State.keeps_mk]; with_reducible apply State.Raw.of) | dsimp only | split

theorem State.ptmResponse_keeps {s x : State} (h : s.Keeps x) (a1) : s.Keeps (State.ptmResponse x a1) := by
  unfold State.ptmResponse
  repeat' first | with_reducible assumption | with_reducible rfl | (simp only [State.keeps_mk]; with_reducible apply State.Raw.of)

theorem State.configRequestRetry_keeps {s x : State} (h : s.Keeps x) : s.Keeps (State.configRequestRetry x) := by
  unfold State.configRequestRetry
  repeat' first | with_reducible assumption | with_reducible apply State.emit_keeps | dsimp only | split

theorem State.pcieLinkTrain_keeps {s x : State} (h : s.Keeps x) (a1 a2 a3 a4) : s.Keeps (State.pcieLinkTrain x a1 a2 a3 a4) := by
  unfold State.pcieLinkTrain
  repeat' first | with_reducible assumption | with_reducible rfl | (simp only [State.keeps_mk]; with_reducible apply State.Raw.of)

theorem State.hostInterfaceReady_keeps {s x : State} (h : s.Keeps x) : s.Keeps (State.hostInterfaceReady x) := by
  unfold State.hostInterfaceReady
  repeat' first | with_reducible assumption | with_reducible rfl | (simp only [State.keeps_mk]; with_reducible apply State.Raw.of) | dsimp only
                | split

theorem State.hostInterfaceReset_keeps {s x : State} (h : s.Keeps x) : s.Keeps (State.hostInterfaceReset x) := by
  unfold State.hostInterfaceReset
  repeat' first | with_reducible assumption | with_reducible rfl | (simp only [State.keeps_mk]; with_reducible apply State.Raw.of)

theorem State.powerHostCapWrite_keeps {s x : State} (h : s.Keeps x) (a1) : s.Keeps (State.powerHostCapWrite x a1) := by
  unfold State.powerHostCapWrite
  repeat' first | with_reducible assumption | with_reducible rfl | (simp only [State.keeps_mk]; with_reducible apply State.Raw.of)

theorem State.powerThrottleStitchesRead_keeps {s x : State} (h : s.Keeps x) : s.Keeps (State.powerThrottleStitchesRead x) := by
  unfold State.powerThrottleStitchesRead
  repeat' first | with_reducible assumption | with_reducible rfl | with_reducible apply State.emit_keeps
                | (simp only [State.keeps_mk]; with_reducible apply State.Raw.of)

theorem State.timeMissedLaunchesRead_keeps {s x : State} (h : s.Keeps x) : s.Keeps (State.timeMissedLaunchesRead x) := by
  unfold State.timeMissedLaunchesRead
  repeat' first | with_reducible assumption | with_reducible rfl | with_reducible apply State.emit_keeps
                | (simp only [State.keeps_mk]; with_reducible apply State.Raw.of)

theorem State.timeStitchRead_keeps {s x : State} (h : s.Keeps x) (a1) : s.Keeps (State.timeStitchRead x a1) := by
  unfold State.timeStitchRead
  repeat' first | with_reducible assumption | with_reducible rfl | with_reducible apply State.emit_keeps
                | (simp only [State.keeps_mk]; with_reducible apply State.Raw.of) | dsimp only | split

theorem State.msixWrite_keeps {s x : State} (h : s.Keeps x) (a1 a2 a3) : s.Keeps (State.msixWrite x a1 a2 a3) := by
  unfold State.msixWrite
  repeat' first | with_reducible assumption | with_reducible rfl | (simp only [State.keeps_mk]; with_reducible apply State.Raw.of) | dsimp only
                | split

theorem State.wordWrite_keeps {s x : State} (h : s.Keeps x) (a1 a2) : s.Keeps (State.wordWrite x a1 a2) := by
  unfold State.wordWrite
  repeat' first | with_reducible assumption | with_reducible rfl | with_reducible apply State.updRing_keeps
                | with_reducible apply State.msixWrite_keeps | (simp only [State.keeps_mk]; with_reducible apply State.Raw.of) | dsimp only | split

theorem State.registerWrite_keeps {s x : State} (h : s.Keeps x) (a1 a2 a3) : s.Keeps (State.registerWrite x a1 a2 a3) := by
  unfold State.registerWrite
  repeat' first | with_reducible assumption | with_reducible apply State.wordWrite_keeps | dsimp only | split

theorem clearCause_keeps {s x : State} (h : s.Keeps x) (a0 a1) : s.Keeps (clearCause a0 a1 x) := by
  unfold clearCause
  repeat' first | with_reducible assumption | with_reducible rfl | (simp only [State.keeps_mk]; with_reducible apply State.Raw.of) | dsimp only
                | split

theorem State.intrCauseClear_keeps {s x : State} (h : s.Keeps x) (a1 a2) : s.Keeps (State.intrCauseClear x a1 a2) := by
  unfold State.intrCauseClear
  repeat' first | with_reducible assumption | with_reducible rfl | with_reducible apply clearCause_keeps | with_reducible apply State.sendVector_keeps
                | with_reducible apply State.Keeps.fold | (simp only [State.keeps_mk]; with_reducible apply State.Raw.of) | (intro y b hy)

theorem State.heldCompletionWrite_keeps {s x : State} (h : s.Keeps x) (a1 a2) : s.Keeps (State.heldCompletionWrite x a1 a2) := by
  unfold State.heldCompletionWrite
  repeat' first | with_reducible assumption | with_reducible apply State.writeRingCpl_keeps | with_reducible apply State.updRing_keeps | dsimp only
                | split

theorem State.ringFetch_keeps {s x : State} (h : s.Keeps x) (a1) : s.Keeps (State.ringFetch x a1) := by
  unfold State.ringFetch
  repeat' first | with_reducible assumption | with_reducible rfl | with_reducible apply State.attention_keeps
                | with_reducible apply State.updRing_keeps | (simp only [State.keeps_mk]; with_reducible apply State.Raw.of) | dsimp only | split

theorem State.ringConfigWrite_keeps {s x : State} (h : s.Keeps x) (a1 a2 a3) : s.Keeps (State.ringConfigWrite x a1 a2 a3) := by
  unfold State.ringConfigWrite
  repeat' first | with_reducible assumption | with_reducible apply State.attention_keeps | with_reducible apply State.updRing_keeps | dsimp only
                | split

theorem State.ringDrainDone_keeps {s x : State} (h : s.Keeps x) (a1) : s.Keeps (State.ringDrainDone x a1) := by
  unfold State.ringDrainDone
  repeat' first | with_reducible assumption | with_reducible apply State.updRing_keeps

theorem State.ringDisable_keeps {s x : State} (h : s.Keeps x) (a1 a2) : s.Keeps (State.ringDisable x a1 a2) := by
  unfold State.ringDisable
  repeat' first | with_reducible assumption | with_reducible apply State.updRing_keeps

theorem State.ringEnable_keeps {s x : State} (h : s.Keeps x) (a1 a2) : s.Keeps (State.ringEnable x a1 a2) := by
  unfold State.ringEnable
  repeat' first | with_reducible assumption | with_reducible apply State.updRing_keeps | dsimp only | split

theorem State.ringCqDoorbell_keeps {s x : State} (h : s.Keeps x) (a1 a2) : s.Keeps (State.ringCqDoorbell x a1 a2) := by
  unfold State.ringCqDoorbell
  repeat' first | with_reducible assumption | with_reducible apply State.attention_keeps | with_reducible apply State.wakeModule_keeps
                | with_reducible apply State.updRing_keeps | dsimp only | split

theorem State.ringDoorbell_keeps {s x : State} (h : s.Keeps x) (a1 a2) : s.Keeps (State.ringDoorbell x a1 a2) := by
  unfold State.ringDoorbell
  repeat' first | with_reducible assumption | with_reducible apply State.attention_keeps | with_reducible apply State.wakeModule_keeps
                | with_reducible apply State.updRing_keeps | dsimp only | split

/-! ### Checkpoint -/

theorem State.poisonFrom_keeps {s x : State} (h : s.Keeps x) (a1 a2 a3) : s.Keeps (State.poisonFrom x a1 a2 a3) := by
  unfold State.poisonFrom
  repeat' first | with_reducible assumption | with_reducible rfl | with_reducible apply State.memEvent_keeps | with_reducible apply State.Keeps.fold
                | (simp only [State.keeps_mk]; with_reducible apply State.Raw.of) | (intro y b hy) | dsimp only | split

theorem State.loadBytes_keeps {s x : State} (h : s.Keeps x) (a1 a2) : s.Keeps (State.loadBytes x a1 a2) := by
  unfold State.loadBytes
  repeat' first | with_reducible assumption | with_reducible apply State.clearPoison_keeps | with_reducible apply State.hostStoreAll_keeps

theorem State.loadSection_keeps {s x : State} (h : s.Keeps x) (a1 a2 a3) : s.Keeps (State.loadSection x a1 a2 a3) := by
  unfold State.loadSection
  repeat' first | with_reducible assumption | with_reducible apply State.updJob_keeps | with_reducible apply State.poisonFrom_keeps
                | with_reducible apply State.loadBytes_keeps | with_reducible apply State.free_keeps | with_reducible apply State.clearPoison_keeps
                | dsimp only | split

theorem State.loadSections_keeps {s x : State} (h : s.Keeps x) (a1 a2 a3 a4) : s.Keeps (State.loadSections x a1 a2 a3 a4) := by
  induction a4 generalizing x a3 with
  | nil => simpa only [State.loadSections] using h
  | cons k ks ih =>
    unfold State.loadSections
    refine ih ?_ _
    repeat' first | with_reducible exact State.loadSection_keeps h _ _ _ | with_reducible exact State.loadSection_keeps (State.free_keeps h) _ _ _
                  | split

theorem State.endRun_keeps {s x : State} (h : s.Keeps x) (a1 a2 a3) : s.Keeps (State.endRun x a1 a2 a3) := by
  unfold State.endRun
  repeat' first | with_reducible assumption | with_reducible rfl | with_reducible apply State.tryClose_keeps
                | with_reducible apply State.sweepViews_keeps | with_reducible apply State.finish_keeps | with_reducible apply State.drainSpill_keeps
                | (simp only [State.keeps_mk]; with_reducible apply State.Raw.of)

theorem State.showJob_keeps {s x : State} (h : s.Keeps x) (a1) : s.Keeps (State.showJob x a1) := by
  unfold State.showJob
  repeat' first | with_reducible assumption | with_reducible rfl | (simp only [State.keeps_mk]; with_reducible apply State.Raw.of)

theorem State.clearJob_keeps {s x : State} (h : s.Keeps x) (a1) : s.Keeps (State.clearJob x a1) := by
  unfold State.clearJob
  repeat' first | with_reducible assumption | with_reducible apply State.closeUnderCut_keeps | with_reducible apply State.updJob_keeps
                | with_reducible apply State.showJob_keeps | with_reducible apply State.flushDeltas_keeps | with_reducible apply State.Keeps.fold
                | (intro y b hy) | dsimp only | split

theorem State.setRun_keeps {s x : State} (h : s.Keeps x) (a1) : s.Keeps (State.setRun x a1) := by
  unfold State.setRun
  repeat' first | with_reducible assumption | with_reducible rfl | (simp only [State.keeps_mk]; with_reducible apply State.Raw.of)

theorem State.beginRestore_keeps {s x : State} (h : s.Keeps x) (a1) : s.Keeps (State.beginRestore x a1) := by
  unfold State.beginRestore
  repeat' first | with_reducible assumption | with_reducible apply State.endRun_keeps | with_reducible apply State.lostPage_keeps
                | with_reducible apply State.serveDeferred_keeps | with_reducible apply State.clearJob_keeps | with_reducible apply State.setRun_keeps
                | dsimp only | split

theorem State.beginWrite_keeps {s x : State} (h : s.Keeps x) (a1 a2) : s.Keeps (State.beginWrite x a1 a2) := by
  unfold State.beginWrite
  repeat' first | with_reducible assumption | with_reducible rfl | with_reducible apply State.endRun_keeps | with_reducible apply State.free_keeps
                | with_reducible apply State.setRun_keeps | (simp only [State.keeps_mk]; with_reducible apply State.Raw.of) | dsimp only | split

theorem State.startRuns_keeps {s x : State} (h : s.Keeps x) (a0) : s.Keeps (State.startRuns a0 x) := by
  induction a0 generalizing x with
  | zero => exact h
  | succ n ih =>
    unfold State.startRuns
    split
    · exact h
    · split
      · exact h
      · refine ih ?_
        repeat' first | exact State.beginRestore_keeps h _ | exact State.beginWrite_keeps h _ _ | exact State.endRun_keeps h _ _ _ | split

theorem State.nextRun_keeps {s x : State} (h : s.Keeps x) : s.Keeps (State.nextRun x) := by
  unfold State.nextRun
  repeat' first | with_reducible assumption | with_reducible apply State.startRuns_keeps

theorem State.setScale_keeps {s x : State} (h : s.Keeps x) (a1 a2) : s.Keeps (State.setScale x a1 a2) := by
  unfold State.setScale
  repeat' first | with_reducible assumption | with_reducible apply State.updJob_keeps

theorem State.setView_keeps {s x : State} (h : s.Keeps x) (a1 a2 a3) : s.Keeps (State.setView x a1 a2 a3) := by
  unfold State.setView
  repeat' first | with_reducible assumption | with_reducible apply State.updJob_keeps | with_reducible apply State.free_keeps

theorem State.endRestore_keeps {s x : State} (h : s.Keeps x) (a1 a2 a3 a4) : s.Keeps (State.endRestore x a1 a2 a3 a4) := by
  unfold State.endRestore
  repeat' first | with_reducible assumption | with_reducible apply State.loadSections_keeps | with_reducible apply State.nextRun_keeps
                | with_reducible apply State.endRun_keeps | with_reducible apply State.setScale_keeps | with_reducible apply State.setView_keeps
                | dsimp only | split

theorem State.failRestore_keeps {s x : State} (h : s.Keeps x) (a1 a2) : s.Keeps (State.failRestore x a1 a2) := by
  unfold State.failRestore
  repeat' first | with_reducible assumption | with_reducible apply State.endRestore_keeps | with_reducible apply State.free_keeps

theorem State.restoreDone_keeps {s x : State} (h : s.Keeps x) (a1) : s.Keeps (State.restoreDone x a1) := by
  unfold State.restoreDone
  repeat' first | with_reducible assumption | with_reducible apply State.endRestore_keeps | with_reducible apply State.flashWear_keeps
                | with_reducible apply State.lostPage_keeps | with_reducible apply State.failRestore_keeps | dsimp only | split

theorem State.copyPoisoned_keeps {s x : State} (h : s.Keeps x) (a1 a2) : s.Keeps (State.copyPoisoned x a1 a2).2 := by
  unfold State.copyPoisoned
  repeat' first | with_reducible assumption | with_reducible apply State.free_keeps | dsimp only | split

theorem State.mixGranules_keeps {s x : State} (h : s.Keeps x) (a1 a2 a3) : s.Keeps (State.mixGranules x a1 a2 a3).2 := by
  induction a1 generalizing x a2 a3 with
  | zero => exact h
  | succ n ih =>
    unfold State.mixGranules
    dsimp only
    split
    · exact ih h _ _
    · exact ih (State.free_keeps h) _ _

theorem State.copySection_keeps {s x : State} (h : s.Keeps x) (a1) : s.Keeps (State.copySection x a1).2 := by
  unfold State.copySection
  repeat' first | with_reducible assumption | with_reducible apply State.mixGranules_keeps | dsimp only | split

theorem State.copySections_keeps {s x : State} (h : s.Keeps x) (a1) : s.Keeps (State.copySections x a1).2 := by
  induction a1 generalizing x with
  | nil => exact h
  | cons k ks ih => exact ih (State.copySection_keeps h _)

theorem State.commitSlot_keeps {s x : State} (h : s.Keeps x) (a1 a2) : s.Keeps (State.commitSlot x a1 a2) := by
  unfold State.commitSlot
  repeat' first | with_reducible assumption | with_reducible rfl | with_reducible apply State.copySections_keeps
                | with_reducible apply State.endRun_keeps | (simp only [State.keeps_mk]; with_reducible apply State.Raw.of)

theorem State.failWrite_keeps {s x : State} (h : s.Keeps x) (a1 a2) : s.Keeps (State.failWrite x a1 a2) := by
  unfold State.failWrite
  repeat' first | with_reducible assumption | with_reducible rfl | with_reducible apply State.free_keeps | with_reducible apply State.endRun_keeps
                | (simp only [State.keeps_mk]; with_reducible apply State.Raw.of)

theorem State.writeDone_keeps {s x : State} (h : s.Keeps x) (a1) : s.Keeps (State.writeDone x a1) := by
  unfold State.writeDone
  repeat' first | with_reducible assumption | with_reducible apply State.copyPoisoned_keeps | with_reducible apply State.flashWear_keeps
                | with_reducible apply State.nextRun_keeps | with_reducible apply State.commitSlot_keeps | with_reducible apply State.failWrite_keeps
                | dsimp only | split

theorem State.restoreCmd_keeps {s x : State} (h : s.Keeps x) (a0 a2) : s.Keeps (State.restoreCmd a0 x a2) := by
  unfold State.restoreCmd
  repeat' first | with_reducible assumption | with_reducible rfl | with_reducible apply State.finish_keeps | with_reducible apply State.nextRun_keeps
                | (simp only [State.keeps_mk]; with_reducible apply State.Raw.of) | dsimp only | split

theorem State.takeCkpt_keeps {s x : State} (h : s.Keeps x) (a1 a2 a3 a4) : s.Keeps (State.takeCkpt x a1 a2 a3 a4) := by
  unfold State.takeCkpt
  repeat' first | with_reducible assumption | with_reducible rfl | with_reducible apply State.finish_keeps | with_reducible apply State.nextRun_keeps
                | (simp only [State.keeps_mk]; with_reducible apply State.Raw.of) | dsimp only | split

theorem State.deleteSet_keeps {s x : State} (h : s.Keeps x) (a1 a2) : s.Keeps (State.deleteSet x a1 a2) := by
  unfold State.deleteSet
  repeat' first | with_reducible assumption | with_reducible rfl | with_reducible apply State.finish_keeps | with_reducible apply State.wear_keeps
                | (simp only [State.keeps_mk]; with_reducible apply State.Raw.of) | dsimp only | split

theorem State.checkpointCmd_keeps {s x : State} (h : s.Keeps x) (a1) : s.Keeps (State.checkpointCmd x a1) := by
  unfold State.checkpointCmd
  repeat' first | with_reducible assumption | with_reducible apply State.finish_keeps | with_reducible apply State.lostPage_keeps
                | with_reducible apply State.finishData_keeps | with_reducible apply State.takeCkpt_keeps | with_reducible apply State.deleteSet_keeps
                | dsimp only | split

/-! ### StackLoss -/

theorem State.failDeltas_keeps {s x : State} (h : s.Keeps x) (a1) : s.Keeps (State.failDeltas x a1) := by
  unfold State.failDeltas
  repeat' first | with_reducible assumption | with_reducible apply State.finish_keeps | with_reducible apply State.updJob_keeps
                | with_reducible apply State.Keeps.fold | (intro y b hy)

theorem State.failSteps_keeps {s x : State} (h : s.Keeps x) (a1) : s.Keeps (State.failSteps x a1) := by
  unfold State.failSteps
  repeat' first | with_reducible assumption | with_reducible apply State.finish_keeps | with_reducible apply State.updJob_keeps
                | with_reducible apply State.Keeps.fold | (intro y b hy)

theorem State.failSolve_keeps {s x : State} (h : s.Keeps x) (a1) : s.Keeps (State.failSolve x a1) := by
  unfold State.failSolve
  repeat' first | with_reducible assumption | with_reducible rfl | with_reducible apply State.purge_keeps | with_reducible apply State.leaveAll_keeps
                | with_reducible apply State.stopCourse_keeps | with_reducible apply State.finish_keeps | with_reducible apply State.boundary_keeps
                | (simp only [State.keeps_mk]; with_reducible apply State.Raw.of)

theorem State.failCut_keeps {s x : State} (h : s.Keeps x) : s.Keeps (State.failCut x) := by
  unfold State.failCut
  repeat' first | with_reducible assumption | with_reducible rfl | with_reducible apply State.finish_keeps | with_reducible apply State.Keeps.fold
                | (simp only [State.keeps_mk]; with_reducible apply State.Raw.of) | (intro y b hy) | dsimp only | split

theorem State.failRuns_keeps {s x : State} (h : s.Keeps x) : s.Keeps (State.failRuns x) := by
  unfold State.failRuns
  repeat' first | with_reducible assumption | with_reducible rfl | with_reducible apply State.finish_keeps | with_reducible apply State.endRun_keeps
                | with_reducible apply State.failRestore_keeps | with_reducible apply State.failWrite_keeps | with_reducible apply State.Keeps.fold
                | (simp only [State.keeps_mk]; with_reducible apply State.Raw.of) | (intro y b hy) | dsimp only | split

theorem State.failSnap_keeps {s x : State} (h : s.Keeps x) (a1) : s.Keeps (State.failSnap x a1) := by
  unfold State.failSnap
  repeat' first | with_reducible assumption | with_reducible rfl | with_reducible apply State.finish_keeps
                | (simp only [State.keeps_mk]; with_reducible apply State.Raw.of)

theorem State.failCommands_keeps {s x : State} (h : s.Keeps x) : s.Keeps (State.failCommands x) := by
  unfold State.failCommands
  repeat' first | with_reducible assumption | with_reducible apply State.failDeltas_keeps | with_reducible apply State.failSteps_keeps
                | with_reducible apply State.failSolve_keeps | with_reducible apply State.failCut_keeps | with_reducible apply State.failRuns_keeps
                | with_reducible apply State.failSnap_keeps | with_reducible apply State.tryClose_keeps | with_reducible apply State.sweepViews_keeps
                | with_reducible apply State.Keeps.fold | (intro y b hy)

theorem State.loseStack_keeps {s x : State} (h : s.Keeps x) (a1) : s.Keeps (State.loseStack x a1) := by
  unfold State.loseStack
  repeat' first | with_reducible assumption | with_reducible rfl | with_reducible apply State.updStack_keeps
                | with_reducible apply State.failCommands_keeps | with_reducible apply State.memEvent_keeps
                | with_reducible apply State.raiseFault_keeps | (simp only [State.keeps_mk]; with_reducible apply State.Raw.of)

theorem State.endRetrain_keeps {s x : State} (h : s.Keeps x) (a1 a2) : s.Keeps (State.endRetrain x a1 a2) := by
  unfold State.endRetrain
  repeat' first | with_reducible assumption | with_reducible apply State.drainSpill_keeps | with_reducible apply State.serveBar2_keeps
                | with_reducible apply State.loseStack_keeps | with_reducible apply State.memEvent_keeps | with_reducible apply State.updStack_keeps
                | dsimp only | split

theorem State.beginRetrain_keeps {s x : State} (h : s.Keeps x) (a1) : s.Keeps (State.beginRetrain x a1) := by
  unfold State.beginRetrain
  repeat' first | with_reducible assumption | with_reducible apply State.updStack_keeps

theorem State.stackRetrain_keeps {s x : State} (h : s.Keeps x) (a1 a2) : s.Keeps (State.stackRetrain x a1 a2) := by
  unfold State.stackRetrain
  repeat' first | with_reducible assumption | with_reducible apply State.endRetrain_keeps | with_reducible apply State.beginRetrain_keeps | dsimp only
                | split

/-! ### Engines -/

theorem State.engineLost_keeps {s x : State} (h : s.Keeps x) (a1) : s.Keeps (State.engineLost x a1) := by
  unfold State.engineLost
  repeat' first | with_reducible assumption | with_reducible rfl | with_reducible apply State.raiseFault_keeps | with_reducible apply State.cper_keeps
                | with_reducible apply State.faultCourse_keeps | (simp only [State.keeps_mk]; with_reducible apply State.Raw.of) | dsimp only | split

theorem State.endRecord_keeps {s x : State} (h : s.Keeps x) (a1 a2 a3 a4 a5 a6) : s.Keeps (State.endRecord x a1 a2 a3 a4 a5 a6) := by
  unfold State.endRecord
  repeat' first | with_reducible assumption | with_reducible apply State.updCourse_keeps | with_reducible apply State.startRun_keeps | dsimp only
                | split

theorem State.endSolve_keeps {s x : State} (h : s.Keeps x) (a1 a2) : s.Keeps (State.endSolve x a1 a2) := by
  unfold State.endSolve
  repeat' first | with_reducible assumption | with_reducible rfl | with_reducible apply State.flagTile_keeps | with_reducible apply State.expose_keeps
                | with_reducible apply State.installAll_keeps | with_reducible apply State.publish_keeps
                | with_reducible apply State.bookAttempt_keeps | with_reducible apply State.sweepViews_keeps
                | with_reducible apply State.boundary_keeps | with_reducible apply State.tryClose_keeps | with_reducible apply State.finishData_keeps
                | with_reducible apply State.Keeps.fold | (simp only [State.keeps_mk]; with_reducible apply State.Raw.of) | (intro y b hy)
                | dsimp only | split

theorem State.operationEnd_keeps {s x : State} (h : s.Keeps x) (a1) : s.Keeps (State.operationEnd x a1) := by
  unfold State.operationEnd
  repeat' first | with_reducible assumption | with_reducible rfl | with_reducible apply State.updCourse_keeps
                | with_reducible apply State.endRecord_keeps | with_reducible apply State.endSolve_keeps | with_reducible apply State.Keeps.fold
                | (simp only [State.keeps_mk]; with_reducible apply State.Raw.of) | (intro y b hy) | dsimp only | split

theorem State.solveDeadlineReached_keeps {s x : State} (h : s.Keeps x) (a1) : s.Keeps (State.solveDeadlineReached x a1) := by
  unfold State.solveDeadlineReached
  repeat' first | with_reducible assumption | with_reducible apply State.free_keeps | with_reducible apply State.updCourse_keeps | dsimp only | split

theorem State.factorCutoff_keeps {s x : State} (h : s.Keeps x) (a1) : s.Keeps (State.factorCutoff x a1) := by
  unfold State.factorCutoff
  repeat' first | with_reducible assumption | with_reducible apply State.updCourse_keeps | dsimp only | split

theorem State.abandonAtLaunch_keeps {s x : State} (h : s.Keeps x) (a1) : s.Keeps (State.abandonAtLaunch x a1) := by
  unfold State.abandonAtLaunch
  repeat' first | with_reducible assumption | with_reducible apply State.traceRetire_keeps | with_reducible apply State.abandon_keeps | dsimp only
                | split

theorem State.engineStart_keeps {s x : State} (h : s.Keeps x) (a1) : s.Keeps (State.engineStart x a1) := by
  unfold State.engineStart
  repeat' first | with_reducible assumption | with_reducible apply State.abandonAtLaunch_keeps | with_reducible apply State.startRun_keeps
                | with_reducible apply State.start_keeps | dsimp only | split

/-! ### Cut -/

theorem State.relaunch_keeps {s x : State} (h : s.Keeps x) (a1) : s.Keeps (State.relaunch x a1) := by
  unfold State.relaunch
  repeat' first | with_reducible assumption | with_reducible apply State.courseLaunch_keeps | dsimp only | split

theorem State.standFirst_keeps {s x : State} (h : s.Keeps x) (a1) : s.Keeps (State.standFirst x a1) := by
  unfold State.standFirst
  repeat' first | with_reducible assumption | with_reducible apply State.setQueue_keeps | with_reducible apply State.updCourse_keeps
                | with_reducible apply State.Keeps.fold | (intro y b hy) | dsimp only | split

theorem State.resumeStitch_keeps {s x : State} (h : s.Keeps x) : s.Keeps (State.resumeStitch x) := by
  unfold State.resumeStitch
  repeat' first | with_reducible assumption | with_reducible rfl | with_reducible apply State.relaunch_keeps
                | with_reducible apply State.standFirst_keeps | with_reducible apply State.finish_keeps | with_reducible apply State.runAgain_keeps
                | with_reducible apply State.settleImplicit_keeps | with_reducible apply State.settle_keeps | with_reducible apply State.Keeps.fold
                | (simp only [State.keeps_mk]; with_reducible apply State.Raw.of) | (intro y b hy) | dsimp only | split

theorem State.endBindOff_keeps {s x : State} (h : s.Keeps x) : s.Keeps (State.endBindOff x) := by
  unfold State.endBindOff
  repeat' first | with_reducible assumption | with_reducible rfl | with_reducible apply State.free_keeps | with_reducible apply State.finishData_keeps
                | (simp only [State.keeps_mk]; with_reducible apply State.Raw.of) | dsimp only | split

theorem State.cutTimeout_keeps {s x : State} (h : s.Keeps x) : s.Keeps (State.cutTimeout x) := by
  unfold State.cutTimeout
  repeat' first | with_reducible assumption | with_reducible apply State.endBindOff_keeps | dsimp only | split

theorem State.cutReport_keeps {s x : State} (h : s.Keeps x) (a1 a2 a3 a4) : s.Keeps (State.cutReport x a1 a2 a3 a4) := by
  unfold State.cutReport
  repeat' first | with_reducible assumption | with_reducible rfl | with_reducible apply State.relayReport_keeps
                | with_reducible apply State.endBindOff_keeps | (simp only [State.keeps_mk]; with_reducible apply State.Raw.of) | dsimp only | split

theorem State.cutTaken_keeps {s x : State} (h : s.Keeps x) : s.Keeps (State.cutTaken x) := by
  unfold State.cutTaken
  repeat' first | with_reducible assumption | with_reducible rfl | with_reducible apply State.reportAll_keeps
                | with_reducible apply State.endBindOff_keeps | (simp only [State.keeps_mk]; with_reducible apply State.Raw.of) | dsimp only | split

theorem State.cutStitch_keeps {s x : State} (h : s.Keeps x) : s.Keeps (State.cutStitch x) := by
  unfold State.cutStitch
  repeat' first | with_reducible assumption | with_reducible rfl | (simp only [State.keeps_mk]; with_reducible apply State.Raw.of)

theorem State.withdraw_keeps {s x : State} (h : s.Keeps x) (a1) : s.Keeps (State.withdraw x a1) := by
  unfold State.withdraw
  repeat' first | with_reducible assumption | with_reducible apply State.purge_keeps | with_reducible apply State.stopCourse_keeps
                | with_reducible apply State.boundary_keeps | with_reducible apply State.updCourse_keeps

theorem State.seamWithdrawal_keeps {s x : State} (h : s.Keeps x) (a1) : s.Keeps (State.seamWithdrawal x a1) := by
  unfold State.seamWithdrawal
  repeat' first | with_reducible assumption | with_reducible rfl | with_reducible apply State.withdraw_keeps
                | (simp only [State.keeps_mk]; with_reducible apply State.Raw.of) | dsimp only | split

theorem State.resume_keeps {s x : State} (h : s.Keeps x) (a1) : s.Keeps (State.resume x a1) := by
  unfold State.resume
  repeat' first | with_reducible assumption | with_reducible rfl | with_reducible apply State.finish_keeps
                | (simp only [State.keeps_mk]; with_reducible apply State.Raw.of) | dsimp only | split

theorem State.bindOff_keeps {s x : State} (h : s.Keeps x) (a1) : s.Keeps (State.bindOff x a1) := by
  unfold State.bindOff
  repeat' first | with_reducible assumption | with_reducible rfl | with_reducible apply State.finish_keeps
                | with_reducible apply State.endBindOff_keeps | (simp only [State.keeps_mk]; with_reducible apply State.Raw.of) | dsimp only | split

/-! ### Darn -/

theorem State.packIn_keeps {s x : State} (h : s.Keeps x) (a1) : s.Keeps (State.packIn x a1) := by
  unfold State.packIn
  repeat' first | with_reducible assumption | with_reducible rfl | with_reducible apply State.finish_keeps | with_reducible apply State.wear_keeps
                | (simp only [State.keeps_mk]; with_reducible apply State.Raw.of) | dsimp only | split

theorem State.packOut_keeps {s x : State} (h : s.Keeps x) (a1) : s.Keeps (State.packOut x a1) := by
  unfold State.packOut
  repeat' first | with_reducible assumption | with_reducible rfl | with_reducible apply State.finish_keeps | with_reducible apply State.wear_keeps
                | (simp only [State.keeps_mk]; with_reducible apply State.Raw.of) | dsimp only | split

theorem State.darnLoad_keeps {s x : State} (h : s.Keeps x) (a1) : s.Keeps (State.darnLoad x a1) := by
  unfold State.darnLoad
  repeat' first | with_reducible assumption | with_reducible apply State.packIn_keeps | with_reducible apply State.packOut_keeps
                | with_reducible apply State.finish_keeps | dsimp only | split

/-! ### Swatch -/

theorem State.suspectClear_keeps {s x : State} (h : s.Keeps x) (a1) : s.Keeps (State.suspectClear x a1) := by
  unfold State.suspectClear
  repeat' first | with_reducible assumption | with_reducible apply State.clearSuspect_keeps | dsimp only | split

theorem State.updSwatch_keeps {s x : State} (h : s.Keeps x) (a1 a2) : s.Keeps (State.updSwatch x a1 a2) := by
  unfold State.updSwatch
  repeat' first | with_reducible assumption | with_reducible rfl | (simp only [State.keeps_mk]; with_reducible apply State.Raw.of)

theorem State.recompute_keeps {s x : State} (h : s.Keeps x) (a1) : s.Keeps (State.recompute x a1) := by
  unfold State.recompute
  repeat' first | with_reducible assumption | with_reducible rfl | with_reducible apply State.free_keeps | with_reducible apply State.updNeedle_keeps
                | with_reducible apply State.fillStores_keeps | with_reducible apply State.dropItem_keeps
                | (simp only [State.keeps_mk]; with_reducible apply State.Raw.of)

theorem State.recomputeFault_keeps {s x : State} (h : s.Keeps x) (a1 a2) : s.Keeps (State.recomputeFault x a1 a2) := by
  unfold State.recomputeFault
  repeat' first | with_reducible assumption | with_reducible apply State.updSwatch_keeps | with_reducible apply State.recompute_keeps

theorem State.mismatched_keeps {s x : State} (h : s.Keeps x) (a1) : s.Keeps (State.mismatched x a1) := by
  unfold State.mismatched
  repeat' first | with_reducible assumption | with_reducible apply State.makeSuspect_keeps | with_reducible apply State.updNeedle_keeps

theorem State.recomputed_keeps {s x : State} (h : s.Keeps x) (a1) : s.Keeps (State.recomputed x a1) := by
  unfold State.recomputed
  repeat' first | with_reducible assumption | with_reducible apply State.updNeedle_keeps | with_reducible apply State.recompute_keeps

theorem State.mismatchRecord_keeps {s x : State} (h : s.Keeps x) (a1 a2 a3 a4 a5 a6) : s.Keeps (State.mismatchRecord x a1 a2 a3 a4 a5 a6) := by
  unfold State.mismatchRecord
  repeat' first | with_reducible assumption | with_reducible apply State.cper_keeps

theorem State.endSwatch_keeps {s x : State} (h : s.Keeps x) (a1) : s.Keeps (State.endSwatch x a1) := by
  unfold State.endSwatch
  repeat' first | with_reducible assumption | with_reducible rfl | with_reducible apply State.tryClose_keeps
                | with_reducible apply State.settleImplicit_keeps | with_reducible apply State.settle_keeps
                | (simp only [State.keeps_mk]; with_reducible apply State.Raw.of) | dsimp only | split

theorem State.failSwatch_keeps {s x : State} (h : s.Keeps x) (a1 a2 a3) : s.Keeps (State.failSwatch x a1 a2 a3) := by
  unfold State.failSwatch
  repeat' first | with_reducible assumption | with_reducible apply State.endSwatch_keeps | with_reducible apply State.updJob_keeps
                | with_reducible apply State.updCourse_keeps | with_reducible apply State.faultCourse_keeps | dsimp only | split

theorem State.tiebreak_keeps {s x : State} (h : s.Keeps x) (a1 a2 a3 a4 a5 a6) : s.Keeps (State.tiebreak x a1 a2 a3 a4 a5 a6) := by
  unfold State.tiebreak
  repeat' first | with_reducible assumption | with_reducible apply State.mismatched_keeps | with_reducible apply State.recomputed_keeps
                | with_reducible apply State.attribute_keeps | with_reducible apply State.mismatchRecord_keeps
                | with_reducible apply State.endSwatch_keeps | with_reducible apply State.failSwatch_keeps | with_reducible apply State.Keeps.fold
                | (intro y b hy) | dsimp only | split

theorem State.swatchTiebreak_keeps {s x : State} (h : s.Keeps x) (a1 a2) : s.Keeps (State.swatchTiebreak x a1 a2) := by
  unfold State.swatchTiebreak
  repeat' first | with_reducible assumption | with_reducible apply State.recomputeFault_keeps | with_reducible apply State.tiebreak_keeps | dsimp only
                | split

theorem State.telemetry_keeps {s x : State} (h : s.Keeps x) (a1 a2 a3 a4 a5) : s.Keeps (State.telemetry x a1 a2 a3 a4 a5) := by
  unfold State.telemetry
  repeat' first | with_reducible assumption | with_reducible apply State.countJob_keeps | with_reducible apply State.traceRec_keeps
                | with_reducible apply State.Keeps.fold | (intro y b hy) | dsimp only | split

theorem State.compareWide_keeps {s x : State} (h : s.Keeps x) (a1) : s.Keeps (State.compareWide x a1) := by
  unfold State.compareWide
  repeat' first | with_reducible assumption | with_reducible apply State.telemetry_keeps | dsimp only | split

theorem State.swatchCompare_keeps {s x : State} (h : s.Keeps x) (a1) : s.Keeps (State.swatchCompare x a1) := by
  unfold State.swatchCompare
  repeat' first | with_reducible assumption | with_reducible apply State.compareWide_keeps | with_reducible apply State.endSwatch_keeps
                | with_reducible apply State.count_keeps | with_reducible apply State.updSwatch_keeps | dsimp only | split

theorem State.replicaRun_keeps {s x : State} (h : s.Keeps x) (a1 a2) : s.Keeps (State.replicaRun x a1 a2) := by
  unfold State.replicaRun
  repeat' first | with_reducible assumption | with_reducible apply State.recomputeFault_keeps | with_reducible apply State.recomputed_keeps
                | with_reducible apply State.updSwatch_keeps | dsimp only | split

theorem State.newSwatch_keeps {s x : State} (h : s.Keeps x) (a1 a2 a3 a4 a5) : s.Keeps (State.newSwatch x a1 a2 a3 a4 a5) := by
  unfold State.newSwatch
  repeat' first | with_reducible assumption | with_reducible rfl | with_reducible apply State.count_keeps | with_reducible apply State.updNeedle_keeps
                | with_reducible apply State.updCourse_keeps | (simp only [State.keeps_mk]; with_reducible apply State.Raw.of) | dsimp only | split

theorem State.countTo_keeps {s x : State} (h : s.Keeps x) (a1 a2) : s.Keeps (State.countTo x a1 a2) := by
  unfold State.countTo
  repeat' first | with_reducible assumption | with_reducible apply State.loadSample_keeps | with_reducible apply State.countTiles_keeps
                | with_reducible apply State.Keeps.fold | (intro y b hy)

theorem State.swatchSelect_keeps {s x : State} (h : s.Keeps x) (a1 a2 a3 a4 a5) : s.Keeps (State.swatchSelect x a1 a2 a3 a4 a5) := by
  unfold State.swatchSelect
  repeat' first | with_reducible assumption | with_reducible apply State.newSwatch_keeps | with_reducible apply State.countTo_keeps | dsimp only
                | split

/-! ### SelfTest -/

theorem State.setItem_keeps {s x : State} (h : s.Keeps x) (a1 a2) : s.Keeps (State.setItem x a1 a2) := by
  unfold State.setItem
  repeat' first | with_reducible assumption | with_reducible rfl | with_reducible apply State.updNeedle_keeps
                | (simp only [State.keeps_mk]; with_reducible apply State.Raw.of) | dsimp only | split

theorem State.endTests_keeps {s x : State} (h : s.Keeps x) : s.Keeps (State.endTests x) := by
  unfold State.endTests
  repeat' first | with_reducible assumption | with_reducible rfl | with_reducible apply State.free_keeps | with_reducible apply State.finishData_keeps
                | with_reducible apply State.Keeps.fold | (simp only [State.keeps_mk]; with_reducible apply State.Raw.of) | (intro y b hy)
                | dsimp only | split

theorem State.targetReleased_keeps {s x : State} (h : s.Keeps x) (a1) : s.Keeps (State.targetReleased x a1) := by
  unfold State.targetReleased
  repeat' first | with_reducible assumption | with_reducible rfl | with_reducible apply State.setItem_keeps
                | with_reducible apply State.updNeedle_keeps | with_reducible apply State.endTests_keeps
                | (simp only [State.keeps_mk]; with_reducible apply State.Raw.of) | dsimp only | split

theorem State.goOn_keeps {s x : State} (h : s.Keeps x) (a1 a2) : s.Keeps (State.goOn x a1 a2) := by
  unfold State.goOn
  repeat' first | with_reducible assumption | with_reducible apply State.setItem_keeps | dsimp only | split

theorem State.targetTaken_keeps {s x : State} (h : s.Keeps x) (a1) : s.Keeps (State.targetTaken x a1) := by
  unfold State.targetTaken
  repeat' first | with_reducible assumption | with_reducible rfl | with_reducible apply State.dropItem_keeps | with_reducible apply State.goOn_keeps
                | (simp only [State.keeps_mk]; with_reducible apply State.Raw.of) | dsimp only | split

theorem State.failedItem_keeps {s x : State} (h : s.Keeps x) (a1) : s.Keeps (State.failedItem x a1) := by
  unfold State.failedItem
  repeat' first | with_reducible assumption | with_reducible apply State.attribute_keeps | with_reducible apply State.makeSuspect_keeps
                | with_reducible apply State.updNeedle_keeps

theorem State.updTested_keeps {s x : State} (h : s.Keeps x) (a1 a2) : s.Keeps (State.updTested x a1 a2) := by
  unfold State.updTested
  repeat' first | with_reducible assumption | with_reducible rfl | (simp only [State.keeps_mk]; with_reducible apply State.Raw.of)

theorem State.testedItem_keeps {s x : State} (h : s.Keeps x) (a1 a2 a3 a4 a5) : s.Keeps (State.testedItem x a1 a2 a3 a4 a5) := by
  unfold State.testedItem
  repeat' first | with_reducible assumption | with_reducible apply State.updTested_keeps | with_reducible apply State.cper_keeps
                | with_reducible apply State.engineLost_keeps | dsimp only | split

theorem State.itemDone_keeps {s x : State} (h : s.Keeps x) (a1 a2) : s.Keeps (State.itemDone x a1 a2) := by
  unfold State.itemDone
  repeat' first | with_reducible assumption | with_reducible apply State.countUnit_keeps | with_reducible apply State.setItem_keeps
                | with_reducible apply State.fillStores_keeps | with_reducible apply State.updNeedle_keeps
                | with_reducible apply State.failedItem_keeps | with_reducible apply State.goOn_keeps | with_reducible apply State.testedItem_keeps
                | dsimp only | split

theorem State.idleItem_keeps {s x : State} (h : s.Keeps x) (a1) : s.Keeps (State.idleItem x a1) := by
  unfold State.idleItem
  repeat' first | with_reducible assumption | with_reducible apply State.setItem_keeps | dsimp only | split

theorem State.beginTest_keeps {s x : State} (h : s.Keeps x) (a1 a2) : s.Keeps (State.beginTest x a1 a2) := by
  unfold State.beginTest
  repeat' first | with_reducible assumption | with_reducible rfl | with_reducible apply State.endTests_keeps
                | (simp only [State.keeps_mk]; with_reducible apply State.Raw.of)

theorem State.selfTest_keeps {s x : State} (h : s.Keeps x) (a1) : s.Keeps (State.selfTest x a1) := by
  unfold State.selfTest
  repeat' first | with_reducible assumption | with_reducible apply State.finish_keeps | with_reducible apply State.beginTest_keeps
                | with_reducible apply State.lostPage_keeps | dsimp only | split

/-! ### Commands -/

/-- A command of an event keeps what its operation keeps. -/
theorem act_keeps {s u : State} {t : Stitch} {f : State → State} (hf : ∀ x, s.Keeps x → s.Keeps (f x)) (e : s.act t f = .next u) : s.Keeps u := by
  unfold State.act at e
  cases e
  have h := State.advance_keeps (State.Keeps.refl s) t
  split
  · exact hf _ h
  · exact h

/-- So does one of a host read. -/
theorem actRead_keeps {s u : State} {t : Stitch} {n : Nat} {f : State → State} (hf : ∀ x, s.Keeps x → s.Keeps (f x))
    (e : s.actRead t n f = .next u) : s.Keeps u := by
  unfold State.actRead at e
  cases e
  have h := State.advance_keeps (State.Keeps.refl s) t
  split
  · exact hf _ h
  · split
    · exact State.emit_keeps h _
    · exact h

/-- So does one of the power stage. -/
theorem stageAct_keeps {s u : State} {t : Stitch} {f : State → State} (hf : ∀ x, s.Keeps x → s.Keeps (f x)) (e : s.stageAct t f = .next u) :
    s.Keeps u := by
  unfold State.stageAct at e
  cases e
  exact hf _ (State.advance_keeps (State.Keeps.refl s) t)

/-- So does a host command. -/
theorem host_keeps {s u : State} {t : Stitch} {src : Src} {io : HostIo} {op : Nat} {r : Bool} {g : State → Cmd → State}
    (hg : ∀ x c, s.Keeps x → s.Keeps (g x c)) (e : s.host t src io op r g = .next u) : s.Keeps u := by
  refine act_keeps (fun x h => ?_) e
  split
  · exact h
  · split
    · dsimp only
      split
      · exact State.finish_keeps (State.pop_keeps h _) _ _ _
      · exact hg _ _ (State.pop_keeps h _)
    · exact h

end Sys2Proof.Machine
end

