-- ==== Sys2Proof/Laws/State.lean ====
section
/-! SUPPORT. What each named update of the state leaves alone, one lemma per field, and what it writes. -/

namespace Sys2Proof.Machine

variable (s : State)

/-! ### Drawing a free value -/

theorem State.free_val : s.free.1 = Config.freeBits s.freeCtr := rfl
@[simp] theorem State.free_freeCtr : s.free.2.freeCtr = s.freeCtr + 1 := rfl
@[simp] theorem State.free_pending : s.free.2.pending = s.pending := rfl
@[simp] theorem State.free_out : s.free.2.out = s.out := rfl
@[simp] theorem State.free_stitch : s.free.2.stitch = s.stitch := rfl
@[simp] theorem State.free_counting : s.free.2.counting = s.counting := rfl
@[simp] theorem State.free_stage : s.free.2.stage = s.stage := rfl
@[simp] theorem State.free_dev : s.free.2.dev = s.dev := rfl
@[simp] theorem State.free_pcie : s.free.2.pcie = s.pcie := rfl
@[simp] theorem State.free_intr : s.free.2.intr = s.intr := rfl
@[simp] theorem State.free_admin : s.free.2.admin = s.admin := rfl
@[simp] theorem State.free_rings : s.free.2.rings = s.rings := rfl
@[simp] theorem State.free_cfg : s.free.2.cfg = s.cfg := rfl
@[simp] theorem State.free_jobs : s.free.2.jobs = s.jobs := rfl
@[simp] theorem State.free_openings : s.free.2.openings = s.openings := rfl
@[simp] theorem State.free_early : s.free.2.early = s.early := rfl
@[simp] theorem State.free_courses : s.free.2.courses = s.courses := rfl
@[simp] theorem State.free_panelQ : s.free.2.panelQ = s.panelQ := rfl
@[simp] theorem State.free_engineQ : s.free.2.engineQ = s.engineQ := rfl
@[simp] theorem State.free_linkQ : s.free.2.linkQ = s.linkQ := rfl
@[simp] theorem State.free_hold : s.free.2.hold = s.hold := rfl
@[simp] theorem State.free_nextId : s.free.2.nextId = s.nextId := rfl
@[simp] theorem State.free_snaps : s.free.2.snaps = s.snaps := rfl
@[simp] theorem State.free_mem : s.free.2.mem = s.mem := rfl
@[simp] theorem State.free_stash : s.free.2.stash = s.stash := rfl
@[simp] theorem State.free_needles : s.free.2.needles = s.needles := rfl
@[simp] theorem State.free_panelStores : s.free.2.panelStores = s.panelStores := rfl
@[simp] theorem State.free_spareMap : s.free.2.spareMap = s.spareMap := rfl
@[simp] theorem State.free_engines : s.free.2.engines = s.engines := rfl
@[simp] theorem State.free_swatches : s.free.2.swatches = s.swatches := rfl
@[simp] theorem State.free_nextSwatch : s.free.2.nextSwatch = s.nextSwatch := rfl
@[simp] theorem State.free_shortSwatches : s.free.2.shortSwatches = s.shortSwatches := rfl
@[simp] theorem State.free_selfTests : s.free.2.selfTests = s.selfTests := rfl
@[simp] theorem State.free_time : s.free.2.time = s.time := rfl
@[simp] theorem State.free_gauge : s.free.2.gauge = s.gauge := rfl
@[simp] theorem State.free_links : s.free.2.links = s.links := rfl
@[simp] theorem State.free_skein : s.free.2.skein = s.skein := rfl
@[simp] theorem State.free_txq : s.free.2.txq = s.txq := rfl
@[simp] theorem State.free_credits : s.free.2.credits = s.credits := rfl
@[simp] theorem State.free_pw : s.free.2.pw = s.pw := rfl
@[simp] theorem State.free_fw : s.free.2.fw = s.fw := rfl
@[simp] theorem State.free_cnt : s.free.2.cnt = s.cnt := rfl
@[simp] theorem State.free_trace : s.free.2.trace = s.trace := rfl
@[simp] theorem State.free_dbg : s.free.2.dbg = s.dbg := rfl
@[simp] theorem State.free_cut : s.free.2.cut = s.cut := rfl
@[simp] theorem State.free_mgmt : s.free.2.mgmt = s.mgmt := rfl

/-! ### emit -/

theorem State.emit_writes (e : Emission) : (s.emit e).out = s.out ++ [e] := rfl
@[simp] theorem State.emit_pending (e : Emission) : (s.emit e).pending = s.pending := rfl
@[simp] theorem State.emit_freeCtr (e : Emission) : (s.emit e).freeCtr = s.freeCtr := rfl
@[simp] theorem State.emit_stitch (e : Emission) : (s.emit e).stitch = s.stitch := rfl
@[simp] theorem State.emit_counting (e : Emission) : (s.emit e).counting = s.counting := rfl
@[simp] theorem State.emit_stage (e : Emission) : (s.emit e).stage = s.stage := rfl
@[simp] theorem State.emit_dev (e : Emission) : (s.emit e).dev = s.dev := rfl
@[simp] theorem State.emit_pcie (e : Emission) : (s.emit e).pcie = s.pcie := rfl
@[simp] theorem State.emit_intr (e : Emission) : (s.emit e).intr = s.intr := rfl
@[simp] theorem State.emit_admin (e : Emission) : (s.emit e).admin = s.admin := rfl
@[simp] theorem State.emit_rings (e : Emission) : (s.emit e).rings = s.rings := rfl
@[simp] theorem State.emit_cfg (e : Emission) : (s.emit e).cfg = s.cfg := rfl
@[simp] theorem State.emit_jobs (e : Emission) : (s.emit e).jobs = s.jobs := rfl
@[simp] theorem State.emit_openings (e : Emission) : (s.emit e).openings = s.openings := rfl
@[simp] theorem State.emit_early (e : Emission) : (s.emit e).early = s.early := rfl
@[simp] theorem State.emit_courses (e : Emission) : (s.emit e).courses = s.courses := rfl
@[simp] theorem State.emit_panelQ (e : Emission) : (s.emit e).panelQ = s.panelQ := rfl
@[simp] theorem State.emit_engineQ (e : Emission) : (s.emit e).engineQ = s.engineQ := rfl
@[simp] theorem State.emit_linkQ (e : Emission) : (s.emit e).linkQ = s.linkQ := rfl
@[simp] theorem State.emit_hold (e : Emission) : (s.emit e).hold = s.hold := rfl
@[simp] theorem State.emit_nextId (e : Emission) : (s.emit e).nextId = s.nextId := rfl
@[simp] theorem State.emit_snaps (e : Emission) : (s.emit e).snaps = s.snaps := rfl
@[simp] theorem State.emit_mem (e : Emission) : (s.emit e).mem = s.mem := rfl
@[simp] theorem State.emit_stash (e : Emission) : (s.emit e).stash = s.stash := rfl
@[simp] theorem State.emit_needles (e : Emission) : (s.emit e).needles = s.needles := rfl
@[simp] theorem State.emit_panelStores (e : Emission) : (s.emit e).panelStores = s.panelStores := rfl
@[simp] theorem State.emit_spareMap (e : Emission) : (s.emit e).spareMap = s.spareMap := rfl
@[simp] theorem State.emit_engines (e : Emission) : (s.emit e).engines = s.engines := rfl
@[simp] theorem State.emit_swatches (e : Emission) : (s.emit e).swatches = s.swatches := rfl
@[simp] theorem State.emit_nextSwatch (e : Emission) : (s.emit e).nextSwatch = s.nextSwatch := rfl
@[simp] theorem State.emit_shortSwatches (e : Emission) : (s.emit e).shortSwatches = s.shortSwatches := rfl
@[simp] theorem State.emit_selfTests (e : Emission) : (s.emit e).selfTests = s.selfTests := rfl
@[simp] theorem State.emit_time (e : Emission) : (s.emit e).time = s.time := rfl
@[simp] theorem State.emit_gauge (e : Emission) : (s.emit e).gauge = s.gauge := rfl
@[simp] theorem State.emit_links (e : Emission) : (s.emit e).links = s.links := rfl
@[simp] theorem State.emit_skein (e : Emission) : (s.emit e).skein = s.skein := rfl
@[simp] theorem State.emit_txq (e : Emission) : (s.emit e).txq = s.txq := rfl
@[simp] theorem State.emit_credits (e : Emission) : (s.emit e).credits = s.credits := rfl
@[simp] theorem State.emit_pw (e : Emission) : (s.emit e).pw = s.pw := rfl
@[simp] theorem State.emit_fw (e : Emission) : (s.emit e).fw = s.fw := rfl
@[simp] theorem State.emit_cnt (e : Emission) : (s.emit e).cnt = s.cnt := rfl
@[simp] theorem State.emit_trace (e : Emission) : (s.emit e).trace = s.trace := rfl
@[simp] theorem State.emit_dbg (e : Emission) : (s.emit e).dbg = s.dbg := rfl
@[simp] theorem State.emit_cut (e : Emission) : (s.emit e).cut = s.cut := rfl
@[simp] theorem State.emit_mgmt (e : Emission) : (s.emit e).mgmt = s.mgmt := rfl
@[simp] theorem State.emit_job_q (e : Emission) (x : Word) : (s.emit e).job? x = s.job? x := rfl
@[simp] theorem State.emit_course_q (e : Emission) (x : Nat) : (s.emit e).course? x = s.course? x := rfl
@[simp] theorem State.emit_ring (e : Emission) (x : Nat) : (s.emit e).ring x = s.ring x := rfl
@[simp] theorem State.emit_link (e : Emission) (x : Nat) : (s.emit e).link x = s.link x := rfl
@[simp] theorem State.emit_needle (e : Emission) (x : Nat) : (s.emit e).needle x = s.needle x := rfl

/-! ### updJob -/

theorem State.updJob_writes (id : Word) (f : Job → Job) : (s.updJob id f).jobs = s.jobs.map (fun j => if j.id == id then f j else j) := rfl
@[simp] theorem State.updJob_pending (id : Word) (f : Job → Job) : (s.updJob id f).pending = s.pending := rfl
@[simp] theorem State.updJob_out (id : Word) (f : Job → Job) : (s.updJob id f).out = s.out := rfl
@[simp] theorem State.updJob_freeCtr (id : Word) (f : Job → Job) : (s.updJob id f).freeCtr = s.freeCtr := rfl
@[simp] theorem State.updJob_stitch (id : Word) (f : Job → Job) : (s.updJob id f).stitch = s.stitch := rfl
@[simp] theorem State.updJob_counting (id : Word) (f : Job → Job) : (s.updJob id f).counting = s.counting := rfl
@[simp] theorem State.updJob_stage (id : Word) (f : Job → Job) : (s.updJob id f).stage = s.stage := rfl
@[simp] theorem State.updJob_dev (id : Word) (f : Job → Job) : (s.updJob id f).dev = s.dev := rfl
@[simp] theorem State.updJob_pcie (id : Word) (f : Job → Job) : (s.updJob id f).pcie = s.pcie := rfl
@[simp] theorem State.updJob_intr (id : Word) (f : Job → Job) : (s.updJob id f).intr = s.intr := rfl
@[simp] theorem State.updJob_admin (id : Word) (f : Job → Job) : (s.updJob id f).admin = s.admin := rfl
@[simp] theorem State.updJob_rings (id : Word) (f : Job → Job) : (s.updJob id f).rings = s.rings := rfl
@[simp] theorem State.updJob_cfg (id : Word) (f : Job → Job) : (s.updJob id f).cfg = s.cfg := rfl
@[simp] theorem State.updJob_openings (id : Word) (f : Job → Job) : (s.updJob id f).openings = s.openings := rfl
@[simp] theorem State.updJob_early (id : Word) (f : Job → Job) : (s.updJob id f).early = s.early := rfl
@[simp] theorem State.updJob_courses (id : Word) (f : Job → Job) : (s.updJob id f).courses = s.courses := rfl
@[simp] theorem State.updJob_panelQ (id : Word) (f : Job → Job) : (s.updJob id f).panelQ = s.panelQ := rfl
@[simp] theorem State.updJob_engineQ (id : Word) (f : Job → Job) : (s.updJob id f).engineQ = s.engineQ := rfl
@[simp] theorem State.updJob_linkQ (id : Word) (f : Job → Job) : (s.updJob id f).linkQ = s.linkQ := rfl
@[simp] theorem State.updJob_hold (id : Word) (f : Job → Job) : (s.updJob id f).hold = s.hold := rfl
@[simp] theorem State.updJob_nextId (id : Word) (f : Job → Job) : (s.updJob id f).nextId = s.nextId := rfl
@[simp] theorem State.updJob_snaps (id : Word) (f : Job → Job) : (s.updJob id f).snaps = s.snaps := rfl
@[simp] theorem State.updJob_mem (id : Word) (f : Job → Job) : (s.updJob id f).mem = s.mem := rfl
@[simp] theorem State.updJob_stash (id : Word) (f : Job → Job) : (s.updJob id f).stash = s.stash := rfl
@[simp] theorem State.updJob_needles (id : Word) (f : Job → Job) : (s.updJob id f).needles = s.needles := rfl
@[simp] theorem State.updJob_panelStores (id : Word) (f : Job → Job) : (s.updJob id f).panelStores = s.panelStores := rfl
@[simp] theorem State.updJob_spareMap (id : Word) (f : Job → Job) : (s.updJob id f).spareMap = s.spareMap := rfl
@[simp] theorem State.updJob_engines (id : Word) (f : Job → Job) : (s.updJob id f).engines = s.engines := rfl
@[simp] theorem State.updJob_swatches (id : Word) (f : Job → Job) : (s.updJob id f).swatches = s.swatches := rfl
@[simp] theorem State.updJob_nextSwatch (id : Word) (f : Job → Job) : (s.updJob id f).nextSwatch = s.nextSwatch := rfl
@[simp] theorem State.updJob_shortSwatches (id : Word) (f : Job → Job) : (s.updJob id f).shortSwatches = s.shortSwatches := rfl
@[simp] theorem State.updJob_selfTests (id : Word) (f : Job → Job) : (s.updJob id f).selfTests = s.selfTests := rfl
@[simp] theorem State.updJob_time (id : Word) (f : Job → Job) : (s.updJob id f).time = s.time := rfl
@[simp] theorem State.updJob_gauge (id : Word) (f : Job → Job) : (s.updJob id f).gauge = s.gauge := rfl
@[simp] theorem State.updJob_links (id : Word) (f : Job → Job) : (s.updJob id f).links = s.links := rfl
@[simp] theorem State.updJob_skein (id : Word) (f : Job → Job) : (s.updJob id f).skein = s.skein := rfl
@[simp] theorem State.updJob_txq (id : Word) (f : Job → Job) : (s.updJob id f).txq = s.txq := rfl
@[simp] theorem State.updJob_credits (id : Word) (f : Job → Job) : (s.updJob id f).credits = s.credits := rfl
@[simp] theorem State.updJob_pw (id : Word) (f : Job → Job) : (s.updJob id f).pw = s.pw := rfl
@[simp] theorem State.updJob_fw (id : Word) (f : Job → Job) : (s.updJob id f).fw = s.fw := rfl
@[simp] theorem State.updJob_cnt (id : Word) (f : Job → Job) : (s.updJob id f).cnt = s.cnt := rfl
@[simp] theorem State.updJob_trace (id : Word) (f : Job → Job) : (s.updJob id f).trace = s.trace := rfl
@[simp] theorem State.updJob_dbg (id : Word) (f : Job → Job) : (s.updJob id f).dbg = s.dbg := rfl
@[simp] theorem State.updJob_cut (id : Word) (f : Job → Job) : (s.updJob id f).cut = s.cut := rfl
@[simp] theorem State.updJob_mgmt (id : Word) (f : Job → Job) : (s.updJob id f).mgmt = s.mgmt := rfl
@[simp] theorem State.updJob_course_q (id : Word) (f : Job → Job) (x : Nat) : (s.updJob id f).course? x = s.course? x := rfl
@[simp] theorem State.updJob_ring (id : Word) (f : Job → Job) (x : Nat) : (s.updJob id f).ring x = s.ring x := rfl
@[simp] theorem State.updJob_link (id : Word) (f : Job → Job) (x : Nat) : (s.updJob id f).link x = s.link x := rfl
@[simp] theorem State.updJob_needle (id : Word) (f : Job → Job) (x : Nat) : (s.updJob id f).needle x = s.needle x := rfl

/-! ### updCourse -/

theorem State.updCourse_writes (id : Nat) (f : Course → Course) :
    (s.updCourse id f).courses = s.courses.map (fun c => if c.id == id then f c else c) := rfl
@[simp] theorem State.updCourse_pending (id : Nat) (f : Course → Course) : (s.updCourse id f).pending = s.pending := rfl
@[simp] theorem State.updCourse_out (id : Nat) (f : Course → Course) : (s.updCourse id f).out = s.out := rfl
@[simp] theorem State.updCourse_freeCtr (id : Nat) (f : Course → Course) : (s.updCourse id f).freeCtr = s.freeCtr := rfl
@[simp] theorem State.updCourse_stitch (id : Nat) (f : Course → Course) : (s.updCourse id f).stitch = s.stitch := rfl
@[simp] theorem State.updCourse_counting (id : Nat) (f : Course → Course) : (s.updCourse id f).counting = s.counting := rfl
@[simp] theorem State.updCourse_stage (id : Nat) (f : Course → Course) : (s.updCourse id f).stage = s.stage := rfl
@[simp] theorem State.updCourse_dev (id : Nat) (f : Course → Course) : (s.updCourse id f).dev = s.dev := rfl
@[simp] theorem State.updCourse_pcie (id : Nat) (f : Course → Course) : (s.updCourse id f).pcie = s.pcie := rfl
@[simp] theorem State.updCourse_intr (id : Nat) (f : Course → Course) : (s.updCourse id f).intr = s.intr := rfl
@[simp] theorem State.updCourse_admin (id : Nat) (f : Course → Course) : (s.updCourse id f).admin = s.admin := rfl
@[simp] theorem State.updCourse_rings (id : Nat) (f : Course → Course) : (s.updCourse id f).rings = s.rings := rfl
@[simp] theorem State.updCourse_cfg (id : Nat) (f : Course → Course) : (s.updCourse id f).cfg = s.cfg := rfl
@[simp] theorem State.updCourse_jobs (id : Nat) (f : Course → Course) : (s.updCourse id f).jobs = s.jobs := rfl
@[simp] theorem State.updCourse_openings (id : Nat) (f : Course → Course) : (s.updCourse id f).openings = s.openings := rfl
@[simp] theorem State.updCourse_early (id : Nat) (f : Course → Course) : (s.updCourse id f).early = s.early := rfl
@[simp] theorem State.updCourse_panelQ (id : Nat) (f : Course → Course) : (s.updCourse id f).panelQ = s.panelQ := rfl
@[simp] theorem State.updCourse_engineQ (id : Nat) (f : Course → Course) : (s.updCourse id f).engineQ = s.engineQ := rfl
@[simp] theorem State.updCourse_linkQ (id : Nat) (f : Course → Course) : (s.updCourse id f).linkQ = s.linkQ := rfl
@[simp] theorem State.updCourse_hold (id : Nat) (f : Course → Course) : (s.updCourse id f).hold = s.hold := rfl
@[simp] theorem State.updCourse_nextId (id : Nat) (f : Course → Course) : (s.updCourse id f).nextId = s.nextId := rfl
@[simp] theorem State.updCourse_snaps (id : Nat) (f : Course → Course) : (s.updCourse id f).snaps = s.snaps := rfl
@[simp] theorem State.updCourse_mem (id : Nat) (f : Course → Course) : (s.updCourse id f).mem = s.mem := rfl
@[simp] theorem State.updCourse_stash (id : Nat) (f : Course → Course) : (s.updCourse id f).stash = s.stash := rfl
@[simp] theorem State.updCourse_needles (id : Nat) (f : Course → Course) : (s.updCourse id f).needles = s.needles := rfl
@[simp] theorem State.updCourse_panelStores (id : Nat) (f : Course → Course) : (s.updCourse id f).panelStores = s.panelStores := rfl
@[simp] theorem State.updCourse_spareMap (id : Nat) (f : Course → Course) : (s.updCourse id f).spareMap = s.spareMap := rfl
@[simp] theorem State.updCourse_engines (id : Nat) (f : Course → Course) : (s.updCourse id f).engines = s.engines := rfl
@[simp] theorem State.updCourse_swatches (id : Nat) (f : Course → Course) : (s.updCourse id f).swatches = s.swatches := rfl
@[simp] theorem State.updCourse_nextSwatch (id : Nat) (f : Course → Course) : (s.updCourse id f).nextSwatch = s.nextSwatch := rfl
@[simp] theorem State.updCourse_shortSwatches (id : Nat) (f : Course → Course) : (s.updCourse id f).shortSwatches = s.shortSwatches := rfl
@[simp] theorem State.updCourse_selfTests (id : Nat) (f : Course → Course) : (s.updCourse id f).selfTests = s.selfTests := rfl
@[simp] theorem State.updCourse_time (id : Nat) (f : Course → Course) : (s.updCourse id f).time = s.time := rfl
@[simp] theorem State.updCourse_gauge (id : Nat) (f : Course → Course) : (s.updCourse id f).gauge = s.gauge := rfl
@[simp] theorem State.updCourse_links (id : Nat) (f : Course → Course) : (s.updCourse id f).links = s.links := rfl
@[simp] theorem State.updCourse_skein (id : Nat) (f : Course → Course) : (s.updCourse id f).skein = s.skein := rfl
@[simp] theorem State.updCourse_txq (id : Nat) (f : Course → Course) : (s.updCourse id f).txq = s.txq := rfl
@[simp] theorem State.updCourse_credits (id : Nat) (f : Course → Course) : (s.updCourse id f).credits = s.credits := rfl
@[simp] theorem State.updCourse_pw (id : Nat) (f : Course → Course) : (s.updCourse id f).pw = s.pw := rfl
@[simp] theorem State.updCourse_fw (id : Nat) (f : Course → Course) : (s.updCourse id f).fw = s.fw := rfl
@[simp] theorem State.updCourse_cnt (id : Nat) (f : Course → Course) : (s.updCourse id f).cnt = s.cnt := rfl
@[simp] theorem State.updCourse_trace (id : Nat) (f : Course → Course) : (s.updCourse id f).trace = s.trace := rfl
@[simp] theorem State.updCourse_dbg (id : Nat) (f : Course → Course) : (s.updCourse id f).dbg = s.dbg := rfl
@[simp] theorem State.updCourse_cut (id : Nat) (f : Course → Course) : (s.updCourse id f).cut = s.cut := rfl
@[simp] theorem State.updCourse_mgmt (id : Nat) (f : Course → Course) : (s.updCourse id f).mgmt = s.mgmt := rfl
@[simp] theorem State.updCourse_job_q (id : Nat) (f : Course → Course) (x : Word) : (s.updCourse id f).job? x = s.job? x := rfl
@[simp] theorem State.updCourse_ring (id : Nat) (f : Course → Course) (x : Nat) : (s.updCourse id f).ring x = s.ring x := rfl
@[simp] theorem State.updCourse_link (id : Nat) (f : Course → Course) (x : Nat) : (s.updCourse id f).link x = s.link x := rfl
@[simp] theorem State.updCourse_needle (id : Nat) (f : Course → Course) (x : Nat) : (s.updCourse id f).needle x = s.needle x := rfl

/-! ### updRing -/

theorem State.updRing_writes (r : Nat) (f : Ring → Ring) : (s.updRing r f).rings = s.rings.modify r f := rfl
@[simp] theorem State.updRing_pending (r : Nat) (f : Ring → Ring) : (s.updRing r f).pending = s.pending := rfl
@[simp] theorem State.updRing_out (r : Nat) (f : Ring → Ring) : (s.updRing r f).out = s.out := rfl
@[simp] theorem State.updRing_freeCtr (r : Nat) (f : Ring → Ring) : (s.updRing r f).freeCtr = s.freeCtr := rfl
@[simp] theorem State.updRing_stitch (r : Nat) (f : Ring → Ring) : (s.updRing r f).stitch = s.stitch := rfl
@[simp] theorem State.updRing_counting (r : Nat) (f : Ring → Ring) : (s.updRing r f).counting = s.counting := rfl
@[simp] theorem State.updRing_stage (r : Nat) (f : Ring → Ring) : (s.updRing r f).stage = s.stage := rfl
@[simp] theorem State.updRing_dev (r : Nat) (f : Ring → Ring) : (s.updRing r f).dev = s.dev := rfl
@[simp] theorem State.updRing_pcie (r : Nat) (f : Ring → Ring) : (s.updRing r f).pcie = s.pcie := rfl
@[simp] theorem State.updRing_intr (r : Nat) (f : Ring → Ring) : (s.updRing r f).intr = s.intr := rfl
@[simp] theorem State.updRing_admin (r : Nat) (f : Ring → Ring) : (s.updRing r f).admin = s.admin := rfl
@[simp] theorem State.updRing_cfg (r : Nat) (f : Ring → Ring) : (s.updRing r f).cfg = s.cfg := rfl
@[simp] theorem State.updRing_jobs (r : Nat) (f : Ring → Ring) : (s.updRing r f).jobs = s.jobs := rfl
@[simp] theorem State.updRing_openings (r : Nat) (f : Ring → Ring) : (s.updRing r f).openings = s.openings := rfl
@[simp] theorem State.updRing_early (r : Nat) (f : Ring → Ring) : (s.updRing r f).early = s.early := rfl
@[simp] theorem State.updRing_courses (r : Nat) (f : Ring → Ring) : (s.updRing r f).courses = s.courses := rfl
@[simp] theorem State.updRing_panelQ (r : Nat) (f : Ring → Ring) : (s.updRing r f).panelQ = s.panelQ := rfl
@[simp] theorem State.updRing_engineQ (r : Nat) (f : Ring → Ring) : (s.updRing r f).engineQ = s.engineQ := rfl
@[simp] theorem State.updRing_linkQ (r : Nat) (f : Ring → Ring) : (s.updRing r f).linkQ = s.linkQ := rfl
@[simp] theorem State.updRing_hold (r : Nat) (f : Ring → Ring) : (s.updRing r f).hold = s.hold := rfl
@[simp] theorem State.updRing_nextId (r : Nat) (f : Ring → Ring) : (s.updRing r f).nextId = s.nextId := rfl
@[simp] theorem State.updRing_snaps (r : Nat) (f : Ring → Ring) : (s.updRing r f).snaps = s.snaps := rfl
@[simp] theorem State.updRing_mem (r : Nat) (f : Ring → Ring) : (s.updRing r f).mem = s.mem := rfl
@[simp] theorem State.updRing_stash (r : Nat) (f : Ring → Ring) : (s.updRing r f).stash = s.stash := rfl
@[simp] theorem State.updRing_needles (r : Nat) (f : Ring → Ring) : (s.updRing r f).needles = s.needles := rfl
@[simp] theorem State.updRing_panelStores (r : Nat) (f : Ring → Ring) : (s.updRing r f).panelStores = s.panelStores := rfl
@[simp] theorem State.updRing_spareMap (r : Nat) (f : Ring → Ring) : (s.updRing r f).spareMap = s.spareMap := rfl
@[simp] theorem State.updRing_engines (r : Nat) (f : Ring → Ring) : (s.updRing r f).engines = s.engines := rfl
@[simp] theorem State.updRing_swatches (r : Nat) (f : Ring → Ring) : (s.updRing r f).swatches = s.swatches := rfl
@[simp] theorem State.updRing_nextSwatch (r : Nat) (f : Ring → Ring) : (s.updRing r f).nextSwatch = s.nextSwatch := rfl
@[simp] theorem State.updRing_shortSwatches (r : Nat) (f : Ring → Ring) : (s.updRing r f).shortSwatches = s.shortSwatches := rfl
@[simp] theorem State.updRing_selfTests (r : Nat) (f : Ring → Ring) : (s.updRing r f).selfTests = s.selfTests := rfl
@[simp] theorem State.updRing_time (r : Nat) (f : Ring → Ring) : (s.updRing r f).time = s.time := rfl
@[simp] theorem State.updRing_gauge (r : Nat) (f : Ring → Ring) : (s.updRing r f).gauge = s.gauge := rfl
@[simp] theorem State.updRing_links (r : Nat) (f : Ring → Ring) : (s.updRing r f).links = s.links := rfl
@[simp] theorem State.updRing_skein (r : Nat) (f : Ring → Ring) : (s.updRing r f).skein = s.skein := rfl
@[simp] theorem State.updRing_txq (r : Nat) (f : Ring → Ring) : (s.updRing r f).txq = s.txq := rfl
@[simp] theorem State.updRing_credits (r : Nat) (f : Ring → Ring) : (s.updRing r f).credits = s.credits := rfl
@[simp] theorem State.updRing_pw (r : Nat) (f : Ring → Ring) : (s.updRing r f).pw = s.pw := rfl
@[simp] theorem State.updRing_fw (r : Nat) (f : Ring → Ring) : (s.updRing r f).fw = s.fw := rfl
@[simp] theorem State.updRing_cnt (r : Nat) (f : Ring → Ring) : (s.updRing r f).cnt = s.cnt := rfl
@[simp] theorem State.updRing_trace (r : Nat) (f : Ring → Ring) : (s.updRing r f).trace = s.trace := rfl
@[simp] theorem State.updRing_dbg (r : Nat) (f : Ring → Ring) : (s.updRing r f).dbg = s.dbg := rfl
@[simp] theorem State.updRing_cut (r : Nat) (f : Ring → Ring) : (s.updRing r f).cut = s.cut := rfl
@[simp] theorem State.updRing_mgmt (r : Nat) (f : Ring → Ring) : (s.updRing r f).mgmt = s.mgmt := rfl
@[simp] theorem State.updRing_job_q (r : Nat) (f : Ring → Ring) (x : Word) : (s.updRing r f).job? x = s.job? x := rfl
@[simp] theorem State.updRing_course_q (r : Nat) (f : Ring → Ring) (x : Nat) : (s.updRing r f).course? x = s.course? x := rfl
@[simp] theorem State.updRing_link (r : Nat) (f : Ring → Ring) (x : Nat) : (s.updRing r f).link x = s.link x := rfl
@[simp] theorem State.updRing_needle (r : Nat) (f : Ring → Ring) (x : Nat) : (s.updRing r f).needle x = s.needle x := rfl

/-! ### updLink -/

theorem State.updLink_writes (k : Nat) (f : Link → Link) : (s.updLink k f).links = s.links.modify k f := rfl
@[simp] theorem State.updLink_pending (k : Nat) (f : Link → Link) : (s.updLink k f).pending = s.pending := rfl
@[simp] theorem State.updLink_out (k : Nat) (f : Link → Link) : (s.updLink k f).out = s.out := rfl
@[simp] theorem State.updLink_freeCtr (k : Nat) (f : Link → Link) : (s.updLink k f).freeCtr = s.freeCtr := rfl
@[simp] theorem State.updLink_stitch (k : Nat) (f : Link → Link) : (s.updLink k f).stitch = s.stitch := rfl
@[simp] theorem State.updLink_counting (k : Nat) (f : Link → Link) : (s.updLink k f).counting = s.counting := rfl
@[simp] theorem State.updLink_stage (k : Nat) (f : Link → Link) : (s.updLink k f).stage = s.stage := rfl
@[simp] theorem State.updLink_dev (k : Nat) (f : Link → Link) : (s.updLink k f).dev = s.dev := rfl
@[simp] theorem State.updLink_pcie (k : Nat) (f : Link → Link) : (s.updLink k f).pcie = s.pcie := rfl
@[simp] theorem State.updLink_intr (k : Nat) (f : Link → Link) : (s.updLink k f).intr = s.intr := rfl
@[simp] theorem State.updLink_admin (k : Nat) (f : Link → Link) : (s.updLink k f).admin = s.admin := rfl
@[simp] theorem State.updLink_rings (k : Nat) (f : Link → Link) : (s.updLink k f).rings = s.rings := rfl
@[simp] theorem State.updLink_cfg (k : Nat) (f : Link → Link) : (s.updLink k f).cfg = s.cfg := rfl
@[simp] theorem State.updLink_jobs (k : Nat) (f : Link → Link) : (s.updLink k f).jobs = s.jobs := rfl
@[simp] theorem State.updLink_openings (k : Nat) (f : Link → Link) : (s.updLink k f).openings = s.openings := rfl
@[simp] theorem State.updLink_early (k : Nat) (f : Link → Link) : (s.updLink k f).early = s.early := rfl
@[simp] theorem State.updLink_courses (k : Nat) (f : Link → Link) : (s.updLink k f).courses = s.courses := rfl
@[simp] theorem State.updLink_panelQ (k : Nat) (f : Link → Link) : (s.updLink k f).panelQ = s.panelQ := rfl
@[simp] theorem State.updLink_engineQ (k : Nat) (f : Link → Link) : (s.updLink k f).engineQ = s.engineQ := rfl
@[simp] theorem State.updLink_linkQ (k : Nat) (f : Link → Link) : (s.updLink k f).linkQ = s.linkQ := rfl
@[simp] theorem State.updLink_hold (k : Nat) (f : Link → Link) : (s.updLink k f).hold = s.hold := rfl
@[simp] theorem State.updLink_nextId (k : Nat) (f : Link → Link) : (s.updLink k f).nextId = s.nextId := rfl
@[simp] theorem State.updLink_snaps (k : Nat) (f : Link → Link) : (s.updLink k f).snaps = s.snaps := rfl
@[simp] theorem State.updLink_mem (k : Nat) (f : Link → Link) : (s.updLink k f).mem = s.mem := rfl
@[simp] theorem State.updLink_stash (k : Nat) (f : Link → Link) : (s.updLink k f).stash = s.stash := rfl
@[simp] theorem State.updLink_needles (k : Nat) (f : Link → Link) : (s.updLink k f).needles = s.needles := rfl
@[simp] theorem State.updLink_panelStores (k : Nat) (f : Link → Link) : (s.updLink k f).panelStores = s.panelStores := rfl
@[simp] theorem State.updLink_spareMap (k : Nat) (f : Link → Link) : (s.updLink k f).spareMap = s.spareMap := rfl
@[simp] theorem State.updLink_engines (k : Nat) (f : Link → Link) : (s.updLink k f).engines = s.engines := rfl
@[simp] theorem State.updLink_swatches (k : Nat) (f : Link → Link) : (s.updLink k f).swatches = s.swatches := rfl
@[simp] theorem State.updLink_nextSwatch (k : Nat) (f : Link → Link) : (s.updLink k f).nextSwatch = s.nextSwatch := rfl
@[simp] theorem State.updLink_shortSwatches (k : Nat) (f : Link → Link) : (s.updLink k f).shortSwatches = s.shortSwatches := rfl
@[simp] theorem State.updLink_selfTests (k : Nat) (f : Link → Link) : (s.updLink k f).selfTests = s.selfTests := rfl
@[simp] theorem State.updLink_time (k : Nat) (f : Link → Link) : (s.updLink k f).time = s.time := rfl
@[simp] theorem State.updLink_gauge (k : Nat) (f : Link → Link) : (s.updLink k f).gauge = s.gauge := rfl
@[simp] theorem State.updLink_skein (k : Nat) (f : Link → Link) : (s.updLink k f).skein = s.skein := rfl
@[simp] theorem State.updLink_txq (k : Nat) (f : Link → Link) : (s.updLink k f).txq = s.txq := rfl
@[simp] theorem State.updLink_credits (k : Nat) (f : Link → Link) : (s.updLink k f).credits = s.credits := rfl
@[simp] theorem State.updLink_pw (k : Nat) (f : Link → Link) : (s.updLink k f).pw = s.pw := rfl
@[simp] theorem State.updLink_fw (k : Nat) (f : Link → Link) : (s.updLink k f).fw = s.fw := rfl
@[simp] theorem State.updLink_cnt (k : Nat) (f : Link → Link) : (s.updLink k f).cnt = s.cnt := rfl
@[simp] theorem State.updLink_trace (k : Nat) (f : Link → Link) : (s.updLink k f).trace = s.trace := rfl
@[simp] theorem State.updLink_dbg (k : Nat) (f : Link → Link) : (s.updLink k f).dbg = s.dbg := rfl
@[simp] theorem State.updLink_cut (k : Nat) (f : Link → Link) : (s.updLink k f).cut = s.cut := rfl
@[simp] theorem State.updLink_mgmt (k : Nat) (f : Link → Link) : (s.updLink k f).mgmt = s.mgmt := rfl
@[simp] theorem State.updLink_job_q (k : Nat) (f : Link → Link) (x : Word) : (s.updLink k f).job? x = s.job? x := rfl
@[simp] theorem State.updLink_course_q (k : Nat) (f : Link → Link) (x : Nat) : (s.updLink k f).course? x = s.course? x := rfl
@[simp] theorem State.updLink_ring (k : Nat) (f : Link → Link) (x : Nat) : (s.updLink k f).ring x = s.ring x := rfl
@[simp] theorem State.updLink_needle (k : Nat) (f : Link → Link) (x : Nat) : (s.updLink k f).needle x = s.needle x := rfl

/-! ### updNeedle -/

theorem State.updNeedle_writes (n : Nat) (f : Needle → Needle) : (s.updNeedle n f).needles = s.needles.modify n f := rfl
@[simp] theorem State.updNeedle_pending (n : Nat) (f : Needle → Needle) : (s.updNeedle n f).pending = s.pending := rfl
@[simp] theorem State.updNeedle_out (n : Nat) (f : Needle → Needle) : (s.updNeedle n f).out = s.out := rfl
@[simp] theorem State.updNeedle_freeCtr (n : Nat) (f : Needle → Needle) : (s.updNeedle n f).freeCtr = s.freeCtr := rfl
@[simp] theorem State.updNeedle_stitch (n : Nat) (f : Needle → Needle) : (s.updNeedle n f).stitch = s.stitch := rfl
@[simp] theorem State.updNeedle_counting (n : Nat) (f : Needle → Needle) : (s.updNeedle n f).counting = s.counting := rfl
@[simp] theorem State.updNeedle_stage (n : Nat) (f : Needle → Needle) : (s.updNeedle n f).stage = s.stage := rfl
@[simp] theorem State.updNeedle_dev (n : Nat) (f : Needle → Needle) : (s.updNeedle n f).dev = s.dev := rfl
@[simp] theorem State.updNeedle_pcie (n : Nat) (f : Needle → Needle) : (s.updNeedle n f).pcie = s.pcie := rfl
@[simp] theorem State.updNeedle_intr (n : Nat) (f : Needle → Needle) : (s.updNeedle n f).intr = s.intr := rfl
@[simp] theorem State.updNeedle_admin (n : Nat) (f : Needle → Needle) : (s.updNeedle n f).admin = s.admin := rfl
@[simp] theorem State.updNeedle_rings (n : Nat) (f : Needle → Needle) : (s.updNeedle n f).rings = s.rings := rfl
@[simp] theorem State.updNeedle_cfg (n : Nat) (f : Needle → Needle) : (s.updNeedle n f).cfg = s.cfg := rfl
@[simp] theorem State.updNeedle_jobs (n : Nat) (f : Needle → Needle) : (s.updNeedle n f).jobs = s.jobs := rfl
@[simp] theorem State.updNeedle_openings (n : Nat) (f : Needle → Needle) : (s.updNeedle n f).openings = s.openings := rfl
@[simp] theorem State.updNeedle_early (n : Nat) (f : Needle → Needle) : (s.updNeedle n f).early = s.early := rfl
@[simp] theorem State.updNeedle_courses (n : Nat) (f : Needle → Needle) : (s.updNeedle n f).courses = s.courses := rfl
@[simp] theorem State.updNeedle_panelQ (n : Nat) (f : Needle → Needle) : (s.updNeedle n f).panelQ = s.panelQ := rfl
@[simp] theorem State.updNeedle_engineQ (n : Nat) (f : Needle → Needle) : (s.updNeedle n f).engineQ = s.engineQ := rfl
@[simp] theorem State.updNeedle_linkQ (n : Nat) (f : Needle → Needle) : (s.updNeedle n f).linkQ = s.linkQ := rfl
@[simp] theorem State.updNeedle_hold (n : Nat) (f : Needle → Needle) : (s.updNeedle n f).hold = s.hold := rfl
@[simp] theorem State.updNeedle_nextId (n : Nat) (f : Needle → Needle) : (s.updNeedle n f).nextId = s.nextId := rfl
@[simp] theorem State.updNeedle_snaps (n : Nat) (f : Needle → Needle) : (s.updNeedle n f).snaps = s.snaps := rfl
@[simp] theorem State.updNeedle_mem (n : Nat) (f : Needle → Needle) : (s.updNeedle n f).mem = s.mem := rfl
@[simp] theorem State.updNeedle_stash (n : Nat) (f : Needle → Needle) : (s.updNeedle n f).stash = s.stash := rfl
@[simp] theorem State.updNeedle_panelStores (n : Nat) (f : Needle → Needle) : (s.updNeedle n f).panelStores = s.panelStores := rfl
@[simp] theorem State.updNeedle_spareMap (n : Nat) (f : Needle → Needle) : (s.updNeedle n f).spareMap = s.spareMap := rfl
@[simp] theorem State.updNeedle_engines (n : Nat) (f : Needle → Needle) : (s.updNeedle n f).engines = s.engines := rfl
@[simp] theorem State.updNeedle_swatches (n : Nat) (f : Needle → Needle) : (s.updNeedle n f).swatches = s.swatches := rfl
@[simp] theorem State.updNeedle_nextSwatch (n : Nat) (f : Needle → Needle) : (s.updNeedle n f).nextSwatch = s.nextSwatch := rfl
@[simp] theorem State.updNeedle_shortSwatches (n : Nat) (f : Needle → Needle) : (s.updNeedle n f).shortSwatches = s.shortSwatches := rfl
@[simp] theorem State.updNeedle_selfTests (n : Nat) (f : Needle → Needle) : (s.updNeedle n f).selfTests = s.selfTests := rfl
@[simp] theorem State.updNeedle_time (n : Nat) (f : Needle → Needle) : (s.updNeedle n f).time = s.time := rfl
@[simp] theorem State.updNeedle_gauge (n : Nat) (f : Needle → Needle) : (s.updNeedle n f).gauge = s.gauge := rfl
@[simp] theorem State.updNeedle_links (n : Nat) (f : Needle → Needle) : (s.updNeedle n f).links = s.links := rfl
@[simp] theorem State.updNeedle_skein (n : Nat) (f : Needle → Needle) : (s.updNeedle n f).skein = s.skein := rfl
@[simp] theorem State.updNeedle_txq (n : Nat) (f : Needle → Needle) : (s.updNeedle n f).txq = s.txq := rfl
@[simp] theorem State.updNeedle_credits (n : Nat) (f : Needle → Needle) : (s.updNeedle n f).credits = s.credits := rfl
@[simp] theorem State.updNeedle_pw (n : Nat) (f : Needle → Needle) : (s.updNeedle n f).pw = s.pw := rfl
@[simp] theorem State.updNeedle_fw (n : Nat) (f : Needle → Needle) : (s.updNeedle n f).fw = s.fw := rfl
@[simp] theorem State.updNeedle_cnt (n : Nat) (f : Needle → Needle) : (s.updNeedle n f).cnt = s.cnt := rfl
@[simp] theorem State.updNeedle_trace (n : Nat) (f : Needle → Needle) : (s.updNeedle n f).trace = s.trace := rfl
@[simp] theorem State.updNeedle_dbg (n : Nat) (f : Needle → Needle) : (s.updNeedle n f).dbg = s.dbg := rfl
@[simp] theorem State.updNeedle_cut (n : Nat) (f : Needle → Needle) : (s.updNeedle n f).cut = s.cut := rfl
@[simp] theorem State.updNeedle_mgmt (n : Nat) (f : Needle → Needle) : (s.updNeedle n f).mgmt = s.mgmt := rfl
@[simp] theorem State.updNeedle_job_q (n : Nat) (f : Needle → Needle) (x : Word) : (s.updNeedle n f).job? x = s.job? x := rfl
@[simp] theorem State.updNeedle_course_q (n : Nat) (f : Needle → Needle) (x : Nat) : (s.updNeedle n f).course? x = s.course? x := rfl
@[simp] theorem State.updNeedle_ring (n : Nat) (f : Needle → Needle) (x : Nat) : (s.updNeedle n f).ring x = s.ring x := rfl
@[simp] theorem State.updNeedle_link (n : Nat) (f : Needle → Needle) (x : Nat) : (s.updNeedle n f).link x = s.link x := rfl

/-! ### updStack -/

theorem State.updStack_writes (k : Nat) (f : Stack → Stack) : (s.updStack k f).mem = { s.mem with stackTab := s.mem.stackTab.modify k f } := rfl
@[simp] theorem State.updStack_pending (k : Nat) (f : Stack → Stack) : (s.updStack k f).pending = s.pending := rfl
@[simp] theorem State.updStack_out (k : Nat) (f : Stack → Stack) : (s.updStack k f).out = s.out := rfl
@[simp] theorem State.updStack_freeCtr (k : Nat) (f : Stack → Stack) : (s.updStack k f).freeCtr = s.freeCtr := rfl
@[simp] theorem State.updStack_stitch (k : Nat) (f : Stack → Stack) : (s.updStack k f).stitch = s.stitch := rfl
@[simp] theorem State.updStack_counting (k : Nat) (f : Stack → Stack) : (s.updStack k f).counting = s.counting := rfl
@[simp] theorem State.updStack_stage (k : Nat) (f : Stack → Stack) : (s.updStack k f).stage = s.stage := rfl
@[simp] theorem State.updStack_dev (k : Nat) (f : Stack → Stack) : (s.updStack k f).dev = s.dev := rfl
@[simp] theorem State.updStack_pcie (k : Nat) (f : Stack → Stack) : (s.updStack k f).pcie = s.pcie := rfl
@[simp] theorem State.updStack_intr (k : Nat) (f : Stack → Stack) : (s.updStack k f).intr = s.intr := rfl
@[simp] theorem State.updStack_admin (k : Nat) (f : Stack → Stack) : (s.updStack k f).admin = s.admin := rfl
@[simp] theorem State.updStack_rings (k : Nat) (f : Stack → Stack) : (s.updStack k f).rings = s.rings := rfl
@[simp] theorem State.updStack_cfg (k : Nat) (f : Stack → Stack) : (s.updStack k f).cfg = s.cfg := rfl
@[simp] theorem State.updStack_jobs (k : Nat) (f : Stack → Stack) : (s.updStack k f).jobs = s.jobs := rfl
@[simp] theorem State.updStack_openings (k : Nat) (f : Stack → Stack) : (s.updStack k f).openings = s.openings := rfl
@[simp] theorem State.updStack_early (k : Nat) (f : Stack → Stack) : (s.updStack k f).early = s.early := rfl
@[simp] theorem State.updStack_courses (k : Nat) (f : Stack → Stack) : (s.updStack k f).courses = s.courses := rfl
@[simp] theorem State.updStack_panelQ (k : Nat) (f : Stack → Stack) : (s.updStack k f).panelQ = s.panelQ := rfl
@[simp] theorem State.updStack_engineQ (k : Nat) (f : Stack → Stack) : (s.updStack k f).engineQ = s.engineQ := rfl
@[simp] theorem State.updStack_linkQ (k : Nat) (f : Stack → Stack) : (s.updStack k f).linkQ = s.linkQ := rfl
@[simp] theorem State.updStack_hold (k : Nat) (f : Stack → Stack) : (s.updStack k f).hold = s.hold := rfl
@[simp] theorem State.updStack_nextId (k : Nat) (f : Stack → Stack) : (s.updStack k f).nextId = s.nextId := rfl
@[simp] theorem State.updStack_snaps (k : Nat) (f : Stack → Stack) : (s.updStack k f).snaps = s.snaps := rfl
@[simp] theorem State.updStack_stash (k : Nat) (f : Stack → Stack) : (s.updStack k f).stash = s.stash := rfl
@[simp] theorem State.updStack_needles (k : Nat) (f : Stack → Stack) : (s.updStack k f).needles = s.needles := rfl
@[simp] theorem State.updStack_panelStores (k : Nat) (f : Stack → Stack) : (s.updStack k f).panelStores = s.panelStores := rfl
@[simp] theorem State.updStack_spareMap (k : Nat) (f : Stack → Stack) : (s.updStack k f).spareMap = s.spareMap := rfl
@[simp] theorem State.updStack_engines (k : Nat) (f : Stack → Stack) : (s.updStack k f).engines = s.engines := rfl
@[simp] theorem State.updStack_swatches (k : Nat) (f : Stack → Stack) : (s.updStack k f).swatches = s.swatches := rfl
@[simp] theorem State.updStack_nextSwatch (k : Nat) (f : Stack → Stack) : (s.updStack k f).nextSwatch = s.nextSwatch := rfl
@[simp] theorem State.updStack_shortSwatches (k : Nat) (f : Stack → Stack) : (s.updStack k f).shortSwatches = s.shortSwatches := rfl
@[simp] theorem State.updStack_selfTests (k : Nat) (f : Stack → Stack) : (s.updStack k f).selfTests = s.selfTests := rfl
@[simp] theorem State.updStack_time (k : Nat) (f : Stack → Stack) : (s.updStack k f).time = s.time := rfl
@[simp] theorem State.updStack_gauge (k : Nat) (f : Stack → Stack) : (s.updStack k f).gauge = s.gauge := rfl
@[simp] theorem State.updStack_links (k : Nat) (f : Stack → Stack) : (s.updStack k f).links = s.links := rfl
@[simp] theorem State.updStack_skein (k : Nat) (f : Stack → Stack) : (s.updStack k f).skein = s.skein := rfl
@[simp] theorem State.updStack_txq (k : Nat) (f : Stack → Stack) : (s.updStack k f).txq = s.txq := rfl
@[simp] theorem State.updStack_credits (k : Nat) (f : Stack → Stack) : (s.updStack k f).credits = s.credits := rfl
@[simp] theorem State.updStack_pw (k : Nat) (f : Stack → Stack) : (s.updStack k f).pw = s.pw := rfl
@[simp] theorem State.updStack_fw (k : Nat) (f : Stack → Stack) : (s.updStack k f).fw = s.fw := rfl
@[simp] theorem State.updStack_cnt (k : Nat) (f : Stack → Stack) : (s.updStack k f).cnt = s.cnt := rfl
@[simp] theorem State.updStack_trace (k : Nat) (f : Stack → Stack) : (s.updStack k f).trace = s.trace := rfl
@[simp] theorem State.updStack_dbg (k : Nat) (f : Stack → Stack) : (s.updStack k f).dbg = s.dbg := rfl
@[simp] theorem State.updStack_cut (k : Nat) (f : Stack → Stack) : (s.updStack k f).cut = s.cut := rfl
@[simp] theorem State.updStack_mgmt (k : Nat) (f : Stack → Stack) : (s.updStack k f).mgmt = s.mgmt := rfl
@[simp] theorem State.updStack_job_q (k : Nat) (f : Stack → Stack) (x : Word) : (s.updStack k f).job? x = s.job? x := rfl
@[simp] theorem State.updStack_course_q (k : Nat) (f : Stack → Stack) (x : Nat) : (s.updStack k f).course? x = s.course? x := rfl
@[simp] theorem State.updStack_ring (k : Nat) (f : Stack → Stack) (x : Nat) : (s.updStack k f).ring x = s.ring x := rfl
@[simp] theorem State.updStack_link (k : Nat) (f : Stack → Stack) (x : Nat) : (s.updStack k f).link x = s.link x := rfl
@[simp] theorem State.updStack_needle (k : Nat) (f : Stack → Stack) (x : Nat) : (s.updStack k f).needle x = s.needle x := rfl

/-! ### updSwatch -/

theorem State.updSwatch_writes (id : Nat) (f : Swatch → Swatch) :
    (s.updSwatch id f).swatches = s.swatches.map (fun w => if w.id = id then f w else w) := rfl
@[simp] theorem State.updSwatch_pending (id : Nat) (f : Swatch → Swatch) : (s.updSwatch id f).pending = s.pending := rfl
@[simp] theorem State.updSwatch_out (id : Nat) (f : Swatch → Swatch) : (s.updSwatch id f).out = s.out := rfl
@[simp] theorem State.updSwatch_freeCtr (id : Nat) (f : Swatch → Swatch) : (s.updSwatch id f).freeCtr = s.freeCtr := rfl
@[simp] theorem State.updSwatch_stitch (id : Nat) (f : Swatch → Swatch) : (s.updSwatch id f).stitch = s.stitch := rfl
@[simp] theorem State.updSwatch_counting (id : Nat) (f : Swatch → Swatch) : (s.updSwatch id f).counting = s.counting := rfl
@[simp] theorem State.updSwatch_stage (id : Nat) (f : Swatch → Swatch) : (s.updSwatch id f).stage = s.stage := rfl
@[simp] theorem State.updSwatch_dev (id : Nat) (f : Swatch → Swatch) : (s.updSwatch id f).dev = s.dev := rfl
@[simp] theorem State.updSwatch_pcie (id : Nat) (f : Swatch → Swatch) : (s.updSwatch id f).pcie = s.pcie := rfl
@[simp] theorem State.updSwatch_intr (id : Nat) (f : Swatch → Swatch) : (s.updSwatch id f).intr = s.intr := rfl
@[simp] theorem State.updSwatch_admin (id : Nat) (f : Swatch → Swatch) : (s.updSwatch id f).admin = s.admin := rfl
@[simp] theorem State.updSwatch_rings (id : Nat) (f : Swatch → Swatch) : (s.updSwatch id f).rings = s.rings := rfl
@[simp] theorem State.updSwatch_cfg (id : Nat) (f : Swatch → Swatch) : (s.updSwatch id f).cfg = s.cfg := rfl
@[simp] theorem State.updSwatch_jobs (id : Nat) (f : Swatch → Swatch) : (s.updSwatch id f).jobs = s.jobs := rfl
@[simp] theorem State.updSwatch_openings (id : Nat) (f : Swatch → Swatch) : (s.updSwatch id f).openings = s.openings := rfl
@[simp] theorem State.updSwatch_early (id : Nat) (f : Swatch → Swatch) : (s.updSwatch id f).early = s.early := rfl
@[simp] theorem State.updSwatch_courses (id : Nat) (f : Swatch → Swatch) : (s.updSwatch id f).courses = s.courses := rfl
@[simp] theorem State.updSwatch_panelQ (id : Nat) (f : Swatch → Swatch) : (s.updSwatch id f).panelQ = s.panelQ := rfl
@[simp] theorem State.updSwatch_engineQ (id : Nat) (f : Swatch → Swatch) : (s.updSwatch id f).engineQ = s.engineQ := rfl
@[simp] theorem State.updSwatch_linkQ (id : Nat) (f : Swatch → Swatch) : (s.updSwatch id f).linkQ = s.linkQ := rfl
@[simp] theorem State.updSwatch_hold (id : Nat) (f : Swatch → Swatch) : (s.updSwatch id f).hold = s.hold := rfl
@[simp] theorem State.updSwatch_nextId (id : Nat) (f : Swatch → Swatch) : (s.updSwatch id f).nextId = s.nextId := rfl
@[simp] theorem State.updSwatch_snaps (id : Nat) (f : Swatch → Swatch) : (s.updSwatch id f).snaps = s.snaps := rfl
@[simp] theorem State.updSwatch_mem (id : Nat) (f : Swatch → Swatch) : (s.updSwatch id f).mem = s.mem := rfl
@[simp] theorem State.updSwatch_stash (id : Nat) (f : Swatch → Swatch) : (s.updSwatch id f).stash = s.stash := rfl
@[simp] theorem State.updSwatch_needles (id : Nat) (f : Swatch → Swatch) : (s.updSwatch id f).needles = s.needles := rfl
@[simp] theorem State.updSwatch_panelStores (id : Nat) (f : Swatch → Swatch) : (s.updSwatch id f).panelStores = s.panelStores := rfl
@[simp] theorem State.updSwatch_spareMap (id : Nat) (f : Swatch → Swatch) : (s.updSwatch id f).spareMap = s.spareMap := rfl
@[simp] theorem State.updSwatch_engines (id : Nat) (f : Swatch → Swatch) : (s.updSwatch id f).engines = s.engines := rfl
@[simp] theorem State.updSwatch_nextSwatch (id : Nat) (f : Swatch → Swatch) : (s.updSwatch id f).nextSwatch = s.nextSwatch := rfl
@[simp] theorem State.updSwatch_shortSwatches (id : Nat) (f : Swatch → Swatch) : (s.updSwatch id f).shortSwatches = s.shortSwatches := rfl
@[simp] theorem State.updSwatch_selfTests (id : Nat) (f : Swatch → Swatch) : (s.updSwatch id f).selfTests = s.selfTests := rfl
@[simp] theorem State.updSwatch_time (id : Nat) (f : Swatch → Swatch) : (s.updSwatch id f).time = s.time := rfl
@[simp] theorem State.updSwatch_gauge (id : Nat) (f : Swatch → Swatch) : (s.updSwatch id f).gauge = s.gauge := rfl
@[simp] theorem State.updSwatch_links (id : Nat) (f : Swatch → Swatch) : (s.updSwatch id f).links = s.links := rfl
@[simp] theorem State.updSwatch_skein (id : Nat) (f : Swatch → Swatch) : (s.updSwatch id f).skein = s.skein := rfl
@[simp] theorem State.updSwatch_txq (id : Nat) (f : Swatch → Swatch) : (s.updSwatch id f).txq = s.txq := rfl
@[simp] theorem State.updSwatch_credits (id : Nat) (f : Swatch → Swatch) : (s.updSwatch id f).credits = s.credits := rfl
@[simp] theorem State.updSwatch_pw (id : Nat) (f : Swatch → Swatch) : (s.updSwatch id f).pw = s.pw := rfl
@[simp] theorem State.updSwatch_fw (id : Nat) (f : Swatch → Swatch) : (s.updSwatch id f).fw = s.fw := rfl
@[simp] theorem State.updSwatch_cnt (id : Nat) (f : Swatch → Swatch) : (s.updSwatch id f).cnt = s.cnt := rfl
@[simp] theorem State.updSwatch_trace (id : Nat) (f : Swatch → Swatch) : (s.updSwatch id f).trace = s.trace := rfl
@[simp] theorem State.updSwatch_dbg (id : Nat) (f : Swatch → Swatch) : (s.updSwatch id f).dbg = s.dbg := rfl
@[simp] theorem State.updSwatch_cut (id : Nat) (f : Swatch → Swatch) : (s.updSwatch id f).cut = s.cut := rfl
@[simp] theorem State.updSwatch_mgmt (id : Nat) (f : Swatch → Swatch) : (s.updSwatch id f).mgmt = s.mgmt := rfl
@[simp] theorem State.updSwatch_job_q (id : Nat) (f : Swatch → Swatch) (x : Word) : (s.updSwatch id f).job? x = s.job? x := rfl
@[simp] theorem State.updSwatch_course_q (id : Nat) (f : Swatch → Swatch) (x : Nat) : (s.updSwatch id f).course? x = s.course? x := rfl
@[simp] theorem State.updSwatch_ring (id : Nat) (f : Swatch → Swatch) (x : Nat) : (s.updSwatch id f).ring x = s.ring x := rfl
@[simp] theorem State.updSwatch_link (id : Nat) (f : Swatch → Swatch) (x : Nat) : (s.updSwatch id f).link x = s.link x := rfl
@[simp] theorem State.updSwatch_needle (id : Nat) (f : Swatch → Swatch) (x : Nat) : (s.updSwatch id f).needle x = s.needle x := rfl

/-! ### count -/

theorem State.count_writes (i n : Nat) : (s.count i n).cnt = { s.cnt with events := s.cnt.events.modify i (fun v => satAdd 64 v n) } := rfl
@[simp] theorem State.count_pending (i n : Nat) : (s.count i n).pending = s.pending := rfl
@[simp] theorem State.count_out (i n : Nat) : (s.count i n).out = s.out := rfl
@[simp] theorem State.count_freeCtr (i n : Nat) : (s.count i n).freeCtr = s.freeCtr := rfl
@[simp] theorem State.count_stitch (i n : Nat) : (s.count i n).stitch = s.stitch := rfl
@[simp] theorem State.count_counting (i n : Nat) : (s.count i n).counting = s.counting := rfl
@[simp] theorem State.count_stage (i n : Nat) : (s.count i n).stage = s.stage := rfl
@[simp] theorem State.count_dev (i n : Nat) : (s.count i n).dev = s.dev := rfl
@[simp] theorem State.count_pcie (i n : Nat) : (s.count i n).pcie = s.pcie := rfl
@[simp] theorem State.count_intr (i n : Nat) : (s.count i n).intr = s.intr := rfl
@[simp] theorem State.count_admin (i n : Nat) : (s.count i n).admin = s.admin := rfl
@[simp] theorem State.count_rings (i n : Nat) : (s.count i n).rings = s.rings := rfl
@[simp] theorem State.count_cfg (i n : Nat) : (s.count i n).cfg = s.cfg := rfl
@[simp] theorem State.count_jobs (i n : Nat) : (s.count i n).jobs = s.jobs := rfl
@[simp] theorem State.count_openings (i n : Nat) : (s.count i n).openings = s.openings := rfl
@[simp] theorem State.count_early (i n : Nat) : (s.count i n).early = s.early := rfl
@[simp] theorem State.count_courses (i n : Nat) : (s.count i n).courses = s.courses := rfl
@[simp] theorem State.count_panelQ (i n : Nat) : (s.count i n).panelQ = s.panelQ := rfl
@[simp] theorem State.count_engineQ (i n : Nat) : (s.count i n).engineQ = s.engineQ := rfl
@[simp] theorem State.count_linkQ (i n : Nat) : (s.count i n).linkQ = s.linkQ := rfl
@[simp] theorem State.count_hold (i n : Nat) : (s.count i n).hold = s.hold := rfl
@[simp] theorem State.count_nextId (i n : Nat) : (s.count i n).nextId = s.nextId := rfl
@[simp] theorem State.count_snaps (i n : Nat) : (s.count i n).snaps = s.snaps := rfl
@[simp] theorem State.count_mem (i n : Nat) : (s.count i n).mem = s.mem := rfl
@[simp] theorem State.count_stash (i n : Nat) : (s.count i n).stash = s.stash := rfl
@[simp] theorem State.count_needles (i n : Nat) : (s.count i n).needles = s.needles := rfl
@[simp] theorem State.count_panelStores (i n : Nat) : (s.count i n).panelStores = s.panelStores := rfl
@[simp] theorem State.count_spareMap (i n : Nat) : (s.count i n).spareMap = s.spareMap := rfl
@[simp] theorem State.count_engines (i n : Nat) : (s.count i n).engines = s.engines := rfl
@[simp] theorem State.count_swatches (i n : Nat) : (s.count i n).swatches = s.swatches := rfl
@[simp] theorem State.count_nextSwatch (i n : Nat) : (s.count i n).nextSwatch = s.nextSwatch := rfl
@[simp] theorem State.count_shortSwatches (i n : Nat) : (s.count i n).shortSwatches = s.shortSwatches := rfl
@[simp] theorem State.count_selfTests (i n : Nat) : (s.count i n).selfTests = s.selfTests := rfl
@[simp] theorem State.count_time (i n : Nat) : (s.count i n).time = s.time := rfl
@[simp] theorem State.count_gauge (i n : Nat) : (s.count i n).gauge = s.gauge := rfl
@[simp] theorem State.count_links (i n : Nat) : (s.count i n).links = s.links := rfl
@[simp] theorem State.count_skein (i n : Nat) : (s.count i n).skein = s.skein := rfl
@[simp] theorem State.count_txq (i n : Nat) : (s.count i n).txq = s.txq := rfl
@[simp] theorem State.count_credits (i n : Nat) : (s.count i n).credits = s.credits := rfl
@[simp] theorem State.count_pw (i n : Nat) : (s.count i n).pw = s.pw := rfl
@[simp] theorem State.count_fw (i n : Nat) : (s.count i n).fw = s.fw := rfl
@[simp] theorem State.count_trace (i n : Nat) : (s.count i n).trace = s.trace := rfl
@[simp] theorem State.count_dbg (i n : Nat) : (s.count i n).dbg = s.dbg := rfl
@[simp] theorem State.count_cut (i n : Nat) : (s.count i n).cut = s.cut := rfl
@[simp] theorem State.count_mgmt (i n : Nat) : (s.count i n).mgmt = s.mgmt := rfl
@[simp] theorem State.count_job_q (i n : Nat) (x : Word) : (s.count i n).job? x = s.job? x := rfl
@[simp] theorem State.count_course_q (i n : Nat) (x : Nat) : (s.count i n).course? x = s.course? x := rfl
@[simp] theorem State.count_ring (i n : Nat) (x : Nat) : (s.count i n).ring x = s.ring x := rfl
@[simp] theorem State.count_link (i n : Nat) (x : Nat) : (s.count i n).link x = s.link x := rfl
@[simp] theorem State.count_needle (i n : Nat) (x : Nat) : (s.count i n).needle x = s.needle x := rfl

/-! ### countUnit -/

theorem State.countUnit_writes (u i n : Nat) :
    (s.countUnit u i n).cnt = { s.cnt with units := s.cnt.units.modify u (fun row => row.modify i (fun v => satAdd 64 v n)) } := rfl
@[simp] theorem State.countUnit_pending (u i n : Nat) : (s.countUnit u i n).pending = s.pending := rfl
@[simp] theorem State.countUnit_out (u i n : Nat) : (s.countUnit u i n).out = s.out := rfl
@[simp] theorem State.countUnit_freeCtr (u i n : Nat) : (s.countUnit u i n).freeCtr = s.freeCtr := rfl
@[simp] theorem State.countUnit_stitch (u i n : Nat) : (s.countUnit u i n).stitch = s.stitch := rfl
@[simp] theorem State.countUnit_counting (u i n : Nat) : (s.countUnit u i n).counting = s.counting := rfl
@[simp] theorem State.countUnit_stage (u i n : Nat) : (s.countUnit u i n).stage = s.stage := rfl
@[simp] theorem State.countUnit_dev (u i n : Nat) : (s.countUnit u i n).dev = s.dev := rfl
@[simp] theorem State.countUnit_pcie (u i n : Nat) : (s.countUnit u i n).pcie = s.pcie := rfl
@[simp] theorem State.countUnit_intr (u i n : Nat) : (s.countUnit u i n).intr = s.intr := rfl
@[simp] theorem State.countUnit_admin (u i n : Nat) : (s.countUnit u i n).admin = s.admin := rfl
@[simp] theorem State.countUnit_rings (u i n : Nat) : (s.countUnit u i n).rings = s.rings := rfl
@[simp] theorem State.countUnit_cfg (u i n : Nat) : (s.countUnit u i n).cfg = s.cfg := rfl
@[simp] theorem State.countUnit_jobs (u i n : Nat) : (s.countUnit u i n).jobs = s.jobs := rfl
@[simp] theorem State.countUnit_openings (u i n : Nat) : (s.countUnit u i n).openings = s.openings := rfl
@[simp] theorem State.countUnit_early (u i n : Nat) : (s.countUnit u i n).early = s.early := rfl
@[simp] theorem State.countUnit_courses (u i n : Nat) : (s.countUnit u i n).courses = s.courses := rfl
@[simp] theorem State.countUnit_panelQ (u i n : Nat) : (s.countUnit u i n).panelQ = s.panelQ := rfl
@[simp] theorem State.countUnit_engineQ (u i n : Nat) : (s.countUnit u i n).engineQ = s.engineQ := rfl
@[simp] theorem State.countUnit_linkQ (u i n : Nat) : (s.countUnit u i n).linkQ = s.linkQ := rfl
@[simp] theorem State.countUnit_hold (u i n : Nat) : (s.countUnit u i n).hold = s.hold := rfl
@[simp] theorem State.countUnit_nextId (u i n : Nat) : (s.countUnit u i n).nextId = s.nextId := rfl
@[simp] theorem State.countUnit_snaps (u i n : Nat) : (s.countUnit u i n).snaps = s.snaps := rfl
@[simp] theorem State.countUnit_mem (u i n : Nat) : (s.countUnit u i n).mem = s.mem := rfl
@[simp] theorem State.countUnit_stash (u i n : Nat) : (s.countUnit u i n).stash = s.stash := rfl
@[simp] theorem State.countUnit_needles (u i n : Nat) : (s.countUnit u i n).needles = s.needles := rfl
@[simp] theorem State.countUnit_panelStores (u i n : Nat) : (s.countUnit u i n).panelStores = s.panelStores := rfl
@[simp] theorem State.countUnit_spareMap (u i n : Nat) : (s.countUnit u i n).spareMap = s.spareMap := rfl
@[simp] theorem State.countUnit_engines (u i n : Nat) : (s.countUnit u i n).engines = s.engines := rfl
@[simp] theorem State.countUnit_swatches (u i n : Nat) : (s.countUnit u i n).swatches = s.swatches := rfl
@[simp] theorem State.countUnit_nextSwatch (u i n : Nat) : (s.countUnit u i n).nextSwatch = s.nextSwatch := rfl
@[simp] theorem State.countUnit_shortSwatches (u i n : Nat) : (s.countUnit u i n).shortSwatches = s.shortSwatches := rfl
@[simp] theorem State.countUnit_selfTests (u i n : Nat) : (s.countUnit u i n).selfTests = s.selfTests := rfl
@[simp] theorem State.countUnit_time (u i n : Nat) : (s.countUnit u i n).time = s.time := rfl
@[simp] theorem State.countUnit_gauge (u i n : Nat) : (s.countUnit u i n).gauge = s.gauge := rfl
@[simp] theorem State.countUnit_links (u i n : Nat) : (s.countUnit u i n).links = s.links := rfl
@[simp] theorem State.countUnit_skein (u i n : Nat) : (s.countUnit u i n).skein = s.skein := rfl
@[simp] theorem State.countUnit_txq (u i n : Nat) : (s.countUnit u i n).txq = s.txq := rfl
@[simp] theorem State.countUnit_credits (u i n : Nat) : (s.countUnit u i n).credits = s.credits := rfl
@[simp] theorem State.countUnit_pw (u i n : Nat) : (s.countUnit u i n).pw = s.pw := rfl
@[simp] theorem State.countUnit_fw (u i n : Nat) : (s.countUnit u i n).fw = s.fw := rfl
@[simp] theorem State.countUnit_trace (u i n : Nat) : (s.countUnit u i n).trace = s.trace := rfl
@[simp] theorem State.countUnit_dbg (u i n : Nat) : (s.countUnit u i n).dbg = s.dbg := rfl
@[simp] theorem State.countUnit_cut (u i n : Nat) : (s.countUnit u i n).cut = s.cut := rfl
@[simp] theorem State.countUnit_mgmt (u i n : Nat) : (s.countUnit u i n).mgmt = s.mgmt := rfl
@[simp] theorem State.countUnit_job_q (u i n : Nat) (x : Word) : (s.countUnit u i n).job? x = s.job? x := rfl
@[simp] theorem State.countUnit_course_q (u i n : Nat) (x : Nat) : (s.countUnit u i n).course? x = s.course? x := rfl
@[simp] theorem State.countUnit_ring (u i n : Nat) (x : Nat) : (s.countUnit u i n).ring x = s.ring x := rfl
@[simp] theorem State.countUnit_link (u i n : Nat) (x : Nat) : (s.countUnit u i n).link x = s.link x := rfl
@[simp] theorem State.countUnit_needle (u i n : Nat) (x : Nat) : (s.countUnit u i n).needle x = s.needle x := rfl

/-! ### countJob -/

theorem State.countJob_writes (id : Word) (i n : Nat) :
    s.countJob id i n = s.updJob id (fun j => { j with counters := j.counters.modify i (fun v => satAdd 64 v n) }) := rfl
@[simp] theorem State.countJob_pending (id : Word) (i n : Nat) : (s.countJob id i n).pending = s.pending := rfl
@[simp] theorem State.countJob_out (id : Word) (i n : Nat) : (s.countJob id i n).out = s.out := rfl
@[simp] theorem State.countJob_freeCtr (id : Word) (i n : Nat) : (s.countJob id i n).freeCtr = s.freeCtr := rfl
@[simp] theorem State.countJob_stitch (id : Word) (i n : Nat) : (s.countJob id i n).stitch = s.stitch := rfl
@[simp] theorem State.countJob_counting (id : Word) (i n : Nat) : (s.countJob id i n).counting = s.counting := rfl
@[simp] theorem State.countJob_stage (id : Word) (i n : Nat) : (s.countJob id i n).stage = s.stage := rfl
@[simp] theorem State.countJob_dev (id : Word) (i n : Nat) : (s.countJob id i n).dev = s.dev := rfl
@[simp] theorem State.countJob_pcie (id : Word) (i n : Nat) : (s.countJob id i n).pcie = s.pcie := rfl
@[simp] theorem State.countJob_intr (id : Word) (i n : Nat) : (s.countJob id i n).intr = s.intr := rfl
@[simp] theorem State.countJob_admin (id : Word) (i n : Nat) : (s.countJob id i n).admin = s.admin := rfl
@[simp] theorem State.countJob_rings (id : Word) (i n : Nat) : (s.countJob id i n).rings = s.rings := rfl
@[simp] theorem State.countJob_cfg (id : Word) (i n : Nat) : (s.countJob id i n).cfg = s.cfg := rfl
@[simp] theorem State.countJob_openings (id : Word) (i n : Nat) : (s.countJob id i n).openings = s.openings := rfl
@[simp] theorem State.countJob_early (id : Word) (i n : Nat) : (s.countJob id i n).early = s.early := rfl
@[simp] theorem State.countJob_courses (id : Word) (i n : Nat) : (s.countJob id i n).courses = s.courses := rfl
@[simp] theorem State.countJob_panelQ (id : Word) (i n : Nat) : (s.countJob id i n).panelQ = s.panelQ := rfl
@[simp] theorem State.countJob_engineQ (id : Word) (i n : Nat) : (s.countJob id i n).engineQ = s.engineQ := rfl
@[simp] theorem State.countJob_linkQ (id : Word) (i n : Nat) : (s.countJob id i n).linkQ = s.linkQ := rfl
@[simp] theorem State.countJob_hold (id : Word) (i n : Nat) : (s.countJob id i n).hold = s.hold := rfl
@[simp] theorem State.countJob_nextId (id : Word) (i n : Nat) : (s.countJob id i n).nextId = s.nextId := rfl
@[simp] theorem State.countJob_snaps (id : Word) (i n : Nat) : (s.countJob id i n).snaps = s.snaps := rfl
@[simp] theorem State.countJob_mem (id : Word) (i n : Nat) : (s.countJob id i n).mem = s.mem := rfl
@[simp] theorem State.countJob_stash (id : Word) (i n : Nat) : (s.countJob id i n).stash = s.stash := rfl
@[simp] theorem State.countJob_needles (id : Word) (i n : Nat) : (s.countJob id i n).needles = s.needles := rfl
@[simp] theorem State.countJob_panelStores (id : Word) (i n : Nat) : (s.countJob id i n).panelStores = s.panelStores := rfl
@[simp] theorem State.countJob_spareMap (id : Word) (i n : Nat) : (s.countJob id i n).spareMap = s.spareMap := rfl
@[simp] theorem State.countJob_engines (id : Word) (i n : Nat) : (s.countJob id i n).engines = s.engines := rfl
@[simp] theorem State.countJob_swatches (id : Word) (i n : Nat) : (s.countJob id i n).swatches = s.swatches := rfl
@[simp] theorem State.countJob_nextSwatch (id : Word) (i n : Nat) : (s.countJob id i n).nextSwatch = s.nextSwatch := rfl
@[simp] theorem State.countJob_shortSwatches (id : Word) (i n : Nat) : (s.countJob id i n).shortSwatches = s.shortSwatches := rfl
@[simp] theorem State.countJob_selfTests (id : Word) (i n : Nat) : (s.countJob id i n).selfTests = s.selfTests := rfl
@[simp] theorem State.countJob_time (id : Word) (i n : Nat) : (s.countJob id i n).time = s.time := rfl
@[simp] theorem State.countJob_gauge (id : Word) (i n : Nat) : (s.countJob id i n).gauge = s.gauge := rfl
@[simp] theorem State.countJob_links (id : Word) (i n : Nat) : (s.countJob id i n).links = s.links := rfl
@[simp] theorem State.countJob_skein (id : Word) (i n : Nat) : (s.countJob id i n).skein = s.skein := rfl
@[simp] theorem State.countJob_txq (id : Word) (i n : Nat) : (s.countJob id i n).txq = s.txq := rfl
@[simp] theorem State.countJob_credits (id : Word) (i n : Nat) : (s.countJob id i n).credits = s.credits := rfl
@[simp] theorem State.countJob_pw (id : Word) (i n : Nat) : (s.countJob id i n).pw = s.pw := rfl
@[simp] theorem State.countJob_fw (id : Word) (i n : Nat) : (s.countJob id i n).fw = s.fw := rfl
@[simp] theorem State.countJob_cnt (id : Word) (i n : Nat) : (s.countJob id i n).cnt = s.cnt := rfl
@[simp] theorem State.countJob_trace (id : Word) (i n : Nat) : (s.countJob id i n).trace = s.trace := rfl
@[simp] theorem State.countJob_dbg (id : Word) (i n : Nat) : (s.countJob id i n).dbg = s.dbg := rfl
@[simp] theorem State.countJob_cut (id : Word) (i n : Nat) : (s.countJob id i n).cut = s.cut := rfl
@[simp] theorem State.countJob_mgmt (id : Word) (i n : Nat) : (s.countJob id i n).mgmt = s.mgmt := rfl
@[simp] theorem State.countJob_course_q (id : Word) (i n : Nat) (x : Nat) : (s.countJob id i n).course? x = s.course? x := rfl
@[simp] theorem State.countJob_ring (id : Word) (i n : Nat) (x : Nat) : (s.countJob id i n).ring x = s.ring x := rfl
@[simp] theorem State.countJob_link (id : Word) (i n : Nat) (x : Nat) : (s.countJob id i n).link x = s.link x := rfl
@[simp] theorem State.countJob_needle (id : Word) (i n : Nat) (x : Nat) : (s.countJob id i n).needle x = s.needle x := rfl

/-! ### setQueue -/

@[simp] theorem State.setQueue_pending (u : LUnit) (q : List Nat) : (s.setQueue u q).pending = s.pending := by cases u <;> rfl
@[simp] theorem State.setQueue_out (u : LUnit) (q : List Nat) : (s.setQueue u q).out = s.out := by cases u <;> rfl
@[simp] theorem State.setQueue_freeCtr (u : LUnit) (q : List Nat) : (s.setQueue u q).freeCtr = s.freeCtr := by cases u <;> rfl
@[simp] theorem State.setQueue_stitch (u : LUnit) (q : List Nat) : (s.setQueue u q).stitch = s.stitch := by cases u <;> rfl
@[simp] theorem State.setQueue_counting (u : LUnit) (q : List Nat) : (s.setQueue u q).counting = s.counting := by cases u <;> rfl
@[simp] theorem State.setQueue_stage (u : LUnit) (q : List Nat) : (s.setQueue u q).stage = s.stage := by cases u <;> rfl
@[simp] theorem State.setQueue_dev (u : LUnit) (q : List Nat) : (s.setQueue u q).dev = s.dev := by cases u <;> rfl
@[simp] theorem State.setQueue_pcie (u : LUnit) (q : List Nat) : (s.setQueue u q).pcie = s.pcie := by cases u <;> rfl
@[simp] theorem State.setQueue_intr (u : LUnit) (q : List Nat) : (s.setQueue u q).intr = s.intr := by cases u <;> rfl
@[simp] theorem State.setQueue_admin (u : LUnit) (q : List Nat) : (s.setQueue u q).admin = s.admin := by cases u <;> rfl
@[simp] theorem State.setQueue_rings (u : LUnit) (q : List Nat) : (s.setQueue u q).rings = s.rings := by cases u <;> rfl
@[simp] theorem State.setQueue_cfg (u : LUnit) (q : List Nat) : (s.setQueue u q).cfg = s.cfg := by cases u <;> rfl
@[simp] theorem State.setQueue_jobs (u : LUnit) (q : List Nat) : (s.setQueue u q).jobs = s.jobs := by cases u <;> rfl
@[simp] theorem State.setQueue_openings (u : LUnit) (q : List Nat) : (s.setQueue u q).openings = s.openings := by cases u <;> rfl
@[simp] theorem State.setQueue_early (u : LUnit) (q : List Nat) : (s.setQueue u q).early = s.early := by cases u <;> rfl
@[simp] theorem State.setQueue_courses (u : LUnit) (q : List Nat) : (s.setQueue u q).courses = s.courses := by cases u <;> rfl
@[simp] theorem State.setQueue_hold (u : LUnit) (q : List Nat) : (s.setQueue u q).hold = s.hold := by cases u <;> rfl
@[simp] theorem State.setQueue_nextId (u : LUnit) (q : List Nat) : (s.setQueue u q).nextId = s.nextId := by cases u <;> rfl
@[simp] theorem State.setQueue_snaps (u : LUnit) (q : List Nat) : (s.setQueue u q).snaps = s.snaps := by cases u <;> rfl
@[simp] theorem State.setQueue_mem (u : LUnit) (q : List Nat) : (s.setQueue u q).mem = s.mem := by cases u <;> rfl
@[simp] theorem State.setQueue_stash (u : LUnit) (q : List Nat) : (s.setQueue u q).stash = s.stash := by cases u <;> rfl
@[simp] theorem State.setQueue_needles (u : LUnit) (q : List Nat) : (s.setQueue u q).needles = s.needles := by cases u <;> rfl
@[simp] theorem State.setQueue_panelStores (u : LUnit) (q : List Nat) : (s.setQueue u q).panelStores = s.panelStores := by cases u <;> rfl
@[simp] theorem State.setQueue_spareMap (u : LUnit) (q : List Nat) : (s.setQueue u q).spareMap = s.spareMap := by cases u <;> rfl
@[simp] theorem State.setQueue_engines (u : LUnit) (q : List Nat) : (s.setQueue u q).engines = s.engines := by cases u <;> rfl
@[simp] theorem State.setQueue_swatches (u : LUnit) (q : List Nat) : (s.setQueue u q).swatches = s.swatches := by cases u <;> rfl
@[simp] theorem State.setQueue_nextSwatch (u : LUnit) (q : List Nat) : (s.setQueue u q).nextSwatch = s.nextSwatch := by cases u <;> rfl
@[simp] theorem State.setQueue_shortSwatches (u : LUnit) (q : List Nat) : (s.setQueue u q).shortSwatches = s.shortSwatches := by cases u <;> rfl
@[simp] theorem State.setQueue_selfTests (u : LUnit) (q : List Nat) : (s.setQueue u q).selfTests = s.selfTests := by cases u <;> rfl
@[simp] theorem State.setQueue_time (u : LUnit) (q : List Nat) : (s.setQueue u q).time = s.time := by cases u <;> rfl
@[simp] theorem State.setQueue_gauge (u : LUnit) (q : List Nat) : (s.setQueue u q).gauge = s.gauge := by cases u <;> rfl
@[simp] theorem State.setQueue_links (u : LUnit) (q : List Nat) : (s.setQueue u q).links = s.links := by cases u <;> rfl
@[simp] theorem State.setQueue_skein (u : LUnit) (q : List Nat) : (s.setQueue u q).skein = s.skein := by cases u <;> rfl
@[simp] theorem State.setQueue_txq (u : LUnit) (q : List Nat) : (s.setQueue u q).txq = s.txq := by cases u <;> rfl
@[simp] theorem State.setQueue_credits (u : LUnit) (q : List Nat) : (s.setQueue u q).credits = s.credits := by cases u <;> rfl
@[simp] theorem State.setQueue_pw (u : LUnit) (q : List Nat) : (s.setQueue u q).pw = s.pw := by cases u <;> rfl
@[simp] theorem State.setQueue_fw (u : LUnit) (q : List Nat) : (s.setQueue u q).fw = s.fw := by cases u <;> rfl
@[simp] theorem State.setQueue_cnt (u : LUnit) (q : List Nat) : (s.setQueue u q).cnt = s.cnt := by cases u <;> rfl
@[simp] theorem State.setQueue_trace (u : LUnit) (q : List Nat) : (s.setQueue u q).trace = s.trace := by cases u <;> rfl
@[simp] theorem State.setQueue_dbg (u : LUnit) (q : List Nat) : (s.setQueue u q).dbg = s.dbg := by cases u <;> rfl
@[simp] theorem State.setQueue_cut (u : LUnit) (q : List Nat) : (s.setQueue u q).cut = s.cut := by cases u <;> rfl
@[simp] theorem State.setQueue_mgmt (u : LUnit) (q : List Nat) : (s.setQueue u q).mgmt = s.mgmt := by cases u <;> rfl
@[simp] theorem State.setQueue_job_q (u : LUnit) (q : List Nat) (x : Word) : (s.setQueue u q).job? x = s.job? x := by cases u <;> rfl
@[simp] theorem State.setQueue_course_q (u : LUnit) (q : List Nat) (x : Nat) : (s.setQueue u q).course? x = s.course? x := by cases u <;> rfl
@[simp] theorem State.setQueue_ring (u : LUnit) (q : List Nat) (x : Nat) : (s.setQueue u q).ring x = s.ring x := by cases u <;> rfl
@[simp] theorem State.setQueue_link (u : LUnit) (q : List Nat) (x : Nat) : (s.setQueue u q).link x = s.link x := by cases u <;> rfl
@[simp] theorem State.setQueue_needle (u : LUnit) (q : List Nat) (x : Nat) : (s.setQueue u q).needle x = s.needle x := by cases u <;> rfl

/-! ### setPw -/

@[simp] theorem State.setPw_pending (u : PwTarget) (c : Nat) : (s.setPw u c).pending = s.pending := by cases u <;> rfl
@[simp] theorem State.setPw_out (u : PwTarget) (c : Nat) : (s.setPw u c).out = s.out := by cases u <;> rfl
@[simp] theorem State.setPw_freeCtr (u : PwTarget) (c : Nat) : (s.setPw u c).freeCtr = s.freeCtr := by cases u <;> rfl
@[simp] theorem State.setPw_stitch (u : PwTarget) (c : Nat) : (s.setPw u c).stitch = s.stitch := by cases u <;> rfl
@[simp] theorem State.setPw_counting (u : PwTarget) (c : Nat) : (s.setPw u c).counting = s.counting := by cases u <;> rfl
@[simp] theorem State.setPw_stage (u : PwTarget) (c : Nat) : (s.setPw u c).stage = s.stage := by cases u <;> rfl
@[simp] theorem State.setPw_dev (u : PwTarget) (c : Nat) : (s.setPw u c).dev = s.dev := by cases u <;> rfl
@[simp] theorem State.setPw_pcie (u : PwTarget) (c : Nat) : (s.setPw u c).pcie = s.pcie := by cases u <;> rfl
@[simp] theorem State.setPw_intr (u : PwTarget) (c : Nat) : (s.setPw u c).intr = s.intr := by cases u <;> rfl
@[simp] theorem State.setPw_admin (u : PwTarget) (c : Nat) : (s.setPw u c).admin = s.admin := by cases u <;> rfl
@[simp] theorem State.setPw_rings (u : PwTarget) (c : Nat) : (s.setPw u c).rings = s.rings := by cases u <;> rfl
@[simp] theorem State.setPw_cfg (u : PwTarget) (c : Nat) : (s.setPw u c).cfg = s.cfg := by cases u <;> rfl
@[simp] theorem State.setPw_jobs (u : PwTarget) (c : Nat) : (s.setPw u c).jobs = s.jobs := by cases u <;> rfl
@[simp] theorem State.setPw_openings (u : PwTarget) (c : Nat) : (s.setPw u c).openings = s.openings := by cases u <;> rfl
@[simp] theorem State.setPw_early (u : PwTarget) (c : Nat) : (s.setPw u c).early = s.early := by cases u <;> rfl
@[simp] theorem State.setPw_courses (u : PwTarget) (c : Nat) : (s.setPw u c).courses = s.courses := by cases u <;> rfl
@[simp] theorem State.setPw_panelQ (u : PwTarget) (c : Nat) : (s.setPw u c).panelQ = s.panelQ := by cases u <;> rfl
@[simp] theorem State.setPw_engineQ (u : PwTarget) (c : Nat) : (s.setPw u c).engineQ = s.engineQ := by cases u <;> rfl
@[simp] theorem State.setPw_linkQ (u : PwTarget) (c : Nat) : (s.setPw u c).linkQ = s.linkQ := by cases u <;> rfl
@[simp] theorem State.setPw_hold (u : PwTarget) (c : Nat) : (s.setPw u c).hold = s.hold := by cases u <;> rfl
@[simp] theorem State.setPw_nextId (u : PwTarget) (c : Nat) : (s.setPw u c).nextId = s.nextId := by cases u <;> rfl
@[simp] theorem State.setPw_snaps (u : PwTarget) (c : Nat) : (s.setPw u c).snaps = s.snaps := by cases u <;> rfl
@[simp] theorem State.setPw_mem (u : PwTarget) (c : Nat) : (s.setPw u c).mem = s.mem := by cases u <;> rfl
@[simp] theorem State.setPw_stash (u : PwTarget) (c : Nat) : (s.setPw u c).stash = s.stash := by cases u <;> rfl
@[simp] theorem State.setPw_needles (u : PwTarget) (c : Nat) : (s.setPw u c).needles = s.needles := by cases u <;> rfl
@[simp] theorem State.setPw_panelStores (u : PwTarget) (c : Nat) : (s.setPw u c).panelStores = s.panelStores := by cases u <;> rfl
@[simp] theorem State.setPw_spareMap (u : PwTarget) (c : Nat) : (s.setPw u c).spareMap = s.spareMap := by cases u <;> rfl
@[simp] theorem State.setPw_engines (u : PwTarget) (c : Nat) : (s.setPw u c).engines = s.engines := by cases u <;> rfl
@[simp] theorem State.setPw_swatches (u : PwTarget) (c : Nat) : (s.setPw u c).swatches = s.swatches := by cases u <;> rfl
@[simp] theorem State.setPw_nextSwatch (u : PwTarget) (c : Nat) : (s.setPw u c).nextSwatch = s.nextSwatch := by cases u <;> rfl
@[simp] theorem State.setPw_shortSwatches (u : PwTarget) (c : Nat) : (s.setPw u c).shortSwatches = s.shortSwatches := by cases u <;> rfl
@[simp] theorem State.setPw_selfTests (u : PwTarget) (c : Nat) : (s.setPw u c).selfTests = s.selfTests := by cases u <;> rfl
@[simp] theorem State.setPw_time (u : PwTarget) (c : Nat) : (s.setPw u c).time = s.time := by cases u <;> rfl
@[simp] theorem State.setPw_gauge (u : PwTarget) (c : Nat) : (s.setPw u c).gauge = s.gauge := by cases u <;> rfl
@[simp] theorem State.setPw_links (u : PwTarget) (c : Nat) : (s.setPw u c).links = s.links := by cases u <;> rfl
@[simp] theorem State.setPw_skein (u : PwTarget) (c : Nat) : (s.setPw u c).skein = s.skein := by cases u <;> rfl
@[simp] theorem State.setPw_txq (u : PwTarget) (c : Nat) : (s.setPw u c).txq = s.txq := by cases u <;> rfl
@[simp] theorem State.setPw_credits (u : PwTarget) (c : Nat) : (s.setPw u c).credits = s.credits := by cases u <;> rfl
@[simp] theorem State.setPw_fw (u : PwTarget) (c : Nat) : (s.setPw u c).fw = s.fw := by cases u <;> rfl
@[simp] theorem State.setPw_cnt (u : PwTarget) (c : Nat) : (s.setPw u c).cnt = s.cnt := by cases u <;> rfl
@[simp] theorem State.setPw_trace (u : PwTarget) (c : Nat) : (s.setPw u c).trace = s.trace := by cases u <;> rfl
@[simp] theorem State.setPw_dbg (u : PwTarget) (c : Nat) : (s.setPw u c).dbg = s.dbg := by cases u <;> rfl
@[simp] theorem State.setPw_cut (u : PwTarget) (c : Nat) : (s.setPw u c).cut = s.cut := by cases u <;> rfl
@[simp] theorem State.setPw_mgmt (u : PwTarget) (c : Nat) : (s.setPw u c).mgmt = s.mgmt := by cases u <;> rfl
@[simp] theorem State.setPw_job_q (u : PwTarget) (c : Nat) (x : Word) : (s.setPw u c).job? x = s.job? x := by cases u <;> rfl
@[simp] theorem State.setPw_course_q (u : PwTarget) (c : Nat) (x : Nat) : (s.setPw u c).course? x = s.course? x := by cases u <;> rfl
@[simp] theorem State.setPw_ring (u : PwTarget) (c : Nat) (x : Nat) : (s.setPw u c).ring x = s.ring x := by cases u <;> rfl
@[simp] theorem State.setPw_link (u : PwTarget) (c : Nat) (x : Nat) : (s.setPw u c).link x = s.link x := by cases u <;> rfl
@[simp] theorem State.setPw_needle (u : PwTarget) (c : Nat) (x : Nat) : (s.setPw u c).needle x = s.needle x := by cases u <;> rfl

end Sys2Proof.Machine
end

