-- ==== Sys2Proof/Tests/Slice0.lean ====
section
/-! SUPPORT. The author's own tests: WellFormed refuses an ill-formed term for each of its checks; worked examples of the spec; and for
each statement with hypotheses a witness, a concrete state and operands that meet them. -/

namespace Sys2Proof.Tests

set_option Elab.async false

open Machine

/-! ### WellFormed: one ill-formed term for each check, and a well-formed one -/

def noIo : HostIo := { payload := none, cplFault := false }

def frameOf (n : Nat) : Frame :=
  { frameType := 0x30, flags := 0, seq := 0, ack := 0, dest := 0, stream := 0, offset := 0, payload := List.replicate n 0 }

theorem test_wf_source : (Instr.identify 0 (.ring 32) noIo).wf = false ∧ (Instr.identify 0 (.ring 31) noIo).wf = true ∧
    (Instr.solve 0 (.ring 40) noIo).wf = false ∧ (Instr.restore 0 (.ring 32) noIo true).wf = false ∧
    (Instr.identify 0 .admin noIo).wf = true := by decide +kernel

theorem test_wf_ring : (Instr.ringDoorbell 0 32 0).wf = false ∧ (Instr.ringDoorbell 0 31 0).wf = true ∧
    (Instr.heldCompletionWrite 0 32 false).wf = false ∧ (Instr.holdEntryAccept 0 32).wf = false := by decide +kernel

theorem test_wf_fetch : (Instr.ringFetch 0 (some [List.replicate 63 0])).wf = false ∧
    (Instr.ringFetch 0 (some [List.replicate 64 0, List.replicate 32 0])).wf = true ∧ (Instr.ringFetch 0 none).wf = true := by decide +kernel

theorem test_wf_launch_unit : (Instr.courseLaunch 0 (.panel 12)).wf = false ∧ (Instr.courseLaunch 0 (.engine 8)).wf = false ∧
    (Instr.courseLaunch 0 (.link 32)).wf = false ∧ (Instr.heldCourseEnqueue 0 (.link 31)).wf = true ∧
    (Instr.panelReadyReport 0 1 (.panel 12)).wf = false := by decide +kernel

theorem test_wf_panel : (Instr.batchWaitExpiry 0 12).wf = false ∧ (Instr.markerComplete 0 1 1 (some 12)).wf = false ∧
    (Instr.markerComplete 0 1 1 none).wf = true := by decide +kernel

theorem test_wf_register : (Instr.registerWrite 0 0x4000000 false 0).wf = false ∧ (Instr.registerWrite 0 2 false 0).wf = false ∧
    (Instr.registerWrite 0 0xC false 0).wf = true ∧ (Instr.obsRegisterAccess 0 0x10000 none).wf = false ∧
    (Instr.intrMaskWrite 0 (.vectorMap 67) 0).wf = false ∧ (Instr.intrMaskWrite 0 (.msixMask 66) 0).wf = false ∧
    (Instr.intrMaskWrite 0 .main 0).wf = true := by decide +kernel

theorem test_wf_unit : (Instr.courseFault 0 1 200 .memory 0 none).wf = false ∧ (Instr.courseWatchdogExpiry 0 1 200).wf = false ∧
    (Instr.unitMicrocodeSwitch 0 200).wf = false ∧ (Instr.unitMicrocodeSwitch 0 199).wf = true := by decide +kernel

theorem test_wf_needle : (Instr.swatchSelect 0 144 1 0 0 none).wf = false ∧ (Instr.suspectClear 0 144).wf = false ∧
    (Instr.idleTestItemStart 0 144).wf = false ∧ (Instr.testItemComplete 0 152 true).wf = false ∧
    (Instr.selfTestTargetTaken 0 152).wf = false ∧ (Instr.selfTestTargetReleased 0 151).wf = true := by decide +kernel

theorem test_wf_link : (Instr.linkTraining 0 ⟨32, none⟩).wf = false ∧ (Instr.linkTraining 0 ⟨31, none⟩).wf = true ∧ (Instr.idleFrameReceived 0 32 0).wf = false ∧
    (Instr.dataFrameReceived 0 32 (frameOf 224)).wf = false ∧ (Instr.dataFrameReceived 0 0 (frameOf 223)).wf = false ∧
    (Instr.unscheduledFrameReceived 0 0 (frameOf 224)).wf = true := by decide +kernel

theorem test_wf_engine_memory : (Instr.engineOperationStart 0 8).wf = false ∧ (Instr.cableEngineLost 0 8).wf = false ∧
    (Instr.patrolScrub 0 0x9000000000 false false).wf = false ∧ (Instr.rowRepair 0 0x8FFFFFFFFF false).wf = true ∧
    (Instr.pageRetirement 0 0x9000000000 false).wf = false ∧ (Instr.stackInterfaceRetrain 0 12 true).wf = false ∧
    (Instr.stackTemperatureSample 0 12 50).wf = false ∧ (Instr.stashChannelChange 0 16 true).wf = false := by decide +kernel

theorem test_wf_power : (Instr.timedWake 0 (.panel 12)).wf = false ∧ (Instr.idleDeepEntry 0 (.engine 8)).wf = false ∧
    (Instr.powerStateWake 0 .module).wf = true ∧ (Instr.bridgeLaneGroupFail 0 66).wf = false ∧ (Instr.bridgeLaneGroupFail 0 65).wf = true := by decide +kernel

/-! ### Words: no row gives bits -/

theorem test_no_word_is_a_command : decodeTableWord 16 0 = none ∧ decodeTableWord 64 0xFFFF = none := by decide +kernel

theorem test_no_word_changes_the_queue : State.reset.withFetchWord 16 1 = State.reset := rfl

/-! ### Worked examples of the spec -/

/-- 130 products, 0 but for the given ones: position and the BF16 codes of the two operands. -/
def dotTerms (given : List (Nat × Nat × Nat)) : List (Option Val) :=
  (List.range 130).map (fun k => some (match given.find? (·.1 == k) with
    | some g => term (bf16.decode g.2.1) (bf16.decode g.2.2)
    | none => term (bf16.decode 0) (bf16.decode 0)))

/-- 06, "a dot product with special values", column 2: the truncation of the 2^-80 term, then 0x3F80_8008, in BF16 0x3F81. -/
theorem test_dot_column2 :
    (fp32.round (refSum none (dotTerms [(0, 0x3F80, 0x3F80), (1, 0x3980, 0x3980), (2, 0x2B80, 0x2B80), (64, 0x3D80, 0x3D80), (65, 0x3A80, 0x3A80),
      (128, 0xB800, 0x3800), (129, 0x2400, 0xA400)]))).1 = 0x3F808008 ∧
    (bf16.round (fp32.decode 0x3F808008)).1 = 0x3F81 := by decide +kernel

/-- The same, columns 1 and 0: 0x7F80 and the canonical 0x7FC0. -/
theorem test_dot_columns01 : (bf16.round (refSum none (dotTerms [(3, 0x7180, 0x7180), (128, 0xB800, 0)]))).1 = 0x7F80 ∧
    (bf16.round (refSum none (dotTerms [(3, 0x7180, 0x7180), (70, 0x3F80, 0x7FA1)]))).1 = 0x7FC0 := by decide +kernel

/-- 08, "scales across a skip": an activation of 3.09375 gives code 0x79, a gradient of 0.0146484375 gives 0x6B and of 0.03125 0x6C. -/
theorem test_scale_codes :
    (Hist.code { tensorId := 0x310, format := 2, kind := 3, scaleCode := 127, newestStep := 0, maxima := [0x40460000] } 448).1 = 0x79 ∧
    (Hist.code { tensorId := 0x410, format := 3, kind := 4, scaleCode := 127, newestStep := 0, maxima := [0x3C700000] } 57344).1 = 0x6B ∧
    (Hist.code { tensorId := 0x410, format := 3, kind := 4, scaleCode := 127, newestStep := 2, maxima := [0x3D000000, 0x3C700000] } 57344).1 = 0x6C ∧
    (e5m2.round ((fp32.decode 0x3D800000).shift 20)).1 = 0x7C := by decide +kernel

/-- 04, "a re-dispatch launched on a mains cycle": the point a quarter into cycle 3,600,320 binds to 72,028,825,010,000. -/
theorem test_gauge_binding : bindWith ⟨BitVec.ofNat 64 (3600319 * 2 ^ 32), 72028800000000, 1311244288000, 0, 0, 0⟩
    (3600320 * 2 ^ 32 + 2 ^ 30) = 72028825010000 := by decide +kernel

/-- 13, "a frog from a swatch mismatch": restart at 764,972 × 65,536, and a result of 0x24 for a commit after one frog with a failed swatch. -/
theorem test_restart_stitch : restartStitch 50131200000 = 50133204992 ∧ restartStitch 50131200000 = 764972 * 65536 := by decide +kernel

/-- 02, "a clamped record": six entries, four of them clamped, one unknown; 17 rows and a report of 432 bytes. -/
def clampedEntries : List FieldEntry := [⟨0x10, le 2 1800⟩, ⟨0x11, le 2 1700⟩, ⟨0x20, le 1 41⟩, ⟨0x50, le 1 5⟩, ⟨0x60, le 2 256⟩, ⟨0xF00, le 4 7⟩]

theorem test_clamped_record :
    (evaluate ConfigFields.default clampedEntries).ok = true ∧ (evaluate ConfigFields.default clampedEntries).clamped = true ∧
    (evaluate ConfigFields.default clampedEntries).fields.powerLimit = 1650 ∧
    (evaluate ConfigFields.default clampedEntries).fields.powerLimitStartup = 1650 ∧
    (evaluate ConfigFields.default clampedEntries).fields.bar2SizeLog2 = 40 ∧
    (evaluate ConfigFields.default clampedEntries).fields.swatchRateLog2 = 8 ∧
    (clampReport 1 17 0 (evaluate ConfigFields.default clampedEntries).rows).length = 432 := by decide +kernel

/-- The rows of that report: offset, reason, flags, requested and applied of the six entries that the example lists. -/
theorem test_clamp_report : ([1, 2, 3, 9, 12, 16].map (fun i => ((evaluate ConfigFields.default clampedEntries).rows.getD i ⟨0, 0, 0, 0, 0⟩))).map
      (fun r => (r.id, r.reason, r.flags, r.requested, r.applied)) =
    [(0x10, 2, 0, 1800, 1650), (0x11, 3, 1, 1700, 1650), (0x20, 2, 1, 41, 40), (0x50, 1, 0, 5, 8), (0x60, 0, 1, 256, 256), (0xF00, 7, 0, 7, 0)] := by
  decide +kernel

/-- 14, "Standby admitted by its history": 64 exits of at most 2,710 µs permit Standby at 3,000 µs, and its worst case of 4,000 µs does not. -/
theorem test_standby_history :
    State.permits { State.reset with pw := { Pw.reset with tolerance := 3000, histories := [[], [], List.replicate 64 2710, []] } } 3 = true ∧
    State.permits { State.reset with pw := { Pw.reset with tolerance := 3000 } } 3 = false ∧
    State.permits { State.reset with pw := { Pw.reset with tolerance := 5000 } } 3 = true := by decide +kernel

/-- 12 R347: step 4 is entered at 95 °C and left when the temperature has fallen to 92 °C. -/
theorem test_thermal_steps : thermalStep 0 94 = 3 ∧ thermalStep 0 95 = 4 ∧ thermalStep 4 93 = 4 ∧ thermalStep 4 92 = 3 := by decide +kernel

/-- 11, "one element, two halves": under FP32 wire the two orders give 0 and 2^-23, in BF16 0x0000 and 0x3400. -/
theorem test_ring_orders :
    let add := fun a b : Nat => (fp32.round ((fp32.decode a).add (fp32.decode b))).1
    (bf16.round (fp32.decode (add (add (add 0x3F800000 0x33800000) 0x33800000) 0xBF800000))).1 = 0x0000 ∧
    (bf16.round (fp32.decode (add (add (add 0x33800000 0x33800000) 0x3F800000) 0xBF800000))).1 = 0x3400 := by decide +kernel

/-- 02 R65: of several conditions the completion's status is the first by precedence. -/
theorem test_precedence : primaryStatus [0x0000, 0x0102] = 0x0102 ∧ primaryStatus [0x0101, 0x0102] = 0x0101 := by decide +kernel

/-! ### States that the witnesses start from -/

/-- A module that is up, its counter held, so that a command finds the state as it stands. -/
def live : State :=
  { State.reset with
    stage := { State.reset.stage with good := true }
    dev := { State.reset.dev with castOnPhase := 7, castOnComplete := true, hostReady := true } }

/-- Any state whose counter is held is reached by a command at any stitch. -/
theorem reached_of_held {s : State} (t : Stitch) (h : s.counting = false) (h' : s.up = true) : s.Reached t s := by
  refine ⟨?_, h'⟩
  simp [State.advance, h]

/-- An admin command of an entry. -/
def mailed (s : State) (e : List Byte) : State := { s with admin := { s.admin with latched := some e, busy := true } }

/-- An entry fetched from ring 0. -/
def ringed (s : State) (e : List Byte) : State := s.updRing 0 (fun (g : Ring) => { g with enable := true, enabled := true, fetched := [⟨e, 1⟩] })

/-- A revision-2 entry of an opcode with fields. -/
def ent (op : Nat) (fs : List (Nat × Nat × Nat)) : List Byte := record 64 ((0, 2, op) :: fs)

/-- The same with a payload of `n` bytes at 0x1000. -/
def entP (op n : Nat) (fs : List (Nat × Nat × Nat)) : List Byte := ent op ((16, 8, 0x1000) :: (24, 4, n) :: fs)

def ioOf (p : List Byte) : HostIo := { payload := some p, cplFault := false }

/-- The fetched entry of an admin command. -/
def admFetched (e : List Byte) : Fetched := { entry := e, sqHead := Config.adminSqHead }

/-- The Hook takes the admin command of an entry whose opcode it accepts. -/
theorem takes_admin {e : List Byte} {op : Nat} (h : opcodeRow .admin 2 (field e 0 2) = some op) :
    ((mailed live e).advance 0).hookTakes .admin op (admFetched e) := ⟨rfl, rfl, h, by show (7 : Byte) ≠ 0xFE; decide, rfl⟩

/-- The command of an entry on the admin mailbox, and on ring 0. -/
def admCmd (s : State) (e p : List Byte) : Cmd := (mailed s e).given 0 .admin (ioOf p) (admFetched e)

def ringCmd (s : State) (e p : List Byte) : Cmd := (ringed s e).given 0 (.ring 0) (ioOf p) ⟨e, 1⟩

/-- The state in which a ring's command is examined. -/
def taken (s : State) (e : List Byte) : State := (ringed s e).popped 0 (.ring 0)

def ringTakes (s : State) (e : List Byte) (op : Nat) : Prop := ((ringed s e).advance 0).hookTakes (.ring 0) op ⟨e, 1⟩

/-- A job of one member with a staging pool of 240 KiB. -/
def jobBytes : List Byte := record 48 [(0, 8, 5), (16, 8, 0x60000), (24, 8, 245760), (32, 4, 1)]

def jobEntry : List Byte := entP 0x0020 48 [(8, 4, 1)]

def job0 : Job := live.newJob (ringCmd live jobEntry jobBytes)

/-- A vector of 16 FP32 elements. -/
def tensorBytes : List Byte :=
  record 96 [(0, 4, 9), (4, 1, 7), (5, 1, 1), (7, 1, 2), (8, 4, 16), (12, 4, 1), (16, 4, 1), (20, 4, 1), (24, 8, 1), (56, 8, 0x200000), (64, 8, 64)]

/-- A pattern of one needle operation that only marks, with one slot. -/
def imageBody : List Byte :=
  record 192 [(0, 4, 0x54505850), (4, 2, 1), (6, 1, 1), (8, 4, 192), (12, 2, 1), (14, 2, 1), (16, 4, 64), (20, 4, 128), (64, 2, 0x40),
    (68, 2, 0xFFFF), (70, 2, 0xFFFF), (72, 2, 0xFFFF), (74, 2, 0xFFFF), (76, 4, 0xFFFFFFFF), (129, 1, 0xFF)]

def imageBytes : List Byte := overlayBytes imageBody 40 (le 4 (crc32cZeroed imageBody 40))

/-- A graph structure of two unknowns, diagonal 2 and 2, coupling 1. -/
def structBody : List Byte :=
  record 192 [(0, 4, 0x54535850), (4, 2, 1), (6, 1, 0), (8, 4, 2), (12, 4, 4), (16, 8, 0x400000), (24, 8, 0x10000), (32, 1, 1), (36, 4, 64), (40, 4, 80),
    (44, 4, 96), (64, 4, 0), (68, 4, 2), (72, 4, 4), (80, 4, 0), (84, 4, 1), (88, 4, 0), (92, 4, 1), (96, 8, 0x4000000000000000),
    (104, 8, 0x3FF0000000000000), (112, 8, 0x3FF0000000000000), (120, 8, 0x4000000000000000)]

def structBytes : List Byte := overlayBytes structBody 52 (le 4 (crc32cZeroed structBody 52))

/-- The job with a tensor, a pattern and a structure, in a module. -/
def job1 : Job :=
  { job0 with tensors := [tensorOf tensorBytes], patterns := [⟨1, imageBytes⟩], nextPattern := 2, structures := [structOf structBytes 1], nextStructure := 2 }

def withJob (j : Job) : State := { live with jobs := [j] }

/-! ### Witnesses: host commands -/

/-- The Hook takes an admin command in any state of this kind. -/
theorem takes_admin_of {s : State} {e : List Byte} {op : Nat} (hc : s.counting = false) (hu : s.up = true) (hf : s.dev.fwActivating = false)
    (hp : s.dev.castOnPhase = 7) (hl : s.dev.stackLost = false) (h : opcodeRow .admin 2 (field e 0 2) = some op) :
    ((mailed s e).advance 0).hookTakes .admin op (admFetched e) := by
  have ha : (mailed s e).advance 0 = mailed s e := by
    unfold State.advance; simp [mailed, hc]
  rw [ha]
  refine ⟨hu, ?_, h, ?_, ?_⟩
  · simp [State.headEntry, mailed, hf, admFetched]
  · show s.dev.castOnPhase ≠ 0xFE
    rw [hp]; decide
  · simp [State.jobFault, mailed, hl]

theorem witness_RecordsAnswered_admin :
    (let e := ent 0x0001 []
     ((mailed live e).advance 0).hookTakes .admin 0x0001 (admFetched e) ∧ (admCmd live e []).badLayout = false ∧
      (admCmd live e []).noOperands = true) ∧
    (let e := ent 0x0003 []
     ((mailed live e).advance 0).hookTakes .admin 0x0003 (admFetched e) ∧ (admCmd live e []).badLayout = false ∧
      (admCmd live e []).noOperands = true) :=
  ⟨⟨takes_admin (by decide +kernel), by decide +kernel, by decide +kernel⟩,
   ⟨takes_admin (by decide +kernel), by decide +kernel, by decide +kernel⟩⟩

theorem witness_RecordsAnswered_attest :
    (let e := ent 0x0012 [(40, 1, 1)]
     let c := admCmd live e []
     ((mailed live e).advance 0).hookTakes .admin 0x0012 (admFetched e) ∧ c.badLayout = false ∧ c.op 40 1 = 1 ∧ c.zero 41 3 = true ∧ c.zero 48 16 = true) ∧
    (let e := entP 0x0012 32 [(44, 4, 510)]
     let c := admCmd live e (List.replicate 32 7)
     ((mailed live e).advance 0).hookTakes .admin 0x0012 (admFetched e) ∧ c.badLayout = false ∧ c.op 40 1 = 0 ∧ c.zero 41 3 = true ∧
      c.zero 48 16 = true ∧ c.badPayload 32 = false ∧ c.op 44 4 ≠ 0 ∧ c.op 44 4 % 2 = 0 ∧ c.op 44 4 < 512) :=
  ⟨⟨takes_admin (by decide +kernel), by decide +kernel⟩, ⟨takes_admin (by decide +kernel), by decide +kernel⟩⟩

/-- COUNTERS_READ of every selector. -/
def countersEntry (sel : Nat) : List Byte := ent 0x0061 [(8, 4, 1), (28, 4, 64), (32, 8, 0x1000), (40, 4, sel)]

theorem witness_RecordsAnswered_counters : ∀ sel ∈ [0, 1, 2, 3, 4, 5, 6],
    ringTakes (withJob job1) (countersEntry sel) 0x0061 ∧ (ringCmd (withJob job1) (countersEntry sel) []).badLayout = false ∧
    (ringCmd (withJob job1) (countersEntry sel) []).countersReserved = false ∧
    (ringCmd (withJob job1) (countersEntry sel) []).selector = sel ∧ (ringCmd (withJob job1) (countersEntry sel) []).rev1 = false ∧
    (ringCmd (withJob job1) (countersEntry sel) []).tag.resultAddr ≠ 0 ∧ 0 < (ringCmd (withJob job1) (countersEntry sel) []).tag.resultLen ∧
    ((taken (withJob job1) (countersEntry sel)).openJob? 1).isSome = true ∧ (taken (withJob job1) (countersEntry sel)).stashOk = true ∧
    (ringCmd (withJob job1) (countersEntry sel) []).stashBad = false ∧
    ((ringed (withJob job1) (countersEntry sel)).given 0 (.ring 0) { payload := some [], cplFault := false, stashBad := true }
      ⟨countersEntry sel, 1⟩).stashBad = true := by
  unfold ringTakes State.hookTakes; decide +kernel

/-- A completion of ring 0. -/
def cplOf (s : State) (e : List Byte) : Completion :=
  { tag := (ringCmd s e []).tag, status := 0, secondary := 0, reportAttached := false, truncated := false, result := 0 }

theorem witness_CompletionWritten : let x := cplOf live (ent 0x0061 [])
    x.tag.src = .ring 0 ∧ 0 < live.rings.length ∧ x.tag.epoch = live.dev.epoch ∧ (live.ring 0).cqFull = false ∧ (live.ring 0).held = [] ∧
    x.tag.cplFault = false ∧ (let y := { x with tag := { x.tag with cplFault := true } }; y.tag.src = .ring 0 ∧
      y.tag.epoch = live.dev.epoch ∧ y.tag.cplFault = true) ∧ ((live.updRing 0 (fun (g : Ring) => { g with cqTail := 15 })).ring 0).cqFull = true ∧ live.dev.fwActivating = false ∧
    ({ live with dev := { live.dev with fwActivating := true } } : State).dev.fwActivating = true := by decide +kernel

theorem witness_AdminMailbox : live.Reached 0 live ∧ live.dev.hostReady = true ∧ (1 : Word).getLsbD 0 = true ∧ live.admin.busy = false ∧
    (mailed live (ent 1 [])).Reached 0 (mailed live (ent 1 [])) ∧ (mailed live (ent 1 [])).admin.busy = true ∧
    (mailed live (ent 1 [])).admin.latched.isSome = true ∧ (admCmd live (ent 1 []) []).tag.src = .admin ∧
    (admCmd live (ent 1 []) []).tag.epoch = live.dev.epoch ∧ live.dev.fwActivating = false ∧ isNext (exec (.hostInterfaceReset 0 .flr) live) :=
  ⟨⟨rfl, rfl⟩, rfl, rfl, rfl, ⟨rfl, rfl⟩, rfl, rfl, rfl, rfl, rfl, trivial⟩

/-- A configuration record of sequence 1 that sets SWATCH_RATE_LOG2 to 9. -/
def configBytes : List Byte :=
  record 32 [(0, 4, 0x52435850), (4, 2, 1), (8, 8, 1), (16, 4, 8), (20, 2, 1)] ++ le 2 0x50 ++ le 2 1 ++ le 4 9 ++ List.replicate 512 0

def configEntry : List Byte := entP 0x0002 552 []

theorem witness_ConfigTaken : ((mailed live configEntry).advance 0).hookTakes .admin 0x0002 (admFetched configEntry) ∧
    (admCmd live configEntry configBytes).badLayout = false ∧ (admCmd live configEntry configBytes).noOperands = true ∧
    (admCmd live configEntry configBytes).badPayload 32 = false ∧
    (parseRecord (admCmd live configEntry configBytes).data).map (fun r => (r.serial, decide (live.cfg.sequence < r.sequence),
      (evaluate live.cfg.fields r.entries).ok)) = some (0, true, true) ∧ live.stashOk = true :=
  ⟨takes_admin (by decide +kernel), by decide +kernel⟩

/-- FW_BLOCK of one 64-byte block of an image of 4,096 bytes. -/
def blockBytes : List Byte :=
  record 64 [(0, 4, 0x42465850), (4, 2, 1), (8, 8, 3), (16, 4, 4096), (24, 4, 64), (28, 4, crc32c (List.replicate 64 0))] ++ List.replicate 64 0

def staged : State := { live with fw := { live.fw with staging := some { tag := 3, length := 4096, blocks := [] } } }

theorem witness_AdminCommandsTaken_block : let e := entP 0x0010 128 []
    let c := admCmd staged e blockBytes
    ((mailed staged e).advance 0).hookTakes .admin 0x0010 (admFetched e) ∧ c.badLayout = false ∧ c.noOperands = true ∧ c.badPayload 64 = false ∧
    blockHeaderOk c c.data = true ∧ staged.stashOk = true ∧ crc32c ((c.data.drop 64).take (field c.data 24 4)) = field c.data 28 4 ∧
    field c.data 6 2 ≠ 1 ∧ field c.data 8 8 = 3 ∧ field c.data 16 4 = 4096 :=
  ⟨takes_admin_of rfl rfl rfl rfl rfl (by decide +kernel), by decide +kernel⟩

/-- The other bank valid, and a pack loaded. -/
def banked : State :=
  { live with
    fw := { live.fw with bankB := { valid := true, signed := true, version := 2, security := 0, image := [] } }
    stash := { live.stash with packs := [{ id := 4, sequence := 1, bytes := [] }] } }

theorem witness_AdminCommandsTaken_rest :
    (let e := ent 0x0011 [(40, 1, 2)]
     let c := admCmd banked e []
     ((mailed banked e).advance 0).hookTakes .admin 0x0011 (admFetched e) ∧ c.badLayout = false ∧ c.op 40 1 = 2 ∧ c.zero 41 23 = true ∧
      banked.stashOk = true ∧ banked.fw.activation = none ∧ banked.fw.reload = [] ∧ banked.hibernating = false ∧ banked.fw.otherOverwritten = false ∧
      (banked.fw.bank banked.stagingB).valid = true ∧ banked.fw.floor ≤ (banked.fw.bank banked.stagingB).security ∧ banked.dev.castOnPhase ≠ 0xFE ∧
      (banked.fw.bank banked.stagingB).signed = true ∧ c.stashBad = false ∧ ({ c with stashBad := true } : Cmd).stashBad = true ∧
      (let k := { banked with fw := { banked.fw with bankB := { banked.fw.bankB with signed := false } } }
       (k.fw.bank k.stagingB).signed = false ∧ (k.fw.bank k.stagingB).valid = true)) ∧
    (let e := ent 0x0013 [(40, 1, 1), (44, 4, 4)]
     let c := admCmd banked e []
     ((mailed banked e).advance 0).hookTakes .admin 0x0013 (admFetched e) ∧ c.badLayout = false ∧ c.op 40 1 = 1 ∧ c.zero 41 3 = true ∧ c.zero 48 16 = true ∧
      banked.stashOk = true ∧ banked.packInUse (BitVec.ofNat 32 (c.op 44 4)) = false ∧
      banked.stash.packs.any (fun p => p.id == BitVec.ofNat 32 (c.op 44 4)) = true) ∧
    (let e := ent 0x0004 [(40, 4, 3000), (44, 1, 1)]
     let c := admCmd live e []
     ((mailed live e).advance 0).hookTakes .admin 0x0004 (admFetched e) ∧ c.badLayout = false ∧ c.op 44 1 < 2 ∧ c.zero 45 19 = true) :=
  ⟨⟨takes_admin_of rfl rfl rfl rfl rfl (by decide +kernel), by decide +kernel⟩,
   ⟨takes_admin_of rfl rfl rfl rfl rfl (by decide +kernel), by decide +kernel⟩, ⟨takes_admin (by decide +kernel), by decide +kernel⟩⟩

theorem witness_JobsOpenAndClose :
    (ringTakes live jobEntry 0x0020 ∧ (taken live jobEntry).badJob (ringCmd live jobEntry jobBytes) = false ∧ job0.skein = false) ∧
    (let two := record 48 [(0, 8, 5), (16, 8, 0x60000), (24, 8, 245760), (32, 4, 2), (36, 4, 1)]
     (taken live jobEntry).badJob (ringCmd live jobEntry two) = false ∧ (live.newJob (ringCmd live jobEntry two)).skein = true) ∧
    (let e := ent 0x0021 [(8, 4, 1)]
     ringTakes (withJob job1) e 0x0021 ∧ ((taken (withJob job1) e).openJob? 1).isSome = true ∧ (ringCmd (withJob job1) e []).badLayout = false ∧
      (ringCmd (withJob job1) e []).zero 40 24 = true) := by
  unfold ringTakes State.hookTakes; decide +kernel

theorem witness_TensorsAndPatternsKept_kept :
    (let e := entP 0x0023 96 [(8, 4, 1)]
     let c := ringCmd (withJob job0) e tensorBytes
     ringTakes (withJob job0) e 0x0023 ∧ c.badLayout = false ∧ c.actionReserved = false ∧ c.actionId = (0, 0) ∧ c.badPayload 96 = false ∧
      (taken (withJob job0) e).badTensor job0 c.data = false ∧ (withJob job0).noStack (tensorOf c.data) = false) ∧
    (let e := entP 0x0022 192 [(8, 4, 1)]
     let c := ringCmd (withJob job0) e imageBytes
     ringTakes (withJob job0) e 0x0022 ∧ c.actionId = (0, 0) ∧ c.badPayload 64 = false ∧ imageFailure job0 c.data c.payloadLen = none ∧
      c.data.length ≤ imageMax) := by
  unfold ringTakes State.hookTakes; decide +kernel

theorem witness_TensorsAndPatternsKept_dropped :
    (let e := ent 0x0023 [(8, 4, 1), (40, 1, 1), (44, 4, 9)]
     let s := withJob job1
     ringTakes s e 0x0023 ∧ (ringCmd s e []).actionReserved = false ∧ (ringCmd s e []).actionId = (1, 9) ∧
      (job1.tensors.find? (·.id == 9)) = some (tensorOf tensorBytes) ∧ (tensorOf tensorBytes).managed = false ∧
      job1.tensors.any (fun y => y.managed && y.scaleId == 9) = false ∧ (taken s e).tensorBusy job1 (tensorOf tensorBytes) = false) ∧
    (let e := ent 0x0022 [(8, 4, 1), (40, 1, 1), (44, 4, 1)]
     let s := withJob job1
     ringTakes s e 0x0022 ∧ (ringCmd s e []).actionId = (1, 1) ∧ job1.patterns.all (·.handle != 1) = false ∧ (taken s e).courses = []) := by
  unfold ringTakes State.hookTakes; decide +kernel

/-- A descriptor: pattern 1 on needle 0, its slot bound to the tensor. -/
def descBytes1 : List Byte := record 104 [(0, 4, 1), (18, 2, 1), (56, 8, counterMax), (64, 1, 1), (100, 4, 9)]

def courseEntry : List Byte := entP 0x0024 104 [(8, 4, 1)]

/-- Panel 0's queue full. -/
def crowded : State := { withJob job1 with panelQ := (withJob job1).panelQ.set 0 (List.replicate 64 7) }

theorem witness_WorkQueued_course : let s := withJob job1
    let c := ringCmd s courseEntry descBytes1
    let d := c.desc
    ringTakes s courseEntry 0x0024 ∧ c.badLayout = false ∧ c.zero 40 24 = true ∧ c.badPayload 96 = false ∧ c.badPayload (96 + 8 * field c.data 18 2) = false ∧
    (job1.patterns.find? (·.handle == d.pattern)) = some ⟨1, imageBytes⟩ ∧ d.wrong = false ∧ c.badCourseEntry = false ∧
     (taken s courseEntry).badCourse c job1 imageBytes d = false ∧
    (taken s courseEntry).courseResource c job1 d = false ∧ (taken s courseEntry).holdFull ((taken s courseEntry).newCourse c job1 d) = false ∧
    (taken crowded courseEntry).holdNeed ((taken crowded courseEntry).newCourse c job1 d) = 1 := by
  unfold ringTakes State.hookTakes; decide +kernel

/-- With 16,384 entries held and its queue full the hold is full. -/
theorem witness_WorkQueued_full (s : State) (w : Course) (h : s.holdNeed w = 1) (h' : s.hold.length = 16384) : s.holdFull w = true := by
  simp [State.holdFull, h, h', holdMax]

theorem witness_WorkQueued_solve : let s := withJob job1
    let e := entP 0x0042 32 [(8, 4, 1), (40, 4, 1), (44, 1, 2)]
    let c := ringCmd s e (List.replicate 32 0)
    ringTakes s e 0x0042 ∧ (job1.structures.find? (·.handle == c.op 40 4)).isSome = true ∧ job1.badSolveCmd c (structOf structBytes 1) = false ∧
    (structOf structBytes 1).stepWritten = false ∧ (taken s e).holdFull ((taken s e).newSolve c job1 (structOf structBytes 1)) = false := by
  unfold ringTakes State.hookTakes; decide +kernel

/-- STEP_BEGIN of step 0, with a deadline. -/
def beginEntry : List Byte := ent 0x0028 [(8, 4, 1), (40, 8, 0), (52, 4, 1000), (56, 8, 1000000)]

def stepJob : Job := { job1 with opened := some ((taken (withJob job1) beginEntry).newStep (ringCmd (withJob job1) beginEntry [])) }

theorem witness_StepsAndSnapshots :
    (let s := withJob job1
     let c := ringCmd s beginEntry []
     ringTakes s beginEntry 0x0028 ∧ c.badLayout = false ∧ c.op 48 1 = 0 ∧ c.zero 49 3 = true ∧ c.op 52 4 ≠ 0 ∧ job1.opened = none ∧
      job1.closing = none ∧ job1.committing = none ∧ job1.dropUntil = none ∧ job1.beginWait = none ∧ c.op 40 8 = job1.nextStep ∧ (taken s beginEntry).courses = []) ∧
    (let s := withJob stepJob
     let e := ent 0x0029 [(8, 4, 1)]
     ringTakes s e 0x0029 ∧ stepJob.opened.isSome = true ∧ (ringCmd s e []).zero 48 16 = true ∧
      (ringCmd s e []).op 40 8 = (stepJob.opened.map (·.number)).getD 9 ∧ (stepJob.opened.bind (·.commit)) = none) ∧
    (let s := withJob job1
     let e := entP 0x002A 48 [(8, 4, 1)]
     let c := ringCmd s e (record 48 [(0, 8, counterMax), (8, 2, 1), (16, 4, 9), (32, 8, 64), (40, 8, 0x2000)])
     ringTakes s e 0x002A ∧ c.rev1 = false ∧ c.zero 40 24 = true ∧ c.badPayload (16 + 32 * field c.data 8 2) = false ∧ field c.data 8 2 = 1 ∧
      zeroBytes c.data 10 6 = true ∧ zeroBytes c.data 20 4 = true ∧ (snapEntries c.data).any job1.badEntry = false ∧ field c.data 0 8 = counterMax) := by
  unfold ringTakes State.hookTakes; decide +kernel

/-- A cut that holds. -/
def cutOf (p : CutPhase) : Cut :=
  { phase := p, tag := none, job := 0, skein := false, stitch := 2048, taken := 4096, drained := 0, withdrawn := [], discarded := 0, reports := []
    aborted := [], resume := none }

theorem witness_CutsRecorded :
    (let e := ent 0x0030 []
     let c := ringCmd live e []
     ringTakes live e 0x0030 ∧ c.badLayout = false ∧ (taken live e).badSlot (c.op 40 8) = false ∧ c.op 48 1 = 0 ∧ c.zero 49 15 = true ∧ c.tag.jobId = 0 ∧
      (taken live e).cut = none ∧ live.badSlot 1001472 = false ∧ live.badSlot 999424 = true) ∧
    (let s := { live with cut := some (cutOf .held) }
     let e := ent 0x0031 []
     let c := ringCmd s e []
     ringTakes s e 0x0031 ∧ (taken s e).badSlot (c.op 40 8) = false ∧ c.zero 48 16 = true ∧ (cutOf .held).phase = .held ∧
      (cutOf .held).resume = none) := by
  unfold ringTakes State.hookTakes; decide +kernel

theorem witness_StructuresKept :
    (let s := withJob job0
     let e := entP 0x0040 192 [(8, 4, 1)]
     let c := ringCmd s e structBytes
     ringTakes s e 0x0040 ∧ c.badLayout = false ∧ c.op 40 1 = 0 ∧ c.op 44 4 = 0 ∧ c.op 48 1 = 0 ∧ c.zero 41 3 = true ∧ c.zero 49 15 = true ∧
      c.badPayload 64 = false ∧ (taken s e).structFailure job0 c.data c.payloadLen = none) ∧
    (let s := withJob job1
     let e := ent 0x0040 [(8, 4, 1), (40, 1, 1), (44, 4, 1)]
     let e2 := ent 0x0040 [(8, 4, 1), (40, 1, 2), (44, 4, 1), (48, 1, 3)]
     ringTakes s e 0x0040 ∧ (ringCmd s e []).op 40 1 = 1 ∧ (ringCmd s e []).zero 49 15 = true ∧ (taken s e).structureBusy job1 (structOf structBytes 1) = false ∧
      ringTakes s e2 0x0040 ∧ (ringCmd s e2 []).op 48 1 ≠ 0 ∧ (taken s e2).engineOut 3 = false ∧
      (job1.structures.find? (·.handle == 1)).isSome = true) ∧
    (let s := withJob job1
     let e := entP 0x0041 32 [(8, 4, 1)]
     let body := record 16 [(4, 1, 1), (8, 8, 0x3FF0000000000000)]
     let c := ringCmd s e (record 16 [(0, 4, 0x55445850), (4, 4, 1), (8, 4, 1), (12, 4, crc32c body)] ++ body)
     ringTakes s e 0x0041 ∧ c.zero 40 24 = true ∧ c.badPayload 16 = false ∧ (job1.structures.find? (·.handle == field c.data 4 4)).isSome = true ∧
      badDelta c.data c.payloadLen (structOf structBytes 1) = false ∧ crc32c (c.data.drop 16) = field c.data 12 4) := by
  unfold ringTakes State.hookTakes; decide +kernel

/-- A checkpoint of the job in set 1. -/
def ckpt1 : Ckpt := { (withJob job0).newCkpt job0 1 0 with latest := true }

theorem witness_CheckpointsQueued :
    (let s := withJob job0
     let e := ent 0x0050 [(8, 4, 1), (42, 2, 4095)]
     let c := ringCmd s e []
     ringTakes s e 0x0050 ∧ c.badLayout = false ∧ (c.rev1 || c.zero 44 20) = true ∧ c.ckptAction = 0 ∧ c.ckptFlags < 2 ∧ c.ckptSet ≠ 0 ∧ c.ckptSet ≤ 4095 ∧
      (taken s e).ckptFault ((taken s e).newCkpt job0 4095 0) = none) ∧
    (let s := withJob job0
     let e := ent 0x0050 [(8, 4, 1), (40, 1, 1)]
     let e2 := ent 0x0050 [(8, 4, 1), (40, 1, 2), (42, 2, 1)]
     ringTakes s e 0x0050 ∧ (ringCmd s e []).ckptAction = 1 ∧ (ringCmd s e []).ckptSet = 0 ∧ s.stashOk = true ∧ (ringCmd s e []).stashBad = false ∧ ringTakes s e2 0x0050 ∧
      (ringCmd s e2 []).ckptAction = 2 ∧ (ringCmd s e2 []).ckptSet = 1 ∧ s.stash.runs = []) ∧
    (let s := { withJob job0 with stash := { live.stash with ckpts := [ckpt1] } }
     let e := ent 0x0051 [(8, 4, 1), (40, 2, 1)]
     let c := ringCmd s e []
     ringTakes s e 0x0051 ∧ (if c.rev1 then decide (c.restoreSet ≤ 4095) else c.zero 43 21) = true ∧ c.restoreSlot ≤ 1 ∧
      (taken s e).restoreFault job0 c.restoreSet c.restoreSlot = none) := by
  unfold ringTakes State.hookTakes; decide +kernel

/-- A trace ring of 1 MiB. -/
def traced : State := { live with trace := { live.trace with moduleRing := some (freshRing 0x800000 1048576 0x7FE false) } }

theorem witness_TraceTestAndUnknown :
    (let e := ent 0x0060 [(44, 4, 0x7FE), (48, 8, 0x800000), (56, 4, 4096)]
     let c := ringCmd live e []
     ringTakes live e 0x0060 ∧ c.badLayout = false ∧ c.rev1 = false ∧ c.zero 41 3 = true ∧ c.op 40 1 = 0 ∧ c.tag.jobId = 0 ∧
      classMaskBad (c.op 44 4) = false ∧ c.zero 60 4 = true ∧ 1 ≤ c.op 56 4 ∧ c.op 56 4 ≤ 4096 ∧ (taken live e).trace.moduleRing = none ∧
      (taken live e).ringClash none (c.op 48 8, c.op 56 4 * 2 ^ 20) = false) ∧
    (∀ a ∈ [1, 2], ringTakes traced (ent 0x0060 [(40, 1, a)]) 0x0060 ∧ (ringCmd traced (ent 0x0060 [(40, 1, a)]) []).op 40 1 = a ∧
      traced.trace.moduleRing.isSome = true) ∧
    (let s := live.updRing 0 (fun (g : Ring) => { g with revision := 1 })
     let e := record 32 [(0, 1, 0x32), (20, 4, 4095)]
     ringTakes s e 0x0062 ∧ (ringCmd s e []).badLayout = false ∧ (ringCmd s e []).rev1 = true ∧ (ringCmd s e []).operand1 = 4095) ∧
    (let e := ent 0x0099 []
     (ringed live e).headEntry (.ring 0) = some ⟨e, 1⟩ ∧ opcodeRow (.ring 0) 2 (entryOpcode 2 e) = none ∧ live.dev.castOnPhase ≠ 0xFE ∧
      lacksRevision (.ring 0) 2 0x99 = false ∧ lacksRevision (.ring 0) 1 0x40 = true) := by
  unfold ringTakes State.hookTakes; decide +kernel

/-! ### Witnesses: rings, interrupts, registers, the window, power -/

/-- Up, with the counter held: such a state is reached by any command as it stands. -/
def rests (s : State) : Bool := !s.counting && s.up

theorem reached_of_rests {s : State} (t : Stitch) (h : rests s = true) : s.Reached t s := by
  simp only [rests, Bool.and_eq_true, Bool.not_eq_true'] at h
  exact reached_of_held t h.1 h.2

theorem memOk_of {s : State} (h : Memory.wf s.mem.cells = true) (h' : s.stash.hibernate = none) : s.MemOk :=
  ⟨h, fun m hm => by rw [h'] at hm; cases hm⟩

def ring0 (f : Ring → Ring) : State := live.updRing 0 f

theorem witness_RingDoorbells : rests live = true ∧ live.dev.hostReady = true ∧ (15 : Word).toNat % 65536 < (live.ring 0).size ∧
    (live.ring 0).size ≤ (16 : Word).toNat % 65536 ∧ rests { live with dev := { live.dev with hostReady := false } } = true ∧
    (let g := (ring0 (fun (g : Ring) => { g with cqHead := 3, cqTail := 5 })).ring 0
     (5 + g.size - g.cqHead) % g.size ≤ (g.cqTail + g.size - g.cqHead) % g.size) ∧ 0 < live.rings.length ∧ (1 : Nat) ≠ 4 := by decide +kernel

theorem witness_RingsSetUp : rests live = true ∧ live.dev.hostReady = true ∧ live.dev.castOnPhase ≠ 0xFE ∧ (live.ring 31).enable = false ∧
    (live.ring 31).enabled = false ∧ (live.ring 31).drained = true ∧
    ((ring0 (fun (g : Ring) => { g with enabled := true, outstanding := 1 })).ring 0).drained = false ∧
    ((ring0 (fun (g : Ring) => { g with enabled := true, outstanding := 1 })).ring 0).enabled = true ∧
    rests (ring0 (fun (g : Ring) => { g with enabled := true, outstanding := 1 })) = true := by decide +kernel

/-- Ring 0 with two entries to fetch. -/
def fetchable : State := ring0 (fun (g : Ring) => { g with enable := true, enabled := true, sqTail := 2 })

/-- A command that waits for the hold. -/
def waitingState (e p : List Byte) : State := (withJob job1).updRing 0 (fun (g : Ring) => { g with waiting := some ⟨e, 1, p, false⟩ })

theorem witness_RingWork :
    (rests fetchable = true ∧ fetchable.admin.latched = none ∧ fetchable.dev.fwActivating = false ∧ fetchable.nextRing = some 0) ∧
    (let s := waitingState courseEntry descBytes1
     let c := s.cmd (.ring 0) (ioOf descBytes1) ⟨courseEntry, 1⟩
     rests s = true ∧ s.waitingRings.head? = some 0 ∧ (s.ring 0).waiting.isSome = true ∧ opcodeRow (.ring 0) c.tag.rev c.tag.opcode = some 0x0024 ∧
      s.jobFault c.tag 0x0024 = false) ∧
    (let e := entP 0x0042 32 [(8, 4, 1), (40, 4, 1), (44, 1, 2)]
     let s := waitingState e []
     let c := s.cmd (.ring 0) (ioOf []) ⟨e, 1⟩
     s.waitingRings.head? = some 0 ∧ opcodeRow (.ring 0) c.tag.rev c.tag.opcode = some 0x0042 ∧ s.jobFault c.tag 0x0042 = false) ∧
    (let s := { live with hold := [(.panel 0, 3)] }
     rests s = true ∧ s.heldFor (.panel 0) = [3] ∧ (s.queue (.panel 0)).length < 64) ∧
    (let s := ring0 (fun (g : Ring) => { g with held := [cplOf live (ent 0x0061 [])] })
     rests s = true ∧ (s.ring 0).held = [cplOf live (ent 0x0061 [])] ∧ (s.ring 0).cqFull = false ∧ s.dev.fwActivating = false ∧
      ({ s with dev := { s.dev with fwActivating := true } } : State).dev.fwActivating = true) := by decide +kernel

theorem witness_Interrupts : rests live = true ∧ (live.intr.msix[65]?).map (·.masked) = some true ∧ live.intr.fnMask = false ∧
    (({ live with intr := { live.intr with msix := live.intr.msix.set 65 ⟨0x1000, 7, false⟩ } } : State).intr.msix[65]?).map (·.masked) =
      some false := by decide +kernel

def gaugeRec1 : GaugeRec := ⟨BitVec.ofNat 64 (5 * 2 ^ 32), 100, 65536000, 0, 0, 1⟩

/-- A gauge that numbers cycles. -/
def gauged (g : Gauge) : State := { live with gauge := g }

theorem witness_RegistersRead : rests (gauged { Gauge.reset with records := [gaugeRec1] }) = true ∧
    (gauged { Gauge.reset with records := [gaugeRec1] }).gauge.records.head? = some gaugeRec1 ∧ rests live = true ∧ live.gauge.records = [] := by
  decide +kernel

/-- A token that permits everything. -/
def tokened : State :=
  { live with dbg := { live.dbg with token := some { permissions := 0xF, sequence := 1, notAfter := 0, digest := [] }, obsControl := 3 } }

theorem witness_RegistersWritten : rests live = true ∧ live.jobs = [] ∧ rests (withJob job1) = true ∧ (withJob job1).jobs ≠ [] ∧
    (0x3FFFC : Nat) < 0x40000 ∧ live.gaugeRefused 0 = false ∧ (gauged { Gauge.reset with cycDet := true }).gaugeRefused 0x00100015 = false ∧ (1 : Word).getLsbD 0 = true ∧
    (2 : Word).getLsbD 0 = false ∧ live.permitted 0 = false ∧ tokened.permitted 0 = true ∧ rests tokened = true := by decide +kernel

/-- A job whose tensor the host may not write. -/
def closedJob : Job := { job1 with tensors := [{ tensorOf tensorBytes with stepWritten := true, hostWritable := false }] }

/-- The last byte of the staging pool is barred, the byte after it is not; a byte of a step-written tensor of the host is dropped. -/
theorem witness_WindowWritten :
    (let s := withJob job1
     rests s = true ∧ Memory.wf s.mem.cells = true ∧ s.stash.hibernate = none ∧ s.pw.module = 0 ∧ s.coldStack 0x20003F 1 = false ∧
      s.barred 0x20003F = false ∧ s.writeDropped 0x20003F = false ∧ s.mem.poison = [] ∧ s.bar2Holds 0x20003F 1 = false ∧ s.ringsAt 0x20003F 1 = [] ∧ s.coldStack 0x9BFFF 1 = false ∧
      s.barred 0x9BFFF = true ∧ s.barred 0x9C000 = false ∧ s.dev.bar2Base = 0) ∧
    (let s := withJob closedJob
     rests s = true ∧ s.coldStack 0x200000 1 = false ∧ s.barred 0x200000 = false ∧ s.writeDropped 0x200000 = true) := by decide +kernel

/-- A stack in self-refresh below page 0. -/
def coldState : State :=
  { live with mem := { live.mem with stackTab := List.replicate 12 { Stack.reset with step := 5 } } }

theorem witness_WindowRead :
    (let s := withJob job1
     s.barred 0x200000 = false ∧ s.poisonedAt 0x200000 = false ∧ s.barred 0x60000 = true) ∧
    (let s := { withJob job1 with mem := { live.mem with poison := [0x8000] } }
     rests s = true ∧ s.coldStack 0x200000 64 = false ∧ s.barred 0x200000 = false ∧ s.poisonedAt 0x20003F = true ∧ s.poisonedAt 0x200040 = false) ∧
    ((withJob job1).bar2Holds 0x200000 64 = false ∧ (withJob job1).pw.module = 0) ∧
    (let s := { live with pw := { live.pw with module := 4 } }
     rests s = true ∧ s.pw.module = 4) ∧
    (let s := { live with pw := { live.pw with module := 3 } }
     rests s = true ∧ s.pw.module = 3) ∧
    (rests coldState = true ∧ coldState.pw.module = 0 ∧ coldState.coldStack 0 1 = true) ∧
    (let w : Bar2Wait := { since := 5, addr := 0, len := 1, data := none }
     let s := { coldState with bar2Wait := [{ w with addr := 64 }, w], stitch := 1000005 }
     rests s = true ∧ s.bar2Wait = [{ w with addr := 64 }] ++ w :: [] ∧ w.addr = 0 ∧ s.coldStack 0 w.len = true ∧ w.since + 1000000 ≤ s.stitch ∧
      ({ s with stitch := 1000004 } : State).stitch < w.since + 1000000) := by decide +kernel

theorem witness_HostInterface : rests live = true ∧ live.dev.castOnComplete = true ∧ min 6 live.cfg.resetSpeed = 6 ∧ 4 ≤ min 16 16 ∧
    live.cfg.resetSpeed = 6 ∧ min 3 6 = 3 := by decide +kernel

/-- What the tests of a sound module find; with no usable image. -/
def findings (ok : Bool) (vin : Nat) : CastOnFindings :=
  { vin := vin, serial := 0x77, stepping := 1, stashChannels := 0xFFFF, imageAOk := ok, imageBOk := false, slotAOk := false, slotBOk := false
    pcieSpeed := 5, pcieWidth := 16, failedStacks := [], failedRows := [], failedNeedles := [], failedEngines := [], failedGroups := [], links := [], presence := true, vinHeld := 10000000, cables := []
    dieTempWest := 40, dieTempEast := 41, smbusStrap := 1, refclk := true }

theorem witness_CastOn : State.reset.advance 9 = State.reset ∧ State.reset.stage.good = false ∧ 4300 ≤ (findings true 4300).vin ∧
    (findings true 4300).vin ≤ 6200 ∧ State.reset.stage.overvolt = false ∧ State.reset.stage.lost = false ∧ (findings true 4300).presence = true ∧
    10000000 ≤ (findings true 4300).vinHeld ∧ ({ findings true 4300 with presence := false } : CastOnFindings).presence = false ∧
    ({ findings true 4300 with vinHeld := 9999999 } : CastOnFindings).vinHeld < 10000000 ∧ (findings false 6200).imageAOk = false ∧
    (findings false 6200).imageBOk = false ∧ (findings false 6200).vin ≤ 6200 :=
  ⟨rfl, rfl, by decide +kernel⟩

/-- Cast-on in a phase, with the images' checks passed or failed. -/
def casting (p : Byte) (ok : Bool) : State :=
  { State.reset with
    stage := { State.reset.stage with good := true }
    dev := { State.reset.dev with castOnPhase := p, findings := some (findings ok 5400) }
    fw := { State.reset.fw with bankA := { State.reset.fw.bankA with valid := true, signed := ok } }
    stash := { State.reset.stash with channels := 0xFFFF } }

/-- Every phase of cast-on, with an idle queue; in phase 2 the images' checks passed or failed, and the Stash usable or not. -/
theorem witness_CastOn_phases : (∀ p ∈ ([0, 1, 2, 3, 4, 5, 6] : List Byte), (casting p true).pending = [] ∧
      ((casting p true).advance 1).up = true ∧ ((casting p true).advance 1).dev.findings.isSome = true ∧
      ((casting p true).advance 1).dev.castOnPhase = p ∧ (casting p true).castingOn = true) ∧
    ((casting 2 true).fw.afterTrial (casting 2 true).stage.latch).choose = some false ∧
    ((casting 2 false).fw.afterTrial (casting 2 false).stage.latch).choose = none ∧ (casting 2 false).fw.bankA.signed = false ∧
    (casting 2 false).fw.bankB.signed = false ∧ (casting 1 true).stash.channels = (findings true 5400).stashChannels ∧
    (0x7FFF : BitVec 16) ≠ (findings true 5400).stashChannels ∧
    ({ casting 2 true with stash := { (casting 2 true).stash with channels := (findings true 5400).stashChannels } } : State).stashOk = true ∧
    ({ casting 2 true with stash := { (casting 2 true).stash with channels := 0 } } : State).stashOk = false := by decide +kernel

/-- While cast-on is before phase 3 a configuration request is answered with retry. -/
theorem witness_HostInterface_castOn : rests (casting 2 true) = true ∧ (casting 2 true).castingOn = true ∧ (casting 2 true).dev.castOnPhase < 3 := by
  decide +kernel

/-- Without a usable image the module stands in recovery, ready for its host. -/
theorem test_cast_on_recovery : (match step (casting 2 false) with
    | .next u => decide (u.dev.castOnPhase = 0xFE) && u.dev.hostReady && u.stage.good
    | _ => false) = true := by decide +kernel

theorem witness_PowerLost : live.advance 0 = live ∧ live.stage.good = true ∧ live.up = true ∧
    (let s := { live with pw := { live.pw with vin := 4800 } }
     s.advance 0 = s ∧ s.stage.good = true ∧ 4800 ≤ s.pw.vin) ∧
    (let s := { live with stage := { live.stage with lost := true } }
     s.advance 0 = s ∧ s.stage.lost = true) := ⟨rfl, rfl, rfl, ⟨rfl, rfl, by decide⟩, ⟨rfl, rfl⟩⟩

/-- A pulse of 9,999,999 is ignored, one of 10 ms faults, one of 100 ms turns the stage off. -/
theorem witness_PowerCycle : live.advance 0 = live ∧ 9999999 < 10000000 ∧ exec (.pwrCycleAssert 0 10000000) live = .fault .pwrCycleUndefined ∧
    exec (.pwrCycleAssert 0 99999999) live = .fault .pwrCycleUndefined ∧ live.stage.good = true ∧ live.stage.overvolt = false :=
  ⟨rfl, by decide, rfl, rfl, rfl, rfl⟩

/-! ### Witnesses: courses, markers, swatches, test items -/

/-- A course of pattern 1 on needle 0, in panel 0. -/
def course0 : Course :=
  (taken (withJob job1) courseEntry).newCourse (ringCmd (withJob job1) courseEntry descBytes1) job1 (desc2 (ringCmd (withJob job1) courseEntry descBytes1).data)

/-- The course changed, at the head of panel 0, at a stitch. -/
def withCourse (j : Job) (c : Course) (at0 : Nat) : State :=
  { withJob j with courses := [c], panelQ := (withJob j).panelQ.set 0 [1], stitch := at0 }

/-- The course running on panel 0. -/
def runningCourse : Course := { course0 with status := .launched, launchedUnits := [.panel 0], launchedAt := some 5 }

/-- On link 3. -/
def linkCourse : Course := { course0 with target := 4, needles := [], panels := [], links := [3], places := [] }

def withLinkCourse (c : Course) : State := { withJob job1 with courses := [c], linkQ := (withJob job1).linkQ.set 3 [1] }

theorem witness_CoursesLaunch :
    (let s := { withCourse job1 course0 0 with pw := { live.pw with thermalHold := true } }
     rests s = true ∧ s.headCourse (.panel 0) = some course0 ∧ s.mayLaunch course0 (.panel 0) = false) ∧
    (let s := withCourse job1 course0 0
     rests s = true ∧ s.headCourse (.panel 0) = some course0 ∧ s.mayLaunch course0 (.panel 0) = true ∧ (s.batchAt course0 0).2 = true) ∧
    (let c := { course0 with fill := true, batchWait := 1000 }
     let d := { c with gatherSince := some 0 }
     (withCourse job1 c 0).headCourse (.panel 0) = some c ∧ (withCourse job1 c 0).mayLaunch c (.panel 0) = true ∧
      ((withCourse job1 c 0).batchAt c 0).2 = false ∧ c.gatherSince = none ∧ (withCourse job1 d 1000).headCourse (.panel 0) = some d ∧
      (withCourse job1 d 1000).mayLaunch d (.panel 0) = true ∧ d.fill = true ∧
      (withCourse job1 d 1000).conditionSince d 0 + d.batchWait = (withCourse job1 d 1000).stitch) ∧
    (let s := withLinkCourse linkCourse
     rests s = true ∧ s.headCourse (.link 3) = some linkCourse ∧ s.mayLaunch linkCourse (.link 3) = true) ∧
    (let c := { course0 with launchKind := 2, panels := [0, 1], launchStitch := some 100 }
     let s := withCourse job1 c 7
     rests s = true ∧ s.course? 1 = some c ∧ c.joint = true ∧ c.status = .queued ∧ c.unready.contains (.panel 0) = true ∧
      s.unitReady c (.panel 0) = true) ∧
    (let c := { runningCourse with status := .waitPages }
     (withCourse job1 c 0).courses.filter (fun d => d.job == 1 && d.status == .waitPages) = [c]) ∧
    (let c := { course0 with launchKind := 2, launchStitch := some 100 }
     c.joint = false ∧ (withCourse job1 c 100).onTime 0 100 = true ∧ (withCourse job1 c 102).onTime 0 100 = false) := by decide +kernel

/-- An overlay of the page of 0x20000, whose first byte differs. -/
def overlay1 : Overlay := { pages := [64], cells := [(0x20000, 5)] }

theorem witness_ViewsOfMemory : Memory.wf [(0x1FFFF, 3), (0x20000, 4)] = true ∧ Memory.wf overlay1.cells = true ∧
    overlay1.cells.all (fun d => overlay1.pages.contains (pageOf d.1)) = true ∧
    Memory.read (Memory.publish [(0x1FFFF, 3), (0x20000, 4)] overlay1) 0x20000 = 5 ∧
    Memory.read (Memory.publish [(0x1FFFF, 3), (0x20000, 4)] overlay1) 0x1FFFF = 3 ∧
    (View.write ⟨[overlay1], [(0x1FFFF, 3)]⟩ 0x1FFFF 9).read 0x1FFFF = 9 ∧
    (View.write ⟨[overlay1], [(0x1FFFF, 3)]⟩ 0x1FFFF 9).read 0x20000 = 5 := by decide +kernel

/-- Every needle's sample counter loaded. -/
def sampledState (c : Course) : State :=
  let s := withCourse job1 c 9
  { s with needles := s.needles.map (fun (n : Needle) => { n with sample := 40 }) }

theorem witness_CoursesRetire :
    (let s := sampledState runningCourse
     rests s = true ∧ s.course? 1 = some runningCourse ∧ (s.courses.filter (fun d => d.id == 1 || runningCourse.batchWith.contains d.id)).all s.mayRetire = true) ∧
    (let s := sampledState course0
     s.course? 1 = some course0 ∧ (s.courses.filter (fun d => d.id == 1 || course0.batchWith.contains d.id)).all s.mayRetire = false) := by
  decide +kernel

/-- A finished course whose implicit step is to commit. -/
def implicitCourse (bad : Bool) : Course := { course0 with finished := true, implicitStep := true, nonFinite := bad, status := .ended }

theorem witness_CoursesFault :
    (let s := withCourse job1 runningCourse 9
     rests s = true ∧ s.course? 1 = some runningCourse ∧ runningCourse.running = true ∧ (s.runningUnits runningCourse).contains 0 = true ∧
      0 < deviceBytes ∧ s.onlyWorking runningCourse (deviceBytes - 1) = false) ∧
    (let c := { runningCourse with startedAt := [(0, 7)] }
     let s := { withCourse job1 c 9 with pw := { live.pw with cyclesW := 1048576007 } }
     let b := { withCourse job1 c 9 with pw := { live.pw with cyclesW := 1048576006 } }
     rests s = true ∧ s.course? 1 = some c ∧ c.running = true ∧ (s.runningUnits c).contains 0 = true ∧ c.startedAt.lookup (0 / 12) = some 7 ∧
      7 + 1048576000 ≤ s.diesCycles (0 / 12) ∧ b.course? 1 = some c ∧ (b.runningUnits c).contains 0 = true ∧
      b.diesCycles (0 / 12) < 7 + 1048576000) ∧
    (let s := { withCourse job1 runningCourse 9 with mem := { live.mem with poison := [0] } }
     s.course? 1 = some runningCourse ∧ (s.runningUnits runningCourse).contains 0 = true ∧ s.poisonedAt 63 = true) ∧
    (withCourse job1 course0 9).course? 1 = some course0 ∧ course0.running = false ∧ 3 ≤ ({ course0 with aborts := 3 } : Course).aborts ∧
    (withCourse job1 (implicitCourse true) 9).implicitReady (implicitCourse true) = true ∧ (implicitCourse true).nonFinite = true ∧
    (withCourse job1 (implicitCourse false) 9).implicitReady (implicitCourse false) = true ∧ (implicitCourse false).nonFinite = false := by decide +kernel

/-- The step that the sample STEP_BEGIN opens. -/
def step0 : Step := (taken (withJob job1) beginEntry).newStep (ringCmd (withJob job1) beginEntry [])

/-- An emission of marker 4 by course 1. -/
def mark (scope : Nat) : MarkerEm :=
  { ord := 0, marker := 4, course := 1, scope := scope, needles := [0], engines := [], links := [], patternTag := 0, step := 0, lowUnit := 0
    status := .pending, parts := [0], panels := [], deviceAt := none, reports := [], lastUnit := 0 }

def markJob (scope : Nat) : Job := { job1 with markers := [mark scope] }

theorem witness_MarkersComplete :
    (let s := withCourse (markJob 1) runningCourse 9
     rests s = true ∧ s.job? 1 = some (markJob 1) ∧ (markJob 1).openMark 4 = some (mark 1) ∧ s.partDone (mark 1) 0 = true ∧ s.emitterDone (mark 1) = false) ∧
    (let s := withCourse (markJob 2) (implicitCourse false) 9
     s.job? 1 = some (markJob 2) ∧ (markJob 2).openMark 4 = some (mark 2) ∧ 2 ≤ (mark 2).scope ∧ (mark 2).status = .pending ∧ s.emitterDone (mark 2) = true) ∧
    (let j := { markJob 3 with skein := true }
     let s := withCourse j (implicitCourse false) 9
     s.job? 1 = some j ∧ j.openMark 4 = some (mark 3) ∧ j.skein = true ∧ (9 : BitVec 16) ≠ s.skein.device ∧
      (mark 3).reports.any (·.member == (9 : BitVec 16)) = false ∧ (mark 3).scope = 3 ∧ j.markFloor (mark 3) ≤ 5 ∧ (199 : Nat) < 200) ∧
    (let p := { step0 with restarted := 65536 }
     let j := { markJob 3 with skein := true, opened := some p }
     let s := withCourse j (implicitCourse false) 65540
     s.job? 1 = some j ∧ j.openMark 4 = some (mark 3) ∧ p ∈ j.opened ∧ p.number = (mark 3).step ∧ 65535 < j.markFloor (mark 3) ∧
      j.markFloor (mark 3) ≤ 65536) ∧
    (let j := { markJob 2 with skein := true }
     (withCourse j (implicitCourse false) 9).job? 1 = some j ∧ j.openMark 4 = some (mark 2) ∧ (mark 2).scope ≠ 3) := by decide +kernel

/-- A tile of needle 0 of one element. -/
def tile0 : TileRec := { op := 7, needle := 0, tensor := 9, row := 0, col := 0, batch := 0, elems := [], flag := none, eligible := true }

def tiledCourse : Course := { runningCourse with tiles := [tile0] }

/-- A swatch of that tile in a phase. -/
def swatch0 (p : SwPhase) (bits : List Byte) : Swatch :=
  { id := 1, course := 1, attempt := 0, source := 0, replica := some 1, op := 7, tile := 0, sourceBits := [1], correct := [1], replicaBits := bits
    phase := p, lastTried := none, doneAt := 0, compareWide := false, job := 1, inStep := false, view := none, reads := [], held := [] }

def swatchState (p : SwPhase) (bits : List Byte) : State := { sampledState tiledCourse with swatches := [swatch0 p bits] }

theorem witness_Swatches :
    (let s := (sampledState tiledCourse).updNeedle 0 (fun (n : Needle) => { n with sample := 1 })
     rests s = true ∧ s.course? 1 = some tiledCourse ∧ tiledCourse.tiles[0]? = some tile0 ∧ (s.needle 0).sample ≠ 0 ∧
      ((s.uncounted 0).drop ((s.needle 0).sample - 1)).head? = some (1, 0)) ∧
    (let s := swatchState .chosen []
     s.swatches.find? (fun w => w.id == 1 && w.phase == .chosen) = some (swatch0 .chosen []) ∧ s.nextServing ((swatch0 .chosen []).lastTried.getD (swatch0 .chosen []).source) [0] = some 1 ∧
      (swatch0 .chosen []).compareWide = false ∧ (Recomputed.other [3] = .correct ∧ [3] = (swatch0 .chosen []).correct ∨ Recomputed.other [3] = .other [3])) ∧
    (let w := { swatch0 .replicated [1] with doneAt := 10 }
     let s := { swatchState .replicated [1] with swatches := [w] }
     rests s = true ∧ s.swatches.find? (fun w => w.id == 1 && w.phase == .replicated) = some w ∧ s.stitch < w.doneAt ∧
      (swatch0 .replicated [1]).doneAt ≤ s.stitch) ∧
    (∀ bits ∈ ([[1], [2]] : List (List Byte)), (swatchState .replicated bits).swatches.find? (fun w => w.id == 1 && w.phase == .replicated) =
      some (swatch0 .replicated bits)) ∧ (swatch0 .replicated [1]).replicaBits = (swatch0 .replicated [1]).sourceBits ∧
    (swatch0 .replicated [2]).replicaBits ≠ (swatch0 .replicated [2]).sourceBits := by decide +kernel

/-- Needle 5 suspect, with a count of clean tiles. -/
def suspectState (clean : Nat) : State :=
  { live with
    needles := live.needles.modify 5 (fun (n : Needle) => { n with state := .suspect, clean := clean })
    stitch := 100000
    stash := { live.stash with packs := [{ id := 4, sequence := 1, bytes := [] }] } }

theorem witness_SuspectNeedles : rests (suspectState 1000000) = true ∧ ((suspectState 1000000).needles[5]?).isSome = true ∧
    ((suspectState 1000000).needle 5).state ≠ .retired ∧ ((suspectState 1000000).needle 5).isSuspect = true ∧
    1000000 ≤ ((suspectState 1000000).needle 5).clean ∧ ((suspectState 999999).needle 5).clean < 1000000 ∧
    (let s := swatchState .tiebreak [2]
     s.swatches.find? (fun w => w.id == 1 && w.phase == .tiebreak) = some (swatch0 .tiebreak [2]) ∧ s.tileOf (swatch0 .tiebreak [2]) = some (tiledCourse, tile0) ∧
      (swatch0 .tiebreak [2]).replica = some 1 ∧ s.nextServing ((swatch0 .tiebreak [2]).lastTried.getD 1) [0, 1] = some 2 ∧
      (Recomputed.correct = .correct ∧ [1] = (swatch0 .tiebreak [2]).correct ∨ Recomputed.correct = .other [1])) ∧
    (let s := suspectState 0
     let n := s.needle 5
     n.state ≠ .pending ∧ n.item = none ∧ s.needleBusy 5 = false ∧ s.underTest 5 = false ∧ n.idleSince + 100000 ≤ s.stitch ∧
      s.awake (.panel (5 / 12)) = true ∧ s.dueSoon (5 / 12) = false) := by decide +kernel

/-- The number of built-in items is not stated: whatever it is, the next item is one of a list that is not empty. -/
theorem witness_SuspectNeedles_item (l : List (Word × Word)) (n : Nat) (h : l ≠ []) : ∃ i, l[n % max l.length 1]? = some i := by
  have hl : 0 < l.length := List.length_pos_iff.mpr h
  exact ⟨_, List.getElem?_eq_getElem (Nat.lt_of_lt_of_eq (Nat.mod_lt n (by omega)) (by omega))⟩

/-- An idle item on needle 5, and one target of a self-test. -/
def item0 : TestItem := { pack := 0, item := 0, idle := true, start := 0 }

/-- A self-test of one target. -/
def test0 (u : Nat) (taken : Option Nat) : SelfTestRun :=
  { tag := (ringCmd live jobEntry []).tag, accepted := 0, testSet := 0, stopFirst := false, repeats := 1, packs := [], maxMs := 1
    targets := [⟨u, taken, none, 0, 0, 0, none, 0, 0⟩] }

theorem witness_TestItems :
    (let s := (suspectState 0).setItem 5 (some item0)
     rests s = true ∧ s.itemOn 5 = some item0 ∧ item0.idle = true) ∧
    (∀ u ∈ [143, 144], let s := { live with selfTests := [test0 u none] }
     rests s = true ∧ s.testable u = true ∧ s.atBoundary u = true ∧
      s.selfTests.any (fun r => r.targets.any (fun t => t.unit == u && t.taken.isNone && t.released.isNone)) = true) ∧
    (let s := { live with selfTests := [test0 144 none], stitch := 1000000 }
     s.selfTests.findSome? (fun r => (r.targets.find? (fun t => t.unit == 144 && t.released.isNone)).map (fun t => (r, t))) =
       some (test0 144 none, ⟨144, none, none, 0, 0, 0, none, 0, 0⟩) ∧ s.releasable (test0 144 none) ⟨144, none, none, 0, 0, 0, none, 0, 0⟩ = true) := by
  decide +kernel
/-! ### Witnesses: steps, exchanges, time, the gauge -/

def stepState (p : Step) (skein : Bool) (at0 : Nat) : State := { withJob { job1 with opened := some p, skein := skein } with stitch := at0 }

theorem witness_StepsDecided :
    (let p := { step0 with phase := .running, deadline := some 1000 }
     let j : Job := { job1 with opened := some p }
     let s := stepState p false 1000
     rests s = true ∧ s.job? 1 = some j ∧ j.oldest = some p ∧ s.cutStops = false ∧ p.phase = .running ∧ j.skein = false ∧
      s.localVerdict j p = some (.frog, 8) ∧ j.committing.toList ++ j.opened.toList = [p] ∧ p.reports = [] ∧
      (stepState p false 999).localVerdict j p = none ∧ (∀ q ∈ j.committing.toList ++ j.opened.toList, q = p)) ∧
    (let p := { step0 with phase := .running, commit := some (ringCmd live jobEntry []).tag }
     let q := { step0 with number := 1, phase := .running, deadline := some 1000 }
     let j : Job := { job1 with opened := some q, committing := some p }
     let s := withCourse j { course0 with inStep := true, step := 0 } 1000
     rests s = true ∧ s.job? 1 = some j ∧ j.oldest = some p ∧ s.cutStops = false ∧ j.committing = some p ∧ j.opened = some q ∧
      q.number ≠ p.number ∧ s.localVerdict j p = none ∧ s.localVerdict j q = some (.frog, 8) ∧ j.skein = false) ∧
    (let p := { step0 with deadline := some 1000, commit := some (ringCmd live jobEntry []).tag }
     (stepState p false 1000).localVerdict { job1 with opened := some p } p = some (.pass, 0) ∧
     (stepState { p with nonFinite := true } false 1000).localVerdict job1 { p with nonFinite := true } = some (.skip, 0)) ∧
    ({ withJob job1 with cut := some (cutOf .held) } : State).cutStops = true := by decide +kernel

theorem witness_VerdictsExchanged :
    let p := { step0 with phase := .decided, deadline := some 1000, verdict := some (.pass, 900) }
    let j : Job := { job1 with opened := some p, skein := true }
    let s := stepState p true 1001000
    rests s = true ∧ s.job? 1 = some j ∧ j.skein = true ∧ (9 : BitVec 16) ≠ s.skein.device ∧ j.oldest = some p ∧ p.phase = .decided ∧
    s.cutStops = false ∧ 1000 + 1000000 ≤ s.stitch ∧ p.verdict.isSome = true ∧ (stepState p true 1000999).stitch < 1000 + 1000000 ∧
    (j.opened.toList ++ j.committing.toList).any (·.number == 0) = true ∧ (j.opened.toList ++ j.committing.toList).any (·.number == 1) = false ∧
    j.freshFrom ≤ 7 ∧ 6 < ({ j with freshFrom := 7 } : Job).freshFrom ∧ j.wanted ≤ 1 ∧ j.verdicts.any (fun r => r.1 == 9 && r.2.1 == 1) = false ∧ p.reports.any (·.1 == 9) = false ∧
    p.restarted ≤ p.restarted ∧ p.deadline.all (fun d => decide (1001000 ≤ d + 1000000)) = true ∧ (p.deadline = some 1000 ∧ 1000 + 1000000 < 1001001) ∧ 4 < ({ p with restarted := 5 } : Step).restarted ∧
    ({ p with reports := [(9, .pass, 5)] } : Step).reports.any (·.1 == 9) = true := by decide +kernel

theorem witness_StepsRestart :
    (let p := { step0 with phase := .restart 65536 }
     let j : Job := { job1 with opened := some p }
     rests (stepState p false 65536) = true ∧ (stepState p false 65536).job? 1 = some j ∧ j.oldest = some p ∧ p.phase = .restart 65536 ∧
      65536 ≤ (stepState p false 65536).stitch ∧ (stepState p false 65536).cutStops = false ∧ (stepState p false 65536).dueImplicit 1 = [] ∧
      (stepState p false 65535).stitch < 65536) ∧
    (let tag := (ringCmd live jobEntry []).tag
     let j : Job := { job1 with opened := some step0, dropUntil := some 500, beginWait := some tag }
     ({ withJob j with stitch := 500 } : State).job? 1 = some j ∧ j.dropUntil = some 500 ∧ j.beginWait = some tag ∧
      ({ job1 with dropUntil := some 500 } : Job).beginWait = none ∧ (499 : Nat) < 500) := by decide +kernel

/-- A JOB_OPEN that waits for its members. -/
def opening0 (answers : List Answer) : Opening := { job := job1, tag := (ringCmd live jobEntry []).tag, accepted := 0, answers := answers }

def exchange9 : OpenExchange := { member := 9, seed := 5, firstStep := 0, memberCount := 2, sumFormat := 0, usedIndices := [], agrees := true }

def answer9 : Answer := ⟨exchange9, 0⟩

theorem witness_OpenExchanges :
    let s := { live with openings := [opening0 []] }
    let s2 := { live with openings := [opening0 [answer9]] }
    rests s = true ∧ exchange9.member ≠ s.skein.device ∧ s.openings.find? (fun o => o.job.id == 1) = some (opening0 []) ∧
    ((opening0 []).present s.stitch).any (·.member == exchange9.member) = false ∧
    ((opening0 [answer9]).present 10000000000).any (·.member == exchange9.member) = false ∧ rests s2 = true ∧
    s2.openings.find? (fun o => o.job.id == 1) = some (opening0 [answer9]) ∧
    ((opening0 [answer9]).present s2.stitch).any (·.member == exchange9.member) = true ∧ live.openings.find? (fun o => o.job.id == 1) = none ∧
    ({ s with stitch := 10000000000 } : State).openings.find? (fun o => o.job.id == 1 && decide (o.accepted + 10000000000 ≤ 10000000000)) =
      some (opening0 []) ∧ s.openings.find? (fun o => o.job.id == 1 && decide (o.accepted + 10000000000 ≤ 9999999999)) = none ∧
    (let lowest : OpenExchange := { exchange9 with member := 0, seed := 6 }
     ((opening0 [⟨lowest, 0⟩]).present s.stitch).any (fun y => y.member == 0 && !sameOpen (s.ownExchange job1) y) = true ∧
      ((opening0 [answer9]).present s.stitch).any (fun y => y.member == 0 && !sameOpen (s.ownExchange job1) y) = false) := by decide +kernel

/-- Link 31 in a state. -/
def linked (n : Nat) : State := live.updLink 31 (fun (l : Link) => { l with state := n })

def election (seq : Word) : ElectionMsg := { source := 9, sequence := seq, members := [], announce := none }

theorem witness_TimeKept :
    rests (linked 2) = true ∧ ((linked 2).link 31).state = 2 ∧ ((linked 3).link 31).state = 3 ∧
    ({ live with time := { live.time with role := 1 } } : State).time.role = 1 ∧ live.skein.parent ≠ some 31 ∧
    (let s := { live with skein := { live.skein with parent := some 31 }, time := { live.time with unaligned := false } }
     rests s = true ∧ s.skein.parent = some 31 ∧ s.time.unaligned = false) ∧
    (let s := { linked 2 with skein := { live.skein with seen := [(9, 1)], member := true } }
     rests s = true ∧ s.skein.seen.contains ((election 1).source, (election 1).sequence) = true ∧
      s.skein.seen.contains ((election 2).source, (election 2).sequence) = false ∧ (s.link 31).state = 2 ∧ s.skein.member = true) := by decide +kernel

/-- A master whose last message left at stitch 0; a member that is unaligned, that joins, or that follows. -/
def timed (t : Nat) (tm : Time) : State := { live with stitch := t, time := tm }

theorem witness_TimeKept_follow :
    (let m := { live.time with role := 1, lastSent := some 0 }
     rests (timed 125000 m) = true ∧ (timed 125000 m).time.role = 1 ∧ (timed 125000 m).time.lastSent.all (fun x => decide (x + 125000 ≤ 125000)) = true ∧
      (timed 124999 m).time.lastSent = some 0 ∧ (timed 124999 m).stitch < 0 + 125000 ∧ live.time.lastSent = none) ∧
    (timed 5 { live.time with unaligned := true }).time.unaligned = true ∧
    (let b := timed 5 { live.time with realign := true }
     b.time.unaligned = false ∧ b.time.joining = false ∧ b.time.realign = true ∧ live.time.realign = false) ∧
    (let b := timed 5 { live.time with joining := true }
     b.time.unaligned = false ∧ b.time.joining = true ∧ b.jobs = []) ∧
    (let b := timed 5 { live.time with tookOver := true }
     b.time.unaligned = false ∧ b.time.joining = false ∧ b.time.tookOver = true) := by decide +kernel

/-- A member that heard its last time message at stitch 0. -/
def memberAt (t : Nat) (since : Option Nat) : State :=
  { live with
    stitch := t
    skein := { live.skein with member := true, device := 7 }
    time := { live.time with role := 3, lastMaster := 0, standbys := [5, 7], holdoverStart := since, expired := false } }

theorem witness_Holdover : rests (memberAt 3000000 none) = true ∧ (memberAt 3000000 none).skein.member = true ∧ (memberAt 3000000 none).time.role ≠ 1 ∧
    (memberAt 3000000 none).time.lastMaster + 3000000 ≤ (memberAt 3000000 none).stitch ∧
    (memberAt 2999999 none).stitch < (memberAt 2999999 none).time.lastMaster + 3000000 ∧
    (let s := memberAt 16000000 none
     s.time.standbys.findIdx? (· == s.skein.device) = some 1 ∧ s.time.lastMaster + 8000000 * (1 + 1) ≤ s.stitch) ∧
    (memberAt 7999999 none).stitch < (memberAt 7999999 none).time.lastMaster + 8000000 ∧
    (let s := memberAt 10003000000 (some 3000000)
     s.time.holdoverStart = some 3000000 ∧ 3000000 + 10000000000 ≤ s.stitch ∧ s.time.expired = false) ∧
    (memberAt 10002999999 (some 3000000)).stitch < 3000000 + 10000000000 := by decide +kernel

/-- The last PPS edge at a stitch, with a count of good ones. -/
def edged (p good t src : Nat) : State :=
  { live with
    stitch := t
    cfg := { live.cfg with castTimeSource := src }
    time := { live.time with lastPps := some p, ppsGood := good, firstLock := true, outputControl := 1, lastPulse := 0 } }

theorem witness_References :
    rests (edged 0 2 1000000100 0) = true ∧ (edged 0 2 1000000100 0).time.lastPps = some 0 ∧ 2 + 1 < 4 ∧
    (let s := edged 0 3 999999900 0
     rests s = true ∧ 999999900 ≤ s.stitch - 0 ∧ s.stitch - 0 ≤ 1000000100 ∧ 3 ≤ s.time.ppsGood ∧ s.cfg.castTimeSource = 0 ∧ (edged 0 3 999999900 1).cfg.castTimeSource ≠ 0 ∧
      s.time.firstLock = true) ∧
    (edged 0 4 3000000000 0).cfg.castTimeSource = 0 ∧ 0 + 3000000000 ≤ (edged 0 4 3000000000 0).stitch ∧
    (edged 0 4 1000000000 0).time.outputControl.getLsbD 0 = true ∧
    (edged 0 4 1000000000 0).time.lastPulse / 1000000000 < (edged 0 4 1000000000 0).stitch / 1000000000 ∧
    (edged 0 4 0 1).cfg.castTimeSource = 1 ∧ (edged 0 4 0 1).time.firstLock = true ∧
    ¬ ((edged 0 3 1000000101 0).stitch - 0 ≤ 1000000100) ∧ (1 : Nat) < 4 ∧
    (let b := { edged 0 4 0 0 with time := { (edged 0 4 0 0).time with firstLock := false } }
     b.time.role = 3 ∧ b.time.firstLock = false ∧ b.jobs = []) := by decide +kernel

/-- A gauge of mains cycles from this module's pin, its last edge at `e`. -/
def edgedGauge (st : Nat) (e : Option Int) : Gauge :=
  { Gauge.reset with control := 0x5, cycDet := true, state := st, lastEdge := e, periodQ := 20000000 * 65536, active := true }

def gaugedAt (t : Nat) (g : Gauge) : State := { live with stitch := t, gauge := g }

theorem witness_GaugeMeasures_edges : rests (gaugedAt 30000000 (edgedGauge 2 none)) = true ∧ gaugeSource (edgedGauge 2 none).control ≠ 0 ∧
    gaugeMode (edgedGauge 2 none).control ≠ 0 ∧ (edgedGauge 2 none).cycDet = true ∧ (edgedGauge 2 none).lastEdge = none ∧
    signed 32 (edgedGauge 2 none).delay.toNat = 0 ∧ (edgedGauge 2 none).bounce = none ∧
    ({ edgedGauge 2 none with bounce := some false } : Gauge).bounce = some false ∧ (edgedGauge 2 none).bounce ≠ some false ∧
    (∀ d : Fin 41, (edgedGauge 2 (some 20000271)).glitch (30000000 + (230 + (d.val : Int)) - 20000271) = true) ∧ (edgedGauge 2 (some 20000271)).state = 2 ∧
    (∀ d : Fin 41, (edgedGauge 1 (some 20000230)).glitch (30000000 + (230 + (d.val : Int)) - 20000230) = false) ∧ (edgedGauge 1 (some 20000230)).state = 1 ∧
    (edgedGauge 2 (some 20000230)).state ≠ 1 := by decide +kernel

theorem witness_GaugeMeasures_rest :
    gaugeQuad 0x00200015 = true ∧ gaugeSource 0x00200015 ≠ 0 ∧
    (let s := gaugedAt 50000000 (edgedGauge 2 (some 10000000))
     let g := s.gauge
     rests s = true ∧ g.lastEdge = some 10000000 ∧ (g.state = 2 ∨ g.state = 3 ∨ g.state = 5) ∧ g.periodQ ≠ 0 ∧ g.coasted < 63 ∧
      (10000000 : Int) + (((g.coasted + 1) * g.periodQ / 65536 : Nat) : Int) ≤ s.stitch ∧ 3 * g.periodQ < ((s.stitch : Int) - 10000000) * 131072) ∧
    (let s := { linked 2 with skein := { live.skein with gaugeSeen := [(gaugeRec1.source, gaugeRec1.sequence)] } }
     (s.link 31).state = 2 ∧ s.skein.gaugeSeen.contains (gaugeRec1.source, gaugeRec1.sequence) = true) ∧ ((linked 3).link 31).state ≠ 2 ∧
    ({ Gauge.reset with records := [{ gaugeRec1 with value := BitVec.ofNat 64 (6 * 2 ^ 32) }] } : Gauge).latest =
      some { gaugeRec1 with value := BitVec.ofNat 64 (6 * 2 ^ 32) } ∧
    (let s := linked 2
     (s.link 31).state = 2 ∧ s.skein.gaugeSeen.contains (gaugeRec1.source, gaugeRec1.sequence) = false ∧
      gaugeSource s.gauge.control ≠ 1) ∧
    (let s := { gauged { Gauge.reset with state := 2, records := [gaugeRec1], lastPulse := some 4 } with stitch := 100, time := { live.time with outputControl := 2 } }
     rests s = true ∧ s.cycOutLive = true ∧ s.gauge.lastPulse = some 4 ∧ 4 < s.gauge.readAt s.stitch / 2 ^ 32) ∧
    (let s := gauged { Gauge.reset with lastPulse := some 4 }
     s.gauge.readAt s.stitch / 2 ^ 32 ≤ 4) := by decide +kernel
/-! ### Witnesses: links, frames, slots, cuts, cable engines -/

/-- Link 31 with attempts, up since stitch 0. -/
def trained (st att t : Nat) : State :=
  { live.updLink 31 (fun (l : Link) => { l with state := st, attempts := att, upSince := 0 }) with stitch := t }

theorem witness_LinkStates : rests (trained 0 2 0) = true ∧ ((trained 0 2 0).link 31).state = 0 ∧ ((trained 0 2 0).link 31).attempts < 3 ∧
    3 ≤ ((trained 0 3 0).link 31).attempts ∧ ((trained 1 0 0).link 31).state = 1 ∧ ((trained 2 0 1000000).link 31).state = 2 ∧
    ((trained 2 0 1000000).link 31).up = true ∧ ((trained 3 0 0).link 31).up = true ∧ ((trained 0 3 0).link 31).up = false ∧
    ((trained 2 0 1000000).link 31).upSince + 1000000 ≤ (trained 2 0 1000000).stitch ∧
    (trained 2 0 999999).stitch < ((trained 2 0 999999).link 31).upSince + 1000000 ∧
    ((trained 0 3 1000000000).link 31).triedAt + 1000000000 ≤ (trained 0 3 1000000000).stitch ∧
    (trained 0 3 999999999).stitch < ((trained 0 3 999999999).link 31).triedAt + 1000000000 ∧ 31 < (trained 0 2 0).links.length ∧
    (trained 1 0 0).txq = [] ∧ (∀ l ∈ (trained 1 0 0).links, l.resend = []) ∧ ((trained 1 0 0).sweep.link 31).state = 1 ∧
    ((trained 0 2 0).sweep.link 31).state ≠ 1 ∧ ((trained 2 0 1000000).sweep.link 31).up = true ∧ ((trained 0 3 0).sweep.link 31).up = false := by
  decide +kernel

/-- A ring of two modules, this one of serial 0x77. -/
def twoWires : List Wire := [⟨0x77, 0, 0x99, 16⟩, ⟨0x99, 0, 0x77, 16⟩]

def twoInfos : List MemberInfo := [⟨0x77, 0, 1, false, 0, 0, false⟩, ⟨0x99, 0, 1, false, 0, 0, false⟩]

def serialState : State := { live with dev := { live.dev with serial := 0x77 } }

theorem witness_SkeinForms : rests serialState = true ∧ serialState.jobs.any (·.skein) = false ∧
    (topologyOf twoWires (twoInfos.map (·.serial))).map (fun p => (p.dims, p.order, p.order.findIdx? (· == serialState.dev.serial))) =
      some (1, [0x77, 0x99], some 0) ∧
    (topologyOf twoWires (twoInfos.map (·.serial))).map (fun p => p.order.findIdx? (· == live.dev.serial)) = some none ∧
    (topologyOf [] (twoInfos.map (·.serial))).isNone = true ∧ (withJob { job1 with skein := true }).jobs.any (·.skein) = true := by decide +kernel

/-- Link 31 up with a frame sent at stitch 0. -/
def replaying (tries t : Nat) : State :=
  { (linked 2).updLink 31 (fun (l : Link) => { l with replay := [{ frame := { frameOf 224 with seq := 0xFFFF }, sentAt := 0, tries := tries, course := none, channel := 3, port := 0, slot := 0, entry := 0 }] }) with stitch := t }

theorem witness_FramesAcknowledged : rests (replaying 1 2048) = true ∧ (replaying 1 2048).sweep = replaying 1 2048 ∧ ((replaying 1 2048).link 31).up = true ∧
    ((replaying 1 2048).link 31).replay.any (fun r => r.frame.seq == 0xFFFF && decide (r.sentAt + 2048 ≤ (replaying 1 2048).stitch)) = true ∧
    ((replaying 1 2047).link 31).replay.any (fun r => r.frame.seq == 0xFFFF && decide (r.sentAt + 2048 ≤ (replaying 1 2047).stitch)) = false ∧
    (((replaying 7 0).link 31).replay.find? (fun r => r.frame.seq == 0xFFFF)).map (·.tries) = some 7 ∧
    (((replaying 8 0).link 31).replay.find? (fun r => r.frame.seq == 0xFFFF)).map (·.tries) = some 8 := by decide +kernel

/-- A pattern of one TRANSFER that receives 64 bytes over link 31 under number 7. -/
def transferImage : List Byte :=
  overlayBytes imageBody 64 (record 64 [(0, 2, 0x30), (4, 2, 0), (6, 2, 0xFFFF), (8, 2, 0xFFFF), (10, 2, 0xFFFF), (12, 4, 0xFFFFFFFF), (16, 1, 3), (17, 1, 4),
    (23, 1, 31), (24, 2, 7)])

def transferJob : Job := { job1 with patterns := [⟨1, transferImage⟩], skein := true, linkIndex := 0 }

/-- The course that receives it, running on link 31 with frames it has. -/
def transferCourse (rx : List (Word × Word × List Byte)) : Course :=
  { linkCourse with links := [31], status := .launched, launchedUnits := [.link 31], awaiting := 1, rx := rx }

def transferState (rx : List (Word × Word × List Byte)) : State :=
  { linked 2 with jobs := [transferJob], courses := [transferCourse rx], linkQ := live.linkQ.set 31 [1] }

/-- The frame of the transfer's first unit. -/
def unit0 : Frame := { frameOf 224 with frameType := 0x40, stream := 0xF0007, dest := live.skein.device }

theorem witness_FramesArrive_taken : rests (linked 2) = true ∧ (linked 2).sweep = linked 2 ∧ ((linked 2).link 31).up = true ∧ ((linked 1).link 31).state ≠ 0 ∧
    ((linked 2).link 31).state = 2 ∧ (frameOf 224).frameType = 0x30 ∧ unit0.frameType ≠ 0x30 ∧ unit0.frameType = 0x40 ∧
    ((trained 0 0 0).link 31).state = 0 ∧ ((trained 1 0 0).link 31).state = 1 ∧ 2 ≤ ((linked 2).link 31).state ∧
    (linked 2).toForerunner 31 = false ∧ unit0.dest = (linked 2).skein.device ∧ knownTypes.contains 0x50 = false ∧ knownTypes.contains 0x40 = true := by
  decide +kernel

theorem witness_FramesArrive_placed :
    (let s := transferState []
     rests s = true ∧ unit0.flags.getLsbD 2 = false ∧ s.toForerunner 31 = false ∧
      s.jobs.find? (fun j => j.skein && j.linkIndex == unit0.stream.toNat / 0x100000) = some transferJob ∧ transferJob.dropUntil = none ∧
      (({ transferJob with dropUntil := some 5 } : Job).dropUntil = some 5 ∧ s.stitch < 5) ∧
      ((s.courses.filter (fun c => c.target == 4 && c.running && c.kind == .course)).findSome?
        (fun c => (s.expectOf c 31 unit0).map (fun e => (c, e)))).map (fun e => (e.1.id, e.2.2.2)) = some (1, 0) ∧
      ((s.courses.filter (fun c => c.target == 4 && c.running && c.kind == .course)).findSome?
        (fun c => (s.expectOf c 31 { unit0 with offset := 1 }).map (fun e => (c, e)))).isNone = true) ∧
    live.jobs.find? (fun j => j.skein && j.linkIndex == unit0.stream.toNat / 0x100000) = none ∧
    (transferCourse [(0xF0007, 0, [])]).rx.any (fun r => r.1 == unit0.stream && r.2.1 == unit0.offset) = true := by decide +kernel

theorem witness_SlotsSend : rests { live with stitch := 2048 } = true ∧ ({ live with stitch := 2048 } : State).stitch % 2048 = 0 ∧
    ({ live with stitch := 2049 } : State).stitch % 2048 ≠ 0 := by decide +kernel

/-- A cut at 2,048, at a stitch. -/
def cutAt (x : Cut) (t : Nat) : State := { withJob job1 with cut := some x, stitch := t }

theorem witness_CutsRun :
    (rests (cutAt (cutOf .pending) 2048) = true ∧ (cutAt (cutOf .pending) 2048).sweep.cut = some (cutOf .pending) ∧
      (cutOf .pending).phase = .pending ∧ (cutOf .pending).stitch ≤ (cutAt (cutOf .pending) 2048).stitch ∧
      (cutAt (cutOf .pending) 2047).stitch < (cutOf .pending).stitch) ∧
    (let c := { transferCourse [] with launchedAt := some 2047 }
     let s := { transferState [] with courses := [c], cut := some (cutOf .stopping), stitch := 10002048 }
     rests s = true ∧ s.sweep.cut = some (cutOf .stopping) ∧ s.course? 1 = some c ∧ c.target = 4 ∧ c.running = true ∧ 0 < c.awaiting ∧ c.launchedAt.getD s.stitch < (cutOf .stopping).stitch ∧
      (cutOf .stopping).stitch + 10000000 ≤ s.stitch ∧ s.cutReady (cutOf .stopping) = false) ∧
    (cutAt (cutOf .stopping) 4096).cutReady (cutOf .stopping) = true ∧ (cutOf .stopping).skein = false ∧
    (let x := { cutOf .pending with skein := true, tag := some (ringCmd live jobEntry []).tag }
     x.skein = true ∧ x.tag.isSome = true ∧ (9 : BitVec 16) ≠ live.skein.device ∧ x.reports.any (fun r => r.1 == (9 : BitVec 16)) = false ∧
      x.phase = .pending ∧ x.stitch + 1000000000 ≤ (cutAt x 1000002048).stitch ∧ (cutAt x 1000002047).stitch < x.stitch + 1000000000) ∧
    (let tag := (ringCmd live jobEntry []).tag
     let x := { cutOf .held with resume := some (tag, 8192) }
     x.resume = some (tag, 8192) ∧ x.phase = .held ∧ 8192 ≤ (cutAt x 8192).stitch ∧ x.tag = none) := by decide +kernel

/-- A SOLVE of structure 1 with phases, its solution into tensor 9, on engine 0. -/
def solveEntry (phases : Nat) : List Byte := entP 0x0042 32 [(8, 4, 1), (40, 4, 1), (44, 1, phases)]

def solveCourse (phases : Nat) : Course :=
  let c := ringCmd (withJob job1) (solveEntry phases) (record 32 [(0, 4, 9)])
  { (taken (withJob job1) (solveEntry phases)).newSolve c job1 (structOf structBytes 1) with
    status := .launched, launchedUnits := [.engine 0], run := some ⟨0, 0, some 1000, none, false, none⟩ }

def solveState (c : Course) (pool : List Nat) (t : Nat) : State :=
  { withJob { job1 with pool := pool } with
    courses := [c], engineQ := live.engineQ.set 0 [1], stitch := t, engines := live.engines.map (fun (e : Engine) => { e with up := true }) }

theorem witness_EnginesRun :
    (let c := { solveCourse 2 with status := .queued, launchedUnits := [], run := none }
     let s := solveState c job1.pool 0
     let off := { s with engines := s.engines.modify 0 (fun (e : Engine) => { e with up := false }) }
     let hot := { s with pw := { s.pw with thermalHold := true } }
     live.headCourse (.engine 7) = none ∧ rests s = true ∧ s.headCourse (.engine 0) = some c ∧ s.mayLaunch c (.engine 0) = true ∧
      c.engines.any (fun k => !((s.engines[k]?).map (·.up)).getD false) = false ∧ off.mayLaunch c (.engine 0) = true ∧
      c.engines.any (fun k => !((off.engines[k]?).map (·.up)).getD false) = true ∧ hot.mayLaunch c (.engine 0) = false) ∧
    (let c := solveCourse 2
     let s := solveState c job1.pool 1000
     s.course? 1 = some c ∧ (s.running? c).map (fun e => (e.1.id, e.2.1.handle, e.2.2.1.phases, e.2.2.2.deadline)) = some (1, 1, 2, some 1000) ∧
      bitOf 2 1 = true ∧ 1000 ≤ s.stitch ∧ c.run.map (·.deadlineCut) = some none ∧ (solveState c [] 999).stitch < 1000 ∧
      (job1.startVersion c 1).isSome = true ∧ c.status = .launched ∧ c.kind = .solve) ∧
    (live.onUnit (.engine 7)).isNone = true ∧ (((solveState (solveCourse 2) [] 0).engines[7]?).map (·.up)).getD false = true ∧
    (((solveState (solveCourse 2) [] 0).engines[8]?).map (·.up)).getD false = false := by decide +kernel

/-- The pages that the results of a SOLVE add to its staging. -/
def resultPages (c : Course) (s : State) (j : Job) : Option Bool :=
  (s.running? c).bind (fun e => (j.startVersion c e.2.2.1.handle).map (fun v0 =>
    let v := e.2.1.operate j.tauLog2 (s.solveReq c j e.2.1 e.2.2.1 e.2.2.2) v0 (e.2.1.factorGen + ((c.progress.filter (·.handle == e.2.2.1.handle)).map (·.made)).sum)
    let o := s.solveOut c j e.2.1 e.2.2.1 v
    let d := o.writes.foldl Done.put (s.doneOf c)
    s.poolServes j ((d.view.ovs.headD Overlay.empty).added c.staging)))

theorem witness_EnginesRun_end :
    resultPages (solveCourse 2) (solveState (solveCourse 2) job1.pool 900) { job1 with pool := job1.pool } = some true ∧
    resultPages (solveCourse 6) (solveState (solveCourse 6) [] 900) { job1 with pool := [] } = some false := by decide +kernel
/-! ### Witnesses: memory, the Stash, power, scale state, firmware, every command -/

/-- The stack of page 0 at a thermal step, granule 0 poisoned or not. -/
def steppedState (k : Nat) (poison : List Nat) : State :=
  { live with mem := { live.mem with stackTab := List.replicate 12 { Stack.reset with step := k }, poison := poison } }

/-- A job that takes all of a small memory, its page 0 with eight corrected errors and two repairs. -/
def fullJob (pool : List Nat) : Job := { job1 with stagingBase := 0, tensors := [], pool := pool }

def worn (pool : List Nat) (repairs : Nat) : State :=
  { withJob (fullJob pool) with
    mem := { live.mem with limit := 120, corrected := List.replicate 8 (0, 0), repairs := [(0, repairs)] }, stitch := 86400000000000 }

theorem witness_MemoryErrors_scrub : rests (steppedState 3 []) = true ∧
    ((steppedState 3 []).mem.stackTab.getD ((steppedState 3 []).homeStack (pageOf (deviceBytes - 1))) Stack.reset).step < 4 ∧
    deviceBytes - 1 < deviceBytes ∧ (steppedState 3 []).poisonedAt (deviceBytes - 1) = false ∧ (steppedState 3 [0]).poisonedAt 63 = true ∧
    4 ≤ ((steppedState 4 []).mem.stackTab.getD ((steppedState 4 []).homeStack 0) Stack.reset).step := by decide +kernel

theorem witness_MemoryErrors_rows : rests (worn job1.pool 1) = true ∧ (worn job1.pool 1).isHole (pageOf 2047) = false ∧
    (worn job1.pool 1).rowFails (pageOf 2047) false = true ∧ (worn job1.pool 1).repairable (pageOf 2047) = true ∧
    (worn job1.pool 1).rowFails (pageOf 2048) false = false ∧ (worn job1.pool 2).repairable 0 = false ∧
    ({ worn job1.pool 2 with jobs := [] } : State).source1 = some 119 ∧ (worn job1.pool 2).source1 = none ∧
    ((worn job1.pool 2).source2 0).map (fun e => (e.1, e.2.1)) = some (1, 119) ∧ (worn [] 2).source1 = none ∧ (worn [] 2).source2 0 = none := by
  decide +kernel

/-- Stack 11 in a state, with the times of its retrains. -/
def trainedStack (n : Nat) (recent : List Nat) : State :=
  live.updStack 11 (fun (y : Stack) => { y with state := n, recentRetrains := recent })

theorem witness_MemoryErrors_stacks : rests (trainedStack 0 []) = true ∧
    (live.mem.stackTab[11]?).map (fun y => decide (y.state ≠ 1) && decide (y.state ≠ 2)) = some true ∧
    ((trainedStack 1 [0]).mem.stackTab[11]?).map (fun y => (y.state, decide (y.recentRetrains.length < 3), y.recentRetrains.headD 0)) = some (1, true, 0) ∧
    (trainedStack 1 [0]).stitch ≤ 0 + 400000 ∧ 0 + 400000 < ({ trainedStack 1 [0] with stitch := 400001 } : State).stitch ∧
    ((trainedStack 1 [2, 1, 0]).mem.stackTab[11]?).map (fun y => decide (3 ≤ y.recentRetrains.length)) = some true ∧
    ((trainedStack 2 []).mem.stackTab[11]?).map (·.state) = some 2 ∧ live.bar2Wait = [] ∧ live.jobs = [] := by decide +kernel

/-- A run of a checkpoint at the head. -/
def running0 (restore : Bool) (ch : BitVec 16) : State :=
  { withJob job0 with
    stash := { live.stash with
      channels := ch
      runs := [{ tag := (ringCmd live jobEntry []).tag, restore := restore, set := 1, slot := 0, job := 1, started := true, image := some ckpt1
                 imageOk := true, poisonHeld := false, poisonFree := false, poisonTables := [] }] } }

theorem witness_StashWork :
    (let s := { live with stash := { live.stash with channels := 0x8000 } }
     rests s = true ∧ s.stash.channels.getLsbD 15 = true ∧ s.stash.channels.getLsbD 0 = false ∧ 15 < 16) ∧
    (let s := { live with stash := { live.stash with scrubbed := [(3, -31536000000000000)] } }
     rests s = true ∧ s.scrubDue 3 = true ∧ s.dev.castOnComplete = true ∧ s.scrubDue 4 = false ∧ State.reset.dev.castOnComplete = false) ∧
    (let s := { live with stash := { live.stash with erases := [(3, 10), (4, 511), (5, 510)] } }
     3 / 2 ^ 28 = 4 / 2 ^ 28 ∧ s.erasesOf 3 + 500 < s.erasesOf 4 ∧ s.erasesOf 5 ≤ s.erasesOf 3 + 500 ∧ 3 / 2 ^ 28 ≠ (2 ^ 28 + 3) / 2 ^ 28) ∧
    (let s := running0 false 0xFFFF
     let k := (withJob job1).newCkpt job1 1 0
     s.ckptPaused ckpt1 = false ∧ s.ckptPaused k = false ∧
      ({ s with mem := { s.mem with stackTab := List.replicate 12 { Stack.reset with step := 4 } } } : State).ckptPaused k = true) ∧
    (let s := running0 false 0xFFFF
     rests s = true ∧ (s.stash.runs.map (fun r => (r.restore, r.started, r.image))) = [(false, true, some ckpt1)] ∧
      (s.stash.runs.map (fun r => (s.copyPoisoned r ckpt1).1)) = [false] ∧ (s.stash.runs.map (fun r => (s.copyPoisoned r ckpt1).2.stashOk)) = [true]) ∧
    (let s := running0 false 0
     (s.stash.runs.map (fun r => (s.copyPoisoned r ckpt1).2.stashOk)) = [false]) ∧
    (let s := running0 true 0xFFFF
     (s.stash.runs.map (fun r => (r.restore, r.started))) = [(true, true)] ∧ s.stashOk = true ∧ (running0 true 0).stashOk = false) ∧
    live.stash.runs = [] := by decide +kernel

/-- Every unit in a state, the module in one, the tolerance in microseconds. -/
def powered (unit module tol t : Nat) : State :=
  { live with
    stitch := t
    pw := { live.pw with
      panels := List.replicate 12 unit, engines := List.replicate 8 unit, module := module, moduleSince := 0, tolerance := tol, allowHib := true
      panelIdle := List.replicate 12 0, engineIdle := List.replicate 8 0, exits := [], transition := 0 } }

theorem witness_PowerStates_units :
    (let s := powered 0 0 0xFFFFFFFF 2000
     rests s = true ∧ isUnitTarget (.panel 11) = true ∧ s.targetIdle (.panel 11) = true ∧ s.pwOf (.panel 11) = 0 ∧ s.idleSince (.panel 11) + 2000 ≤ s.stitch ∧
      s.permits 1 = true ∧ s.fitsTimed (.panel 11) 1 = true ∧ (powered 0 0 0xFFFFFFFF 1999).stitch < (powered 0 0 0xFFFFFFFF 1999).idleSince (.panel 11) + 2000) ∧
    (let s := powered 1 0 0xFFFFFFFF 500000
     s.targetIdle (.engine 7) = true ∧ s.pwOf (.engine 7) < 2 ∧ s.idleSince (.engine 7) + 500000 ≤ s.stitch ∧ s.permits 2 = true ∧
      s.fitsTimed (.engine 7) 2 = true ∧ s.testsRemain (.engine 7) = false ∧ (powered 1 0 0 0).permits 2 = false ∧
      (powered 1 0 0xFFFFFFFF 499999).stitch < (powered 1 0 0xFFFFFFFF 499999).idleSince (.engine 7) + 500000 ∧
      s.pw.exits.any (·.1 == .engine 7) = false ∧ s.pwOf (.engine 7) ≠ 0 ∧ s.pw.exits.find? (·.1 == .engine 7) = none) ∧
    (let c := { course0 with launchKind := 2, launchStitch := some 5000000 }
     let s := withCourse job1 c 4999000
     nextTimed (s.waking (.panel 0)) = some 5000000 ∧ 5000000 ≤ s.stitch + 1000 * s.exitLatency (s.pwOf (.panel 0)) + 1000 ∧
      (withCourse job1 c 0).stitch + 1000 * (withCourse job1 c 0).exitLatency ((withCourse job1 c 0).pwOf (.panel 0)) + 1000 < 5000000) ∧
    (let s := { powered 2 0 0xFFFFFFFF 0 with pw := { (powered 2 0 0xFFFFFFFF 0).pw with exits := [(.panel 3, 7)], tolWait := none } }
     s.pw.exits.find? (·.1 == .panel 3) = some (.panel 3, 7) ∧ s.pw.tolWait = none) := by decide +kernel

theorem witness_PowerStates_module :
    (let s := powered 2 0 0xFFFFFFFF 10000000
     rests s = true ∧ s.pw.module = 0 ∧ s.targetIdle .module = true ∧ s.pw.exits = [] ∧ s.pw.moduleSince + 10000000 ≤ s.stitch ∧ s.standbyClear = true ∧ s.permits 3 = true ∧
      s.fitsTimed .module 3 = true) ∧
    (let s := powered 2 3 0xFFFFFFFF 60000000000
     rests s = true ∧ s.pw.module = 3 ∧ s.pw.exits = [] ∧ s.pw.transition = 0 ∧ s.hibernateClear = true ∧ s.permits 4 = true ∧
      s.pw.moduleSince + 60000000000 ≤ s.stitch ∧ s.fitsTimed .module 4 = true ∧ s.skein.member = false) ∧
    (let s := powered 2 3 0xFFFFFFFF 0
     let v : State := { s with pw := { s.pw with transition := 1 } }
     v.pw.module = 3 ∧ v.pw.exits = [] ∧ v.pw.transition = 1 ∧ v.bar2Wait = [] ∧ v.skein.member = false) ∧
    (let s := powered 2 0 0 0
     isUnitTarget (.panel 3) = true ∧ s.pw.module < 3 ∧ s.pwOf (.panel 3) ≠ 0 ∧ s.permits (s.pwOf (.panel 3)) = false) ∧
    (let s := powered 2 4 0xFFFFFFFF 0
     let v := { s with pw := { s.pw with exits := [(.module, 0)] }, stash := { s.stash with hibernate := some [(0, 1)] } }
     s.pw.module = 4 ∧ s.pw.exits = [] ∧ v.stash.hibernate = some [(0, 1)] ∧ v.pw.module = 4 ∧ v.pw.exits.any (·.1 == .module) = true ∧ rests v = true) ∧
    (let s := powered 1 0 0xFFFFFFFF 0
     let exiting := fun (x : PwTarget) => { s with pw := { s.pw with exits := [(x, 7)], tolWait := none } }
     ((exiting .module).pw.exits.find? (·.1 == .module)) = some (.module, 7) ∧ (exiting .module).pw.module ≠ 4 ∧
      (exiting (.engine 7)).pw.exits.find? (·.1 == .engine 7) = some (.engine 7, 7) ∧ (exiting (.panel 3)).pw.exits = [(.panel 3, 7)] ∧
      s.pw.panels.getD 3 0 ≠ 0 ∧ s.pw.exits = []) := by
  decide +kernel

theorem witness_PowerMeasured : rests live = true ∧
    nextClock 1300 1650 1650 false = 1300 ∧ 1650 < 1651 ∧ 325 ≤ 325 ∧ 1300 ≤ 1300 ∧ 4000 < 4001 ∧ 105 ≤ 105 ∧ 104 < 105 ∧
    live.dev.failedGroups.contains 65 = false ∧ 65 < 66 ∧
    ({ live with dev := { live.dev with failedGroups := [65] } } : State).dev.failedGroups.contains 65 = true := by decide +kernel

/-- A scale state of one history. -/
def scale0 (kind clean : Nat) : Scale :=
  { g := 0, clean := clean, commits := 0, skips := 0, lastStep := none, hists := [{ tensorId := 4, format := 2, kind := kind, scaleCode := 127, newestStep := 0, maxima := [1] }] }

theorem witness_ScaleKept : ((scale0 3 999).hists[0]?).isSome = true ∧ ([((4 : Word), (5 : Word))].lookup 4) = some 5 ∧ 1000 ≤ (scale0 3 999).clean + 1 ∧
    (scale0 4 998).clean + 1 < 1000 ∧ (([] : List (Word × Word)).lookup 4) = none := by decide +kernel

/-- An activation that has been accepted. -/
def activating (on : Bool) : State :=
  { live with fw := { live.fw with activation := some ((admCmd live (ent 1 []) []).tag, 2) }, dev := { live.dev with fwActivating := on } }

theorem witness_FirmwareAndDebug_firmware : rests (activating false) = true ∧ (activating false).fw.activation.isSome = true ∧
    (activating false).dev.fwActivating = false ∧ (activating false).handoverPoint = true ∧
    (mailed (activating false) (ent 1 [])).handoverPoint = false ∧ (activating true).dev.fwActivating = true ∧
    (let s := { live with fw := { live.fw with reload := [152], trial := true, trialSince := 0 }, stitch := 60000000000 }
     rests s = true ∧ s.fw.reload.contains 152 = true ∧ ({ s with stitch := 4096 } : State).mayReload 152 = true ∧
      ({ s with stitch := 4097 } : State).mayReload 152 = false ∧ s.fw.reload.contains 153 = false ∧ s.fw.trial = true ∧ s.fw.activation = none ∧
      s.fw.runningB = s.fw.activeB ∧ s.fw.trialSince + 60000000000 ≤ s.stitch) := by decide +kernel

/-- Tokened, the token in force until stitch 100. -/
def tokenedAt (t : Nat) (sel : BitVec 12) : State :=
  { live with
    stitch := t
    dbg := { live.dbg with token := some { permissions := 0xD, sequence := 1, notAfter := 100, digest := [] }, obsControl := 3, obsSelect := sel } }

theorem witness_FirmwareAndDebug_debug : rests (tokenedAt 101 0) = true ∧ (tokenedAt 101 0).dbg.token.isSome = true ∧ (tokenedAt 101 0).tokenNow = none ∧
    (tokenedAt 100 0).tokenNow.isSome = true ∧ (tokenedAt 101 0).obsActive = false ∧ (tokenedAt 100 0x100).obsActive = true ∧
    (let s := { tokened with cfg := { live.cfg with castConsole := 1 } }
     rests s = true ∧ s.permitted 3 = true ∧ s.cfg.castConsole = 1) ∧
    (tokenedAt 100 0x100).groupRefused = true ∧ (tokenedAt 100 0).obsActive = true ∧ (tokenedAt 100 0).dbg.obsSelect = 0 ∧
    ({ live with mgmt := { live.mgmt with spdmNegotiated := true } } : State).mgmt.spdmNegotiated = true ∧ (8 : Byte).toNat ≤ 8 ∧ 1 ≤ (1 : Byte).toNat ∧
    live.spdmReaches (.smbus (0x40 + live.mgmt.strap.toNat)) = true ∧ live.spdmReaches (.udp 61440) = false ∧
    ({ live with mgmt := { live.mgmt with ipv4 := some 1 } } : State).spdmReaches (.udp 61440) = true ∧
    ({ live with stitch := 10000000000 } : State).mgmt.dhcpSince + 10000000000 ≤ ({ live with stitch := 10000000000 } : State).stitch ∧
    live.stitch < live.mgmt.dhcpSince + 10000000000 ∧ live.mgmt.ipv4 = none ∧ ({ live with mgmt := { live.mgmt with ipv4 := some 1 } } : State).mgmt.ipv4.isSome = true := by decide +kernel

/-- A running SNAPSHOT_READ of 64 bytes of tensor 9. -/
def snap0 : SnapRun :=
  { tag := (ringCmd (withJob job1) (ent 0x002A [(4, 4, 3), (8, 4, 1)]) []).tag, view := none, entries := [(9, 0, 64, 0x2000)], free := Overlay.empty }

theorem witness_FirmwareAndDebug_snapshot : let s := { withJob job1 with snaps := [snap0] }
    rests s = true ∧ s.snaps.find? (fun x => x.tag.jobId == snap0.tag.jobId && x.tag.commandId == snap0.tag.commandId) = some snap0 ∧
    (s.snapCopy job1 snap0 0 snap0.entries).2 = none ∧ s.job? 1 = some job1 := by decide +kernel

theorem witness_HostCommandsWait : rests live = true ∧ (hostRow (.solve 0 (.ring 0) noIo)).map (fun r => (r.2.1, r.2.2.2.1)) = some (.ring 0, 0x0042) ∧
    live.headEntry (.ring 0) = none ∧
    (let s := ringed live (ent 0x0061 [])
     rests s = true ∧ (s.headEntry (.ring 0)).isSome = true ∧ opcodeRow (.ring 0) (s.srcRev (.ring 0)) (entryOpcode (s.srcRev (.ring 0)) (ent 0x0061 [])) ≠ some 0x0042) ∧
    (let s := ringed { live with dev := { live.dev with castOnPhase := 0xFE } } (ent 0x0042 [])
     opcodeRow (.ring 0) (s.srcRev (.ring 0)) (entryOpcode (s.srcRev (.ring 0)) (ent 0x0042 [])) = some 0x0042 ∧ s.dev.castOnPhase = 0xFE ∧
      (hostRow (.solve 0 (.ring 0) noIo)).map (fun r => r.2.2.2.2) = some false) ∧
    (let s := { withJob job1 with dev := { live.dev with stackLost := true } }
     s.jobFault (ringCmd s (ent 0x0042 [(8, 4, 1)]) []).tag 0x0042 = true) := by decide +kernel

/-- A command waits in the queue; and none. -/
theorem witness_StepRunsFront : ({ live with pending := [.hostInterfaceReset 0 .flr] } : State).pending = .hostInterfaceReset 0 .flr :: [] ∧ live.pending = [] :=
  ⟨rfl, rfl⟩

theorem witness_TimePasses : (let s := { live with counting := true, stitch := 6 }
    s.counting = true ∧ s.up = true ∧ s.stitch < 7 ∧ s.trace.hostAcc = [] ∧ 6 ≤ s.stitch) ∧ live.counting = false := by decide +kernel

theorem witness_CommandsComplete : (∀ t d, (Instr.pwrCycleAssert 5 9999999) = .pwrCycleAssert t d → d < 10000000 ∨ 100000000 ≤ d) ∧
    (∀ t d, (Instr.pwrCycleAssert 5 100000000) = .pwrCycleAssert t d → d < 10000000 ∨ 100000000 ≤ d) :=
  ⟨fun _ _ h => by cases h; decide, fun _ _ h => by cases h; decide⟩

/-- A state with memory written, an image of it, and a command whose step answers a next state. -/
def kept0 : State :=
  { live with
    mem := { live.mem with cells := [(0, 1), (5, 2)] }
    stash := { live.stash with hibernate := some [(7, 3)] }
    pending := [.hostInterfaceReset 0 .flr, .hostInterfaceReset 0 .flr] }

theorem witness_StepKeeps : kept0.MemOk ∧ ∃ u, step kept0 = .next u :=
  ⟨⟨by decide +kernel, fun m h => by cases h; decide⟩, ⟨_, rfl⟩⟩

end Sys2Proof.Tests
end

section
/-! SUPPORT. Interrupts, registers read and the exchange of a JOB_OPEN: the equations of their operations, case by case, and the statements
Interrupts, RegistersRead and OpenExchanges, settled by them. -/

namespace Sys2Proof.Machine

/-! ### Interrupts (00 R12; 02 R51, R52) -/

/-- A pending message stays pending exactly while a cause of its vector is live. -/
theorem serviced_pba_getD (i : Intr) {v : Nat} (h : v < i.pba.length) :
    i.serviced.pba.getD v false = (i.pba.getD v false && i.high.contains v) := by
  simp [Intr.serviced, h]

/-- Of the attention bits written 1 those go that the module has not set in the same cycle. -/
theorem clearCause_ringAttn (value : Word) (s : State) :
    (clearCause .ringAttn value s).intr.ringAttn = s.intr.ringAttn &&& (~~~value ||| s.freshCauses.ringAttn) := by
  have hkept : ~~~(value &&& ~~~s.freshCauses.ringAttn) = ~~~value ||| s.freshCauses.ringAttn := by
    rw [BitVec.not_and, BitVec.not_not]
  simp only [clearCause, hkept]

/-- A bit stays set unless it is written 1 and the module has not set it in the same cycle. -/
theorem w1c_bit (bit written fresh : Bool) : (if written && !fresh then false else bit) = (bit && (!written || fresh)) := by
  cases written with
  | false => simp
  | true => cases fresh <;> simp

theorem clearCause_main_admin (value : Word) (s : State) :
    (clearCause .main value s).intr.admin = (s.intr.admin && (!value.getLsbD 0 || s.freshCauses.admin)) := by
  rw [← w1c_bit]
  exact apply_ite (fun x : State => x.intr.admin) _ _ _

theorem clearCause_adminStatus_overrun (value : Word) (s : State) :
    (clearCause .adminStatus value s).admin.overrun = (s.admin.overrun && (!value.getLsbD 2 || s.freshCauses.overrun)) := by
  rw [← w1c_bit]
  exact apply_ite (fun x : State => x.admin.overrun) _ _ _

/-- With neither mask set the message of a vector is driven. -/
theorem sendVector_unmasked {s : State} {v : Nat} {e : MsixEntry} (he : s.intr.msix[v]? = some e) (hf : s.intr.fnMask = false)
    (hm : e.masked = false) : s.sendVector v = s.emit (.msix v e.addr e.data) := by
  simp [State.sendVector, List.getD_eq_getElem?_getD, he, hf, hm]

/-- With the function or the entry masked the message waits in the pending-bit array. -/
theorem sendVector_masked {s : State} {v : Nat} {e : MsixEntry} (he : s.intr.msix[v]? = some e)
    (h : s.intr.fnMask = true ∨ e.masked = true) : s.sendVector v = { s with intr := { s.intr with pba := s.intr.pba.set v true } } := by
  have hmask : (s.intr.fnMask || e.masked) = true := by simpa using h
  simp [State.sendVector, List.getD_eq_getElem?_getD, he, hmask]

theorem exec_intrCauseClear {s a : State} {t : Stitch} (h : s.Reached t a) (reg : CauseReg) (value : Word) :
    exec (.intrCauseClear t reg value) s = .next (a.intrCauseClear reg value) := act_reached (f := (·.intrCauseClear reg value)) h

theorem exec_intrMaskWrite {s a : State} {t : Stitch} (h : s.Reached t a) (reg : MaskReg) (value : Word) :
    exec (.intrMaskWrite t reg value) s = .next (a.intrMaskWrite reg value) := act_reached (f := (·.intrMaskWrite reg value)) h

/-- Settles O17: each form runs its own operation at its stitch; what a clear keeps of each register, the pending bits and the messages are
the equations above. -/
theorem interrupts : Obligations.Interrupts := by
  unfold Obligations.Interrupts
  intro s a t value h
  refine ⟨?clear, fun i _ hv => serviced_pba_getD i hv, ?kept, exec_intrMaskWrite h _ _, exec_intrMaskWrite h _ _,
    exec_intrMaskWrite h _ _, fun _ => exec_intrMaskWrite h _ _, fun _ => exec_intrMaskWrite h _ _, exec_intrMaskWrite h _ _,
    fun _ _ he => ⟨sendVector_unmasked he, sendVector_masked he⟩⟩
  case clear =>
    rintro reg b rfl
    exact exec_intrCauseClear h reg value
  case kept =>
    rintro keep rfl
    exact ⟨rfl, clearCause_ringAttn value a, rfl, rfl, clearCause_main_admin value a, clearCause_adminStatus_overrun value a⟩

/-! ### Registers read (00 R12; 04 R124, R140; 14 R404; 15 R419, R437) -/

theorem readAt_head {g : Gauge} {r : GaugeRec} (h : g.records.head? = some r) (t : Nat) :
    g.readAt t = max g.readout (gaugeAtStitch r t).toNat := by
  simp only [Gauge.readAt, Gauge.latest, h]

theorem readAt_empty {g : Gauge} (h : g.records = []) (t : Nat) : g.readAt t = 0 := by
  simp only [Gauge.readAt, Gauge.latest, h, List.head?_nil]

theorem exec_timeGaugeRead {s a : State} {t : Stitch} (h : s.Reached t a) :
    exec (.timeGaugeRead t) s = .next a.timeGaugeRead := actRead_reached (f := State.timeGaugeRead) h

theorem exec_timeStitchRead {s a : State} {t : Stitch} (h : s.Reached t a) (wide : Bool) :
    exec (.timeStitchRead t wide) s = .next (a.timeStitchRead wide) := actRead_reached (f := (·.timeStitchRead wide)) h

theorem exec_timeMissedLaunchesRead {s a : State} {t : Stitch} (h : s.Reached t a) :
    exec (.timeMissedLaunchesRead t) s = .next a.timeMissedLaunchesRead := actRead_reached (f := State.timeMissedLaunchesRead) h

theorem exec_powerThrottleStitchesRead {s a : State} {t : Stitch} (h : s.Reached t a) :
    exec (.powerThrottleStitchesRead t) s = .next a.powerThrottleStitchesRead := actRead_reached (f := State.powerThrottleStitchesRead) h

theorem exec_obsRegisterRead {s a : State} {t : Stitch} (h : s.Reached t a) (off : Nat) :
    exec (.obsRegisterAccess t off none) s = .next (a.emit (.reply (a.obsRead off))) :=
  actRead_reached (f := (·.obsAccess off none)) h

/-- TIME_GAUGE answers the value that it keeps as the last one read. -/
theorem timeGaugeRead_of_readAt {a : State} {v : Nat} (h : a.gauge.readAt a.stitch = v) :
    a.timeGaugeRead = State.emit { a with gauge := { a.gauge with readout := v }, time := { a.time with gaugeAt := a.stitch } }
      (.reply (le 8 v)) := by
  subst h; rfl

theorem exec_cntSnapshot {s a : State} {t : Stitch} (h : s.Reached t a) (w : Word) :
    exec (.cntSnapshot t w) s = .next (if w.getLsbD 0 then a.takeSnapshot else a) :=
  act_reached (f := fun b => if w.getLsbD 0 then b.takeSnapshot else b) h

/-- Settles O18: each form runs its own operation at its stitch; the gauge's value is the one of its latest record, and 0 without one. -/
theorem registersRead : Obligations.RegistersRead := by
  unfold Obligations.RegistersRead
  intro s a t h
  refine ⟨exec_timeStitchRead h true, exec_timeStitchRead h false, ?missed, ?throttle, ?gauge, ?noRecord, ?snapshot, ?noSnapshot,
    exec_obsRegisterRead h⟩
  case missed =>
    rintro n rfl
    exact exec_timeMissedLaunchesRead h
  case throttle =>
    rintro n rfl
    exact exec_powerThrottleStitchesRead h
  case gauge =>
    rintro r v hr rfl
    rw [exec_timeGaugeRead h, timeGaugeRead_of_readAt (readAt_head hr _)]
  case noRecord =>
    intro hnone
    rw [exec_timeGaugeRead h, timeGaugeRead_of_readAt (readAt_empty hnone _)]
  case snapshot =>
    intro w hw
    rw [exec_cntSnapshot h, if_pos hw, State.takeSnapshot]
  case noSnapshot =>
    intro w hw
    simp only [exec_cntSnapshot h, hw, Bool.false_eq_true, if_false]

/-! ### The exchange of a JOB_OPEN (00 R9; 03 R87; 10 R297) -/

/-- The answers that count are those not yet 10 s old. -/
theorem mem_present {p : Opening} {now : Nat} {y : OpenExchange} :
    y ∈ p.present now ↔ ∃ z ∈ p.answers, z.x = y ∧ now < z.since + 10000000000 := by
  simp only [Opening.present, List.mem_map, List.mem_filter, decide_eq_true_eq]
  constructor
  · rintro ⟨z, ⟨hz, hnow⟩, hy⟩
    exact ⟨z, hz, hy, hnow⟩
  · rintro ⟨z, hz, hy, hnow⟩
    exact ⟨z, ⟨hz, hnow⟩, hy⟩

section
variable {b : State} {id : Word} {x : OpenExchange} {o : Opening} (hx : x.member ≠ b.skein.device)
include hx

/-- The first answer of a member that counts joins the others, in place of an aged one, and may end the exchange. -/
theorem takeExchange_first (ho : b.openings.find? (·.job.id == id) = some o)
    (hp : (o.present b.stitch).any (·.member == x.member) = false) :
    b.takeExchange id x = State.tryOpen { b with openings := b.openings.map (fun p => if p.job.id == id then
      { p with answers := p.answers.filter (fun (z : Answer) => z.x.member != x.member) ++ [⟨x, b.stitch⟩] } else p) } id := by
  simp only [State.takeExchange, beq_eq_false_iff_ne.mpr hx, ho, hp, Bool.false_eq_true, if_false]

/-- A further answer of a member whose first still counts changes nothing. -/
theorem takeExchange_repeated (ho : b.openings.find? (·.job.id == id) = some o)
    (hp : (o.present b.stitch).any (·.member == x.member) = true) : b.takeExchange id x = b := by
  simp only [State.takeExchange, beq_eq_false_iff_ne.mpr hx, ho, hp, Bool.false_eq_true, if_false, if_true]

/-- An answer that comes before this member's own JOB_OPEN is kept, the last one of each member. -/
theorem takeExchange_early (ho : b.openings.find? (·.job.id == id) = none) : b.takeExchange id x =
    { b with early := b.early.filter (fun e => !(e.1 == id && e.2.x.member == x.member)) ++ [(id, ⟨x, b.stitch⟩)] } := by
  simp only [State.takeExchange, beq_eq_false_iff_ne.mpr hx, ho, Bool.false_eq_true, if_false]

end

/-- An exchange whose 10 s have passed ends its JOB_OPEN. -/
theorem openTimeout_due {a : State} {id : Word} {o : Opening}
    (h : a.openings.find? (fun o => o.job.id == id && decide (o.accepted + 10000000000 ≤ a.stitch)) = some o) :
    a.openTimeout id = State.finish { a with openings := a.openings.filter (·.job.id != id) } o.tag
      [if a.differsFromLowest o then stBadField else stNoResource] 0 := by
  simp only [State.openTimeout, h]

/-- Without such an exchange the timeout does nothing. -/
theorem openTimeout_notDue {a : State} {id : Word}
    (h : a.openings.find? (fun o => o.job.id == id && decide (o.accepted + 10000000000 ≤ a.stitch)) = none) : a.openTimeout id = a := by
  simp only [State.openTimeout, h]

theorem exec_jobOpenExchangeReceived {s a : State} {t : Stitch} (h : s.Reached t a) (id : Word) (report : OpenReport) :
    exec (.jobOpenExchangeReceived t id report) s = .next (a.openExchange report.via id report.values) :=
  act_reached (f := (·.openExchange report.via id report.values)) h

theorem exec_jobOpenAgreeTimeout {s a : State} {t : Stitch} (h : s.Reached t a) (id : Word) :
    exec (.jobOpenAgreeTimeout t id) s = .next (a.openTimeout id) := act_reached (f := (·.openTimeout id)) h

/-- Settles O37: what an answer does by whether its exchange is open and its member has answered, and what the timeout does by whether an
exchange is due. -/
theorem openExchanges : Obligations.OpenExchanges := by
  unfold Obligations.OpenExchanges
  intro s a t id x o h
  refine ⟨fun via => exec_jobOpenExchangeReceived h id ⟨via, x⟩, fun _ _ _ => mem_present,
    fun b hx => ⟨?first, takeExchange_repeated hx, takeExchange_early hx⟩, ?due, ?notDue⟩
  case first =>
    rintro f ho hp rfl
    exact takeExchange_first hx ho hp
  case due =>
    rintro code ho rfl
    rw [exec_jobOpenAgreeTimeout h, openTimeout_due ho]
    rfl
  case notDue =>
    intro hnone
    rw [exec_jobOpenAgreeTimeout h, openTimeout_notDue hnone]

end Sys2Proof.Machine
end

section
/-! SUPPORT. Work that enters the queues, the trace rings, the tests and the command rings: the equations of their operations, case by case, and
the statements WorkQueued, TraceTestAndUnknown and RingWork, settled by them. -/

namespace Sys2Proof.Machine

/-! ### COURSE_SUBMIT and SOLVE (01 R19; 03 R100, R107; 09 R262) -/

/-- A sound descriptor of a loaded pattern is accepted, or its command waits for the hold. -/
theorem submit_sound {b : State} {c : Cmd} {j : Job} {d : Desc} {i : List Byte} (hw : d.wrong = false)
    (hb : b.badCourse c j i d = false) (hr : b.courseResource c j d = false) :
    b.submit c j d i false =
      if b.holdFull (b.newCourse c j d) then b.holdCommand c else b.acceptCourse c (b.newCourse c j d) d.scope := by
  have hchecks : firstFailure [(d.wrong, stWrongRevision), (false || b.badCourse c j i d, stBadField),
      (b.courseResource c j d, stNoResource)] = none := by rw [hw, hb, hr]; rfl
  simp only [State.submit, hchecks]

/-- COURSE_SUBMIT of an open job and a loaded pattern is `submit` of them. -/
theorem courseSubmit_loaded {b : State} {c : Cmd} {j : Job} {p : Pattern} (hj : b.openJob? c.tag.jobId = some j)
    (hp : j.patterns.find? (·.handle == c.desc.pattern) = some p) :
    b.courseSubmit c = b.submit c j c.desc p.image c.badCourseEntry := by
  simp only [State.courseSubmit, hj, hp, Option.bind_some, Option.map_some]

/-- A sound SOLVE enters its engines' queues, or its command waits for the hold. -/
theorem solveCmd_sound {b : State} {c : Cmd} {j : Job} {x : Structure} (hj : b.openJob? c.tag.jobId = some j)
    (hx : j.structures.find? (·.handle == c.op 40 4) = some x) (hl : c.badLayout = false) (hb : j.badSolveCmd c x = false)
    (hbusy : (x.stepWritten && bitOf (c.op 44 1) 1 && (j.opened.isSome || j.committing.isSome)) = false) :
    b.solveCmd c = if b.holdFull (b.newSolve c j x) then b.holdCommand c else b.enqueue (b.newSolve c j x) := by
  have hchecks : firstFailure [(c.badLayout || j.badSolveCmd c x, stBadField),
      (x.stepWritten && bitOf (c.op 44 1) 1 && (j.opened.isSome || j.committing.isSome), stNoResource)] = none := by
    rw [hl, hb, hbusy]; rfl
  simp only [State.solveCmd, hj, hx, hchecks]

theorem exec_courseSubmit {s : State} {t : Stitch} {src : Src} {io : HostIo} {f : Fetched} (h : (s.advance t).hookTakes src 0x0024 f) :
    exec (.courseSubmit t src io) s = .next ((s.popped t src).courseSubmit (s.given t src io f)) := host_takes h

theorem exec_solve {s : State} {t : Stitch} {src : Src} {io : HostIo} {f : Fetched} (h : (s.advance t).hookTakes src 0x0042 f) :
    exec (.solve t src io) s = .next ((s.popped t src).solveCmd (s.given t src io f)) := host_takes h

/-- Settles O8: once the checks pass, the hold alone decides whether the work enters its queues or the command waits. -/
theorem workQueued : Obligations.WorkQueued := by
  unfold Obligations.WorkQueued
  rintro s b t src io f c j rfl rfl hj hl
  refine ⟨?course, ?solve⟩
  case course =>
    rintro d p h rfl hw he hp hb hr
    rw [exec_courseSubmit h, courseSubmit_loaded hj hp, he, submit_sound hw hb hr]
    exact ⟨fun hroom => by rw [hroom]; rfl, fun hfull => by rw [hfull]; rfl⟩
  case solve =>
    rintro x h hx hb hbusy
    rw [exec_solve h, solveCmd_sound hj hx hl hb hbusy]
    exact ⟨fun hroom => by rw [hroom]; rfl, fun hfull => by rw [hfull]; rfl⟩

/-! ### TRACE_CONTROL, SELF_TEST and unknown opcodes (02 R68; 13 R380; 15 R425, R433) -/

/-- What a revision-2 TRACE_CONTROL of the module ring does, by its action. -/
theorem traceControl_moduleRing {b : State} {c : Cmd} (hl : c.badLayout = false) (hrev : c.rev1 = false) (hz : c.zero 41 3 = true)
    (hz' : c.zero 60 4 = true) (hjob : c.tag.jobId = 0) :
    (c.op 40 1 = 0 → b.traceControl c = b.traceStart c none) ∧ (c.op 40 1 = 1 → b.traceControl c = b.traceStop c none) ∧
      (c.op 40 1 = 2 → b.traceControl c = b.traceStatus c none) := by
  refine ⟨?start, ?stop, ?status⟩ <;> intro ha <;> simp [State.traceControl, hl, hrev, hz, hz', hjob, ha]

/-- A fresh module ring starts where the module has none. -/
theorem traceStart_fresh {b : State} {c : Cmd} (hm : classMaskBad (c.op 44 4) = false) (h1 : 1 ≤ c.op 56 4) (h2 : c.op 56 4 ≤ 4096)
    (hnone : b.trace.moduleRing = none) (hc : b.ringClash none (c.op 48 8, c.op 56 4 * 2 ^ 20) = false) :
    b.traceStart c none =
      (b.placeRing none (freshRing (c.op 48 8) (c.op 56 4 * 2 ^ 20) (c.op 44 4) false)).finish c.tag [stDone] 0 := by
  have hmib : (decide (c.op 56 4 < 1) || decide (4096 < c.op 56 4)) = false := by simp; omega
  have hzero : (c.op 56 4 == 0) = false := beq_eq_false_iff_ne.mpr (by omega)
  have hring : b.traceRing none = none := hnone
  have hchecks : firstFailure [(classMaskBad (c.op 44 4) || (decide (c.op 56 4 < 1) || decide (4096 < c.op 56 4)) ||
      b.ringClash none (c.op 48 8, c.op 56 4 * 2 ^ 20), stBadField), (c.op 56 4 == 0, stNoResource)] = none := by
    rw [hm, hmib, hc, hzero]; rfl
  simp only [State.traceStart, hring, Option.isSome_none, Option.map_none, Option.bind_none, Option.getD_none, Bool.false_eq_true,
    if_false, hchecks]
  rfl

theorem traceStop_ring {b : State} {job : Option Word} {r : TraceRing} (c : Cmd) (h : b.traceRing job = some r) :
    b.traceStop c job = (b.placeRing job { r with running := false }).finish c.tag [stDone] 0 := by
  simp only [State.traceStop, h]

theorem traceStatus_ring {b : State} {job : Option Word} {r : TraceRing} (c : Cmd) (h : b.traceRing job = some r) :
    b.traceStatus c job = b.finishData c.tag [stDone] (Memory.readBytes b.mem.cells r.base 64) := by
  simp only [State.traceStatus, h]

/-- A revision-1 SELF_TEST runs the built-in items once on the panels that its operand names. -/
theorem selfTest_rev1 {b : State} {c : Cmd} (hl : c.badLayout = false) (hrev : c.rev1 = true) (h0 : c.operand1 ≠ 0)
    (h1 : c.operand1 < 4096) :
    b.selfTest c = b.beginTest
      { tag := c.tag, accepted := b.stitch, testSet := 0, stopFirst := false, repeats := 1, packs := [], maxMs := 0, targets := [] }
      (b.testUnits 0 0 c.operand1) := by
  have hhigh : ¬ 4096 ≤ c.operand1 := Nat.not_le.mpr h1
  simp [State.selfTest, hl, hrev, h0, hhigh]

theorem exec_traceControl {s : State} {t : Stitch} {src : Src} {io : HostIo} {f : Fetched} (h : (s.advance t).hookTakes src 0x0060 f) :
    exec (.traceControl t src io) s = .next ((s.popped t src).traceControl (s.given t src io f)) := host_takes h

theorem exec_selfTest {s : State} {t : Stitch} {src : Src} {io : HostIo} {f : Fetched} (h : (s.advance t).hookTakes src 0x0062 f) :
    exec (.selfTest t src io) s = .next ((s.popped t src).selfTest (s.given t src io f)) := host_takes h

/-- An entry whose opcode has no row where it was sent ends, outside recovery, with WRONG_REVISION or BAD_OPCODE. -/
theorem exec_unknownOpcode {s : State} {t : Stitch} {src : Src} {io : HostIo} {f : Fetched} (hup : (s.advance t).up = true)
    (hf : (s.advance t).headEntry src = some f)
    (hrow : opcodeRow src ((s.advance t).srcRev src) (entryOpcode ((s.advance t).srcRev src) f.entry) = none)
    (hp : (s.advance t).dev.castOnPhase ≠ 0xFE) :
    exec (.unknownOpcode t src io) s = .next ((s.popped t src).finish (s.given t src io f).tag
      [if lacksRevision src ((s.advance t).srcRev src) (entryOpcode ((s.advance t).srcRev src) f.entry) then stWrongRevision
       else stBadOpcode] 0) := by
  change execUnknownOpcode t src io s = _
  rw [execUnknownOpcode, act_up hup]
  simp only [hf, hrow, Option.isNone_none, if_true, if_neg hp]
  rfl

/-- Settles O13: TRACE_CONTROL by its action, SELF_TEST of a revision-1 ring, and the entry without a row. -/
theorem traceTestAndUnknown : Obligations.TraceTestAndUnknown := by
  unfold Obligations.TraceTestAndUnknown
  rintro s b t src io f c rfl rfl
  refine ⟨?start, ?stop, ?status, ?test, exec_unknownOpcode⟩
  case start =>
    intro h hl hrev hz ha hjob hm hz' h1 h2 hnone hc
    rw [exec_traceControl h, (traceControl_moduleRing hl hrev hz hz' hjob).1 ha, traceStart_fresh hm h1 h2 hnone hc]
  case stop =>
    intro r h hl hrev hz hz' ha hjob hr
    rw [exec_traceControl h, (traceControl_moduleRing hl hrev hz hz' hjob).2.1 ha, traceStop_ring (job := none) _ hr]
  case status =>
    intro r h hl hrev hz hz' ha hjob hr
    rw [exec_traceControl h, (traceControl_moduleRing hl hrev hz hz' hjob).2.2 ha, traceStatus_ring (job := none) _ hr]
  case test =>
    intro h hl hrev h0 h1
    rw [exec_selfTest h, selfTest_rev1 hl hrev h0 h1]

/-! ### The work of the rings (01 R19; 02 R59 to R62; 14 R412) -/

/-- The ring whose turn it is loses the turn; what host memory answers is taken, up to its weight, or the ring halts. -/
theorem ringFetch_turn {a : State} {r : Nat} (hl : a.admin.latched = none) (hfw : a.dev.fwActivating = false)
    (hr : a.nextRing = some r) :
    (∀ es, a.ringFetch (some es) = State.updRing { a with dev := { a.dev with rrRing := (r + 1) % 32 } } r
      (fun g => g.fetch (es.take (min (min (2 ^ (g.priority % 4)) g.available) 16)))) ∧
      a.ringFetch none = State.attention { a with dev := { a.dev with rrRing := (r + 1) % 32 } } r 2 := by
  refine ⟨fun es => ?_, ?_⟩ <;> simp [State.ringFetch, hl, hfw, hr]

/-- The command that waits first is examined again, as the SOLVE or the COURSE_SUBMIT that it is. -/
theorem holdAccept_waiting {a : State} {r op : Nat} {w : WaitingCmd} {c : Cmd} (hr : a.waitingRings.head? = some r)
    (hfw : a.dev.fwActivating = false) (hw : (a.ring r).waiting = some w)
    (hc : c = a.cmd (.ring r) { payload := some w.payload, cplFault := w.cplFault } { entry := w.entry, sqHead := w.sqHead })
    (hop : opcodeRow (.ring r) c.tag.rev c.tag.opcode = some op) (hj : a.jobFault c.tag op = false) :
    a.holdAccept r = (if op = 0x0042 then (a.updRing r (fun g => { g with waiting := none })).solveCmd c
      else (a.updRing r (fun g => { g with waiting := none })).courseSubmit c) := by
  subst hc
  simp [State.holdAccept, hr, hfw, hw, hop, hj]

/-- The next course held for a queue enters it once it has a free entry. -/
theorem heldEnqueue_free {a : State} {q : LUnit} {id : Nat} {more : List Nat} (hfw : a.dev.fwActivating = false)
    (hh : a.heldFor q = id :: more) (hlen : (a.queue q).length < queueMax) :
    a.heldEnqueue q = { (a.setQueue q (a.queue q ++ [id])) with hold := a.hold.erase (q, id) } := by
  simp [State.heldEnqueue, hh, hlen, hfw]

/-- The oldest held completion is written when its ring has room and no handover runs. -/
theorem heldCompletionWrite_room {a : State} {r : Nat} {x : Completion} {xs : List Completion} (fault : Bool)
    (hh : (a.ring r).held = x :: xs) (hroom : (a.ring r).cqFull = false) :
    a.heldCompletionWrite r fault = if a.dev.fwActivating then a
      else State.writeRingCpl (a.updRing r (fun (g : Ring) => { g with held := xs })) r fault x := by
  simp only [State.heldCompletionWrite, hh, hroom, Bool.false_or]

theorem exec_ringFetch {s a : State} {t : Stitch} (h : s.Reached t a) (entries : Option (List (List Byte))) :
    exec (.ringFetch t entries) s = .next (a.ringFetch entries) := act_reached (f := (·.ringFetch entries)) h

theorem exec_holdEntryAccept {s a : State} {t : Stitch} (h : s.Reached t a) (r : Nat) :
    exec (.holdEntryAccept t r) s = .next (a.holdAccept r) := act_reached (f := (·.holdAccept r)) h

theorem exec_heldCourseEnqueue {s a : State} {t : Stitch} (h : s.Reached t a) (u : LUnit) :
    exec (.heldCourseEnqueue t u) s = .next (a.heldEnqueue u) := act_reached (f := (·.heldEnqueue u)) h

theorem exec_heldCompletionWrite {s a : State} {t : Stitch} (h : s.Reached t a) (r : Nat) (fault : Bool) :
    exec (.heldCompletionWrite t r fault) s = .next (a.heldCompletionWrite r fault) := act_reached (f := (·.heldCompletionWrite r fault)) h

/-- Settles O16: the four kinds of work, each by the equation of its operation. -/
theorem ringWork : Obligations.RingWork := by
  unfold Obligations.RingWork
  intro s a t r h
  refine ⟨?fetch, ?accept, ?enqueue, ?completion⟩
  case fetch =>
    intro es hl hfw hr
    obtain ⟨hsome, hnone⟩ := ringFetch_turn hl hfw hr
    exact ⟨by rw [exec_ringFetch h, hsome], by rw [exec_ringFetch h, hnone]⟩
  case accept =>
    rintro w c b hr hfw hw hc rfl
    exact ⟨fun hop hj => by rw [exec_holdEntryAccept h, holdAccept_waiting hr hfw hw hc hop hj]; rfl,
      fun hop hj => by rw [exec_holdEntryAccept h, holdAccept_waiting hr hfw hw hc hop hj]; rfl⟩
  case enqueue =>
    intro q id more hfw hh hlen
    rw [exec_heldCourseEnqueue h, heldEnqueue_free hfw hh hlen]
  case completion =>
    intro x xs fault hh hroom
    rw [exec_heldCompletionWrite h, heldCompletionWrite_room fault hh hroom]
    exact ⟨fun hfw => by rw [if_pos hfw], fun hfw => by rw [hfw]; rfl⟩

end Sys2Proof.Machine
end

section
/-! SUPPORT. Courses that launch and that fault, and the power controllers: the equations of their operations, case by case, and the statements
CoursesLaunch, CoursesFault and PowerMeasured, settled by them. -/

namespace Sys2Proof.Machine

/-! ### Launches (03 R85; 04 R142 to R145; 05 R170, R171) -/

section
variable {a : State} {c : Course} {u : LUnit} {p : Nat}

/-- A head course that may not launch stays. -/
theorem courseLaunch_held (hc : a.headCourse u = some c) (hm : a.mayLaunch c u = false) : a.courseLaunch u = a := by
  simp only [State.courseLaunch, hc, hm, Bool.not_false, if_true]

/-- In a panel the head course launches with its batch when that is closed, and starts to gather otherwise. -/
theorem courseLaunch_panel (hc : a.headCourse (.panel p) = some c) (hm : a.mayLaunch c (.panel p) = true) :
    a.courseLaunch (.panel p) =
      if (a.batchAt c p).2 then a.launchBatch (c :: (a.batchAt c p).1) p
      else if c.gatherSince.isNone then a.updCourse c.id (fun (d : Course) => { d with gatherSince := some a.stitch }) else a := by
  simp only [State.courseLaunch, hc, hm, Bool.not_true, Bool.false_eq_true, if_false]

/-- A link course launches on all its links at once. -/
theorem courseLaunch_link {k : Nat} (hc : a.headCourse (.link k) = some c) (hm : a.mayLaunch c (.link k) = true) :
    a.courseLaunch (.link k) = (a.start c c.units).runLinks c.id := by
  simp only [State.courseLaunch, hc, hm, Bool.not_true, Bool.false_eq_true, if_false]

/-- A batch launches when its wait is over. -/
theorem batchExpiry_due (hc : a.headCourse (.panel p) = some c) (hm : a.mayLaunch c (.panel p) = true) (hf : c.fill = true)
    (hw : a.conditionSince c p + c.batchWait ≤ a.stitch) : a.batchExpiry p = a.launchBatch (c :: (a.batchAt c p).1) p := by
  have hout : a.waitedOut c p = true := decide_eq_true hw
  simp only [State.batchExpiry, hc, hf, hout, hm, Bool.and_self, if_true]

/-- A unit that becomes ready for a joint launch is noted with its stitch. -/
theorem readyReport_ready {id : Nat} (hc : a.course? id = some c) (hj : c.joint = true) (hs : c.status = .queued)
    (hu : c.unready.contains u = true) (hr : a.unitReady c u = true) :
    a.readyReport id u = a.updCourse id (fun (d : Course) => { d with ready := d.ready ++ [(u, a.stitch)] }) := by
  simp only [State.readyReport, hc, hj, hs, hu, hr, beq_self_eq_true, Bool.and_self, if_true]

/-- The only course of a job that waits for pages tries again. -/
theorem pageAvailable_one {job : Word} (h : a.courses.filter (fun d => d.job == job && d.status == .waitPages) = [c]) :
    a.pageAvailable job = a.retryCourse c := by
  simp only [State.pageAvailable, h, List.foldl_cons, List.foldl_nil]

/-- A course timed for itself launches at its point within the first core cycle of it, later at the stitch that has come; only its first
launch can count as missed. -/
theorem launchTime_timed {l : Nat} (hl : c.launchStitch = some l) (hj : c.joint = false) (n : Nat) :
    a.launchTime c n = if a.onTime n l then { stitch := l, late := 0, missed := false }
      else { stitch := a.stitch, late := a.stitch - l, missed := c.attempt == 0 && c.firstLaunch.isNone } := by
  simp [State.launchTime, hl, hj]

end

section
variable {s a : State} {t : Stitch}

theorem exec_courseLaunch (h : s.Reached t a) (u : LUnit) : exec (.courseLaunch t u) s = .next (a.courseLaunch u) :=
  act_reached (f := (·.courseLaunch u)) h

theorem exec_panelReadyReport (h : s.Reached t a) (id : Nat) (u : LUnit) :
    exec (.panelReadyReport t id u) s = .next (a.readyReport id u) := act_reached (f := (·.readyReport id u)) h

theorem exec_batchWaitExpiry (h : s.Reached t a) (p : Nat) : exec (.batchWaitExpiry t p) s = .next (a.batchExpiry p) :=
  act_reached (f := (·.batchExpiry p)) h

theorem exec_stagingPageAvailable (h : s.Reached t a) (job : Word) :
    exec (.stagingPageAvailable t job) s = .next (a.pageAvailable job) := act_reached (f := (·.pageAvailable job)) h

end

/-- Settles O26: each launch by the equation of its operation, and the launch stitch of a timed course by whether it is on time. -/
theorem coursesLaunch : Obligations.CoursesLaunch := by
  unfold Obligations.CoursesLaunch
  intro s a t h
  refine ⟨?held, ?closed, ?gathers, ?expiry, ?link, ?ready, ?page, ?timed⟩
  case held =>
    intro u c hc hm
    rw [exec_courseLaunch h, courseLaunch_held hc hm]
  case closed =>
    intro p c hc hm hb
    rw [exec_courseLaunch h, courseLaunch_panel hc hm, if_pos hb]
  case gathers =>
    intro p c hc hm hb hg
    rw [exec_courseLaunch h, courseLaunch_panel hc hm, hb, hg]
    rfl
  case expiry =>
    intro p c hc hm hf hw
    rw [exec_batchWaitExpiry h, batchExpiry_due hc hm hf hw]
  case link =>
    intro k c hc hm
    rw [exec_courseLaunch h, courseLaunch_link hc hm]
  case ready =>
    intro id u c hc hj hs hu hr
    rw [exec_panelReadyReport h, readyReport_ready hc hj hs hu hr]
  case page =>
    intro job c hone
    rw [exec_stagingPageAvailable h, pageAvailable_one hone]
  case timed =>
    intro c u l hl hj
    rw [launchTime_timed hl hj]
    exact ⟨fun hon => by simp [hon], fun hlate => by simp [hlate]⟩

/-! ### Faults of courses (01 R36; 05 R174, R177; 07 R208; 12 R342) -/

section
variable {a : State} {id unit : Nat} {c : Course} (hc : a.course? id = some c)
include hc

/-- What a fault does on a unit that the course runs on, by its cause. -/
theorem courseFault_running (hrun : c.running = true) (hunit : (a.runningUnits c).contains unit = true) (k : FaultCause) (addr : Nat)
    (row : Option Nat) :
    a.courseFault id unit k addr row = match k with
      | .memory => if addr < deviceBytes then a.memoryFault c unit 1 addr else a.faultCourse c unit 1 none false
      | .poisoned => if a.poisonedAt addr || a.onlyWorking c addr then a.memoryFault c unit 6 addr else a
      | .arrayParity => a.faultCourse c unit 2 row false
      | .feederParity => a.faultCourse c unit 3 none false
      | .vectorParity => State.faultCourse { a with freeCtr := a.freeCtr + 1 } c unit (a.free.1.toNat % 256) none false := by
  simp only [State.courseFault, hc, hrun, hunit]
  cases k <;> rfl

/-- A fault of a course that does not run changes nothing. -/
theorem courseFault_notRunning (h : c.running = false) (k : FaultCause) (addr : Nat) (row : Option Nat) :
    a.courseFault id unit k addr row = a := by
  simp only [State.courseFault, hc, h, Bool.not_false, Bool.true_or, if_true]

/-- The watchdog faults a needle whose die has counted 1,048,576 core cycles since the course started in its panel. -/
theorem watchdog_due {start : Nat} (hrun : c.running = true) (hunit : (a.runningUnits c).contains unit = true) (hu : unit < 144)
    (hs : c.startedAt.lookup (unit / 12) = some start) (hd : start + 1048576000 ≤ a.diesCycles (unit / 12)) :
    a.watchdog id unit = a.faultCourse c unit 4 none false := by
  have hsince : 1048576000 ≤ a.diesCycles (unit / 12) - start := by omega
  simp only [State.watchdog, hc, hrun, hunit, hs, hu, hsince, Option.getD_some, decide_true, Bool.and_self, if_true]

/-- Before that the watchdog does nothing. -/
theorem watchdog_early {start : Nat} (hs : c.startedAt.lookup (unit / 12) = some start)
    (hd : a.diesCycles (unit / 12) < start + 1048576000) : a.watchdog id unit = a := by
  have hsince : ¬ 1048576000 ≤ a.diesCycles (unit / 12) - start := by omega
  simp [State.watchdog, hc, hs, hsince]

theorem watchdog_notRunning (h : c.running = false) : a.watchdog id unit = a := by
  simp [State.watchdog, hc, h]

/-- A course that has aborted three times is abandoned. -/
theorem afterAbort_third (h : 3 ≤ c.aborts) : a.afterAbort id false = a.abandon c := by
  simp [State.afterAbort, hc, h]

end

/-- A failed read that the working view does not explain makes the abort the third one; a poisoned read finds its granule poisoned
already. -/
theorem memoryFault_committed {a : State} {c : Course} {addr : Nat} (h : a.onlyWorking c addr = false) (unit cause : Nat) :
    a.memoryFault c unit cause addr = (if cause = 6 then a else a.uncorrected addr).faultCourse c unit cause none true := by
  simp only [State.memoryFault, h, Bool.false_eq_true, if_false]

/-- Where the committed view is poisoned the error is not one of the working view alone. -/
theorem onlyWorking_of_poisonedAt {a : State} {addr : Nat} (c : Course) (h : a.poisonedAt addr = true) : a.onlyWorking c addr = false := by
  simp [State.onlyWorking, h]

/-- An implicit step that may commit commits, or is skipped for a gradient that is not finite. -/
theorem implicitCommit_ready {a : State} {id : Nat} {c : Course} (hc : a.course? id = some c) (h : a.implicitReady c = true) :
    (c.nonFinite = true → a.implicitCommit id =
      ((((a.expose (fun e => e.course == id)).releaseCourses [c]).countJob c.job 1 1).sweepViews c.job).tryClose c.job) ∧
    (c.nonFinite = false → a.implicitCommit id = State.tryClose (State.sweepViews
      (State.countJob (State.countJob (State.releaseCourses (State.expose ((a.overwritten c).foldl
        (fun (x : State) g => x.clearPoison (g * granuleBytes) granuleBytes) (a.changeLatest c.job c.staging)) (fun e => e.course == id)) [c])
        c.job 0 1) c.job 5 c.flags.length) c.job) c.job) := by
  refine ⟨?skip, ?commit⟩ <;> intro hn <;> simp only [State.implicitCommit, hc, h, hn, Bool.false_eq_true, if_true, if_false]

section
variable {s a : State} {t : Stitch}

theorem exec_courseFault (h : s.Reached t a) (id unit : Nat) (k : FaultCause) (addr : Nat) (row : Option Nat) :
    exec (.courseFault t id unit k addr row) s = .next (a.courseFault id unit k addr row) :=
  act_reached (f := (·.courseFault id unit k addr row)) h

theorem exec_courseWatchdogExpiry (h : s.Reached t a) (id unit : Nat) :
    exec (.courseWatchdogExpiry t id unit) s = .next (a.watchdog id unit) := act_reached (f := (·.watchdog id unit)) h

theorem exec_implicitStepCommit (h : s.Reached t a) (id : Nat) : exec (.implicitStepCommit t id) s = .next (a.implicitCommit id) :=
  act_reached (f := (·.implicitCommit id)) h

end

/-- Settles O29: a fault by its cause on a running course, the watchdog by the cycles since the start, the third abort, and the implicit
step by its gradient. -/
theorem coursesFault : Obligations.CoursesFault := by
  unfold Obligations.CoursesFault
  intro s a t id unit c h hc
  have hfault := exec_courseFault h id unit
  have hwatch := exec_courseWatchdogExpiry h id unit
  refine ⟨fun hrun hunit => ?running, fun hrun => ?still, afterAbort_third hc, fun hready hn => ?skip, fun hready hn => ?commit⟩
  case running =>
    have hcause := courseFault_running hc hrun hunit
    refine ⟨fun addr row => ⟨?array, ?feeder, a.free.1.toNat % 256, ?vector⟩, ?memory, ?poisoned, ?store, ?due, ?early⟩
    case array => rw [hfault, hcause]
    case feeder => rw [hfault, hcause]
    case vector => rw [hfault, hcause]
    case memory =>
      intro addr row haddr hw
      simp only [hfault, hcause, haddr, if_true, memoryFault_committed hw]
      rfl
    case poisoned =>
      intro addr row hp
      simp only [hfault, hcause, hp, Bool.true_or, if_true, memoryFault_committed (onlyWorking_of_poisonedAt c hp)]
    case store =>
      intro addr row haddr
      simp only [hfault, hcause, Nat.not_lt.mpr haddr, if_false]
    case due =>
      intro start hu hs hd
      rw [hwatch, watchdog_due hc hrun hunit hu hs hd]
    case early =>
      intro start hs hd
      rw [hwatch, watchdog_early hc hs hd]
  case still =>
    exact ⟨fun k addr row => by rw [hfault, courseFault_notRunning hc hrun], by rw [hwatch, watchdog_notRunning hc hrun]⟩
  case skip => rw [exec_implicitStepCommit h, (implicitCommit_ready hc hready).1 hn]
  case commit => rw [exec_implicitStepCommit h, (implicitCommit_ready hc hready).2 hn]

/-! ### Power measured (01 R17; 14 R402 to R404) -/

/-- The limit of the power terms is the least of them; without a measured voltage the input cap bounds nothing. -/
theorem powerLimit_eq (a : State) : a.powerLimit = min (min a.cfg.fields.powerLimit a.pw.hostCap)
    (if a.pw.vin = 0 then a.startLimit else min (40 * a.pw.vin / 100) a.startLimit) := by
  by_cases hv : a.pw.vin = 0
  · simp [State.powerLimit, State.inputCap, hv]
  · simp [State.powerLimit, State.inputCap, hv]
    omega

/-- A sample changes the voltage that the limit depends on, and no other of its terms. -/
theorem powerLimit_addSample (a : State) (draw volt cur : Nat) :
    ({ a with pw := a.pw.addSample a.stitch draw volt cur } : State).powerLimit = min (min a.cfg.fields.powerLimit a.pw.hostCap)
      (if volt = 0 then a.startLimit else min (40 * volt / 100) a.startLimit) := powerLimit_eq _

theorem slower_bounds {f : Nat} (hlow : 325 ≤ f) (hhigh : f ≤ 1300) (n : Nat) : 325 ≤ slower f n ∧ slower f n ≤ 1300 := by
  unfold slower
  omega

/-- A clock stays between 325 MHz and 1,300 MHz. -/
theorem nextClock_bounds {f : Nat} (hlow : 325 ≤ f) (hhigh : f ≤ 1300) (draw limit : Nat) (hot : Bool) :
    325 ≤ nextClock f draw limit hot ∧ nextClock f draw limit hot ≤ 1300 := by
  unfold nextClock
  split_ifs
  · exact slower_bounds hlow hhigh _
  · exact slower_bounds hlow hhigh _
  · unfold faster
    omega
  · exact ⟨hlow, hhigh⟩

/-- Above the limit a clock falls by 5 MHz for every percent of excess, at least once. -/
theorem nextClock_above {draw limit : Nat} (h : limit < draw) (f : Nat) (hot : Bool) :
    nextClock f draw limit hot = max 325 (f - 5 * max 1 ((draw - limit) * 100 / max limit 1)) := by
  rw [nextClock, if_pos h, slower]

/-- The third failed bridge group stops the issuing of courses; the groups before it have been replaced. -/
theorem bridgeFail_fresh {a b : State} {g n : Nat} (hg : a.dev.failedGroups.contains g = false) (h66 : g < 66)
    (hn : n = a.dev.failedGroups.length + 1)
    (hb : b = { a with dev := { a.dev with failedGroups := a.dev.failedGroups ++ [g],
                                           issuingStopped := a.dev.issuingStopped || decide (3 ≤ n) } }) :
    a.bridgeFail g = (b.raiseFault 4).cper { cls := 8, sev := if 3 ≤ n then sevFatal else sevCorrected
                                             status := if 3 ≤ n then stDeviceFault else 0
                                             detail := [BitVec.ofNat 8 g, BitVec.ofNat 8 (2 - n)] } := by
  subst hn hb
  simp only [State.bridgeFail, hg, Nat.not_le.mpr h66, decide_false, Bool.or_self, Bool.false_eq_true, if_false]

/-- A group that has failed already, or that the bridge does not have, changes nothing. -/
theorem bridgeFail_known {a : State} {g : Nat} (h : a.dev.failedGroups.contains g = true ∨ 66 ≤ g) : a.bridgeFail g = a := by
  have hskip : (a.dev.failedGroups.contains g || decide (66 ≤ g)) = true := by simpa using h
  rw [State.bridgeFail, if_pos hskip]

section
variable {s a : State} {t : Stitch} (h : s.Reached t a)
include h

theorem exec_powerSample (east : Bool) (draw volt cur : Nat) :
    exec (.powerSample t east draw volt cur) s = .next (a.powerSample east draw volt cur) :=
  act_reached (f := (·.powerSample east draw volt cur)) h

theorem exec_powerHostCapWrite (w : Word) : exec (.powerHostCapWrite t w) s = .next (a.powerHostCapWrite w) :=
  act_reached (f := (·.powerHostCapWrite w)) h

theorem exec_overcurrentEvent (cur : Nat) : exec (.overcurrentEvent t cur) s = .next (a.overcurrent cur) :=
  act_reached (f := (·.overcurrent cur)) h

theorem exec_dieThrottleTemperature (east : Bool) (temp : Nat) :
    exec (.dieThrottleTemperature t east temp) s = .next (a.dieTemperature east temp) :=
  act_reached (f := (·.dieTemperature east temp)) h

theorem exec_bridgeLaneGroupFail (g : Nat) : exec (.bridgeLaneGroupFail t g) s = .next (a.bridgeFail g) :=
  act_reached (f := (·.bridgeFail g)) h

end

/-- Settles O52: a sample by its die, the bounds of a clock, the cap, the overcurrent and the temperature by their thresholds, and a bridge
group by whether it fails for the first time. -/
theorem powerMeasured : Obligations.PowerMeasured := by
  unfold Obligations.PowerMeasured
  intro s a t h
  refine ⟨?west, ?east, ?clock, fun w => exec_powerHostCapWrite h w, ?above, ?within, ?hot, ?cool, ?fails, ?known⟩
  case west =>
    rintro draw volt cur limit clock rfl rfl
    rw [exec_powerSample h, State.powerSample, powerLimit_addSample]
    rfl
  case east =>
    rintro draw volt cur limit clock rfl rfl
    rw [exec_powerSample h, State.powerSample, powerLimit_addSample]
    rfl
  case clock =>
    intro f draw limit hot hlow hhigh
    obtain ⟨hmin, hmax⟩ := nextClock_bounds hlow hhigh draw limit hot
    exact ⟨hmin, hmax, fun habove => nextClock_above habove f hot⟩
  case above =>
    intro cur hcur
    rw [exec_overcurrentEvent h, State.overcurrent, if_pos hcur]
  case within =>
    intro cur hcur
    rw [exec_overcurrentEvent h, State.overcurrent, if_neg (Nat.not_lt.mpr hcur)]
  case hot =>
    intro temp htemp
    have hhot : decide (105 ≤ temp) = true := decide_eq_true htemp
    constructor <;> simp only [exec_dieThrottleTemperature h, State.dieTemperature, hhot] <;> rfl
  case cool =>
    intro temp htemp
    have hcool : decide (105 ≤ temp) = false := decide_eq_false (Nat.not_le.mpr htemp)
    constructor <;> simp only [exec_dieThrottleTemperature h, State.dieTemperature, hcool] <;> rfl
  case fails =>
    intro g n b hg h66 hn hb
    rw [exec_bridgeLaneGroupFail h, bridgeFail_fresh hg h66 hn hb]
  case known =>
    intro g hg
    rw [exec_bridgeLaneGroupFail h, bridgeFail_known hg]

end Sys2Proof.Machine
end

section
/-! SUPPORT. Completions, the admin mailbox, the doorbells and the set-up of the command rings: the equations of their operations, case by case,
and the statements CompletionWritten, AdminMailbox, RingDoorbells and RingsSetUp, settled by them. -/

namespace Sys2Proof.Machine

/-! ### Completions (02 R59, R60, R64; 14 R412) -/

@[simp] theorem raise_ring (s : State) (c : Causes) (q : Nat) : (s.raise c).ring q = s.ring q := by
  rw [State.ring, raise_rings, State.ring]

@[simp] theorem emit_ring (s : State) (e : Emission) (q : Nat) : (s.emit e).ring q = s.ring q := rfl

@[simp] theorem count_ring (s : State) (i n q : Nat) : (s.count i n).ring q = s.ring q := rfl

/-- An attention leaves every other ring. -/
theorem attention_ring_other (s : State) {r q : Nat} (cause : Nat) (h : q ≠ r) : (s.attention r cause).ring q = s.ring q := by
  rw [State.attention, raise_ring, updRing_other _ h]

/-- An attention is the ring's cause, and each but cause 4 halts it. -/
theorem attention_ring_same {s : State} {r : Nat} (cause : Nat) (h : r < s.rings.length) :
    (s.attention r cause).ring r = { s.ring r with attn := cause, halted := (s.ring r).halted || cause != 4 } := by
  rw [State.attention, raise_ring, updRing_same _ h]

/-- An attention joins those of the other rings. -/
theorem attention_ringAttn (s : State) (r cause : Nat) :
    (s.attention r cause).intr.ringAttn = s.intr.ringAttn ||| BitVec.ofNat 32 (2 ^ r) := by
  obtain ⟨p, h⟩ := raise_intr (s.updRing r (fun g => { g with attn := cause, halted := g.halted || cause != 4 }))
    { ringAttn := BitVec.ofNat 32 (2 ^ r) }
  rw [State.attention, h, State.updRing_intr]

/-- A completion entry is written at the tail, before the interrupt that it may cause. -/
def State.cplEntry (s : State) (r : Nat) (x : Completion) : State :=
  State.updRing ((s.updRing r (fun g => { g with outstanding := g.outstanding - 1 })).emit
      (.hostWrite ((s.ring r).cqBase.toNat + (s.ring r).cqTail * cplBytes (s.ring r).revision) (s.completionBytes (s.ring r).phase x))) r
    (fun g => { g with cqTail := ((s.ring r).cqTail + 1) % (s.ring r).size
                       phase := if ((s.ring r).cqTail + 1) % (s.ring r).size = 0 then !g.phase else g.phase })

theorem writeRingCpl_taken (s : State) (r : Nat) (x : Completion) : s.writeRingCpl r false x =
    if x.tag.intr && (s.ring r).intEnable then (s.cplEntry r x).raise { ringCpl := BitVec.ofNat 32 (2 ^ r) } else s.cplEntry r x := rfl

theorem writeRingCpl_faulted (s : State) (r : Nat) (x : Completion) : s.writeRingCpl r true x =
    State.attention (State.count (s.updRing r (fun (g : Ring) => { g with outstanding := g.outstanding - 1 })) 10 1) r 3 := rfl

@[simp] theorem cplEntry_other (s : State) {r q : Nat} (x : Completion) (h : q ≠ r) : (s.cplEntry r x).ring q = s.ring q := by
  rw [State.cplEntry, updRing_other _ h, emit_ring, updRing_other _ h]

/-- The entry's ring has its next tail and, where the tail wraps, the other phase. -/
theorem cplEntry_same {s : State} {r : Nat} (x : Completion) (h : r < s.rings.length) : (s.cplEntry r x).ring r =
    { s.ring r with
      outstanding := (s.ring r).outstanding - 1
      cqTail := ((s.ring r).cqTail + 1) % (s.ring r).size
      phase := if ((s.ring r).cqTail + 1) % (s.ring r).size = 0 then !(s.ring r).phase else (s.ring r).phase } := by
  have hlen : r < ((s.updRing r (fun g => { g with outstanding := g.outstanding - 1 })).emit
      (.hostWrite ((s.ring r).cqBase.toNat + (s.ring r).cqTail * cplBytes (s.ring r).revision)
        (s.completionBytes (s.ring r).phase x))).rings.length := by simpa [State.updRing] using h
  rw [State.cplEntry, updRing_same _ hlen, emit_ring, updRing_same _ h]

/-- A completion written or dropped leaves every other ring, the mailbox and the Stash. -/
theorem writeRingCpl_others (s : State) (r : Nat) (fault : Bool) (x : Completion) :
    (∀ q, q ≠ r → (s.writeRingCpl r fault x).ring q = s.ring q) ∧ (s.writeRingCpl r fault x).admin = s.admin ∧
      (s.writeRingCpl r fault x).stash = s.stash := by
  cases fault with
  | true =>
    rw [writeRingCpl_faulted]
    exact ⟨fun q hq => by rw [attention_ring_other _ _ hq, count_ring, updRing_other _ hq], raise_admin _ _, raise_stash _ _⟩
  | false =>
    rw [writeRingCpl_taken]
    split
    · exact ⟨fun q hq => by rw [raise_ring, cplEntry_other _ _ hq], raise_admin _ _, raise_stash _ _⟩
    · exact ⟨fun q hq => cplEntry_other _ _ hq, rfl, rfl⟩

section
variable {s : State} {x : Completion} (he : x.tag.epoch = s.dev.epoch)
include he

/-- During a firmware handover a completion waits. -/
theorem complete_handover (hfw : s.dev.fwActivating = true) : s.complete x = { s with fw := { s.fw with late := s.fw.late ++ [x] } } := by
  simp [State.complete, he, hfw]

theorem complete_ring {r : Nat} (hfw : s.dev.fwActivating = false) (hsrc : x.tag.src = .ring r) : s.complete x =
    if (s.ring r).cqFull || !(s.ring r).held.isEmpty then s.updRing r (fun (g : Ring) => { g with held := g.held ++ [x] })
    else s.writeRingCpl r x.tag.cplFault x := by
  simp [State.complete, he, hfw, hsrc]

theorem complete_admin (hfw : s.dev.fwActivating = false) (hsrc : x.tag.src = .admin) : s.complete x = s.writeAdminCpl x := by
  simp [State.complete, he, hfw, hsrc]

end

/-- A completion whose write the host takes: the entry at the tail, and the interrupt where entry and ring ask for it. -/
theorem writeRingCpl_effect (s : State) (r : Nat) (x : Completion) :
    s.out ++ [.hostWrite ((s.ring r).cqBase.toNat + (s.ring r).cqTail * cplBytes (s.ring r).revision)
      (s.completionBytes (s.ring r).phase x)] <+: (s.writeRingCpl r false x).out ∧ (s.writeRingCpl r false x).cnt = s.cnt ∧
    (s.writeRingCpl r false x).ring r = (s.cplEntry r x).ring r ∧
    (s.writeRingCpl r false x).intr.ringCpl =
      (if x.tag.intr && (s.ring r).intEnable then s.intr.ringCpl ||| BitVec.ofNat 32 (2 ^ r) else s.intr.ringCpl) := by
  rw [writeRingCpl_taken]
  split
  · obtain ⟨p, hp⟩ := raise_intr (s.cplEntry r x) { ringCpl := BitVec.ofNat 32 (2 ^ r) }
    exact ⟨raise_out (List.prefix_refl (s.cplEntry r x).out) _, raise_cnt _ _, raise_ring _ _ _, by rw [hp]; rfl⟩
  · exact ⟨List.prefix_refl _, rfl, rfl, rfl⟩

/-- Settles O2: a handover, a full ring, a write that faults and a write that is taken, each by its equation. -/
theorem completionWritten : Obligations.CompletionWritten := by
  unfold Obligations.CompletionWritten
  intro s x r hsrc hr he
  refine ⟨complete_handover he, fun hfw => ?_⟩
  have hends := complete_sans s x
  rw [complete_ring he hfw hsrc] at hends ⊢
  by_cases hfull : ((s.ring r).cqFull || !(s.ring r).held.isEmpty) = true
  case pos =>
    rw [if_pos hfull] at hends ⊢
    simp only [Bool.or_eq_true, Bool.not_eq_true', List.isEmpty_eq_false_iff] at hfull
    refine ⟨fun q hq => updRing_other _ hq, rfl, rfl, hends, fun _ => ⟨?_, rfl, rfl, rfl⟩, fun hroom hnone => ?_, fun hroom hnone => ?_⟩
    · rw [updRing_same _ hr]
    · simp [hroom, hnone] at hfull
    · simp [hroom, hnone] at hfull
  case neg =>
    rw [if_neg hfull] at hends ⊢
    obtain ⟨hrings, hadmin, hstash⟩ := writeRingCpl_others s r x.tag.cplFault x
    refine ⟨hrings, hadmin, hstash, hends, fun hheld => ?_, fun _ _ hfault => ?_, fun _ _ hfault => ?_⟩
    · exact absurd (by simpa using hheld) hfull
    · rw [hfault]
      rfl
    · rw [hfault]
      obtain ⟨hout, hcnt, hring, hintr⟩ := writeRingCpl_effect s r x
      rw [hring, cplEntry_same x hr]
      exact ⟨hout, hcnt, rfl, rfl, hintr⟩

/-! ### The admin mailbox (02 R53, R54) -/

section
variable {a : State} {value : Word} (hready : a.dev.hostReady = true) (hsubmit : value.getLsbD 0 = true)
include hready hsubmit

theorem adminDoorbell_idle (hbusy : a.admin.busy = false) : a.adminDoorbell value =
    { a.wakeModule with admin := { a.admin with latched := some a.admin.command, busy := true, done := false } } := by
  simp only [State.adminDoorbell, hready, hsubmit, hbusy, Bool.not_true, Bool.or_self, Bool.false_eq_true, if_false]

theorem adminDoorbell_busy (hbusy : a.admin.busy = true) : a.adminDoorbell value =
    State.raise { a.wakeModule with admin := { a.admin with overrun := true } } { overrun := true } := by
  simp only [State.adminDoorbell, hready, hsubmit, hbusy, Bool.not_true, Bool.or_self, Bool.false_eq_true, if_false, if_true]

end

/-- A word of ADMIN_COMMAND is written in its place. -/
theorem wordWrite_command (a : State) {i : Nat} (hi : i < 16) (x : Word) : a.wordWrite (0x10000 + 4 * i) x =
    { a with admin := { a.admin with command := overlayBytes a.admin.command (4 * i) (le 4 x.toNat) } } := by
  have hin : 0x10000 ≤ 0x10000 + 4 * i ∧ 0x10000 + 4 * i < 0x10040 := by omega
  rw [State.wordWrite, if_neg (by omega), if_neg (by omega), if_neg (by omega), if_pos hin, Nat.add_sub_cancel_left]

/-- The admin completion stands in its window and may raise cause 0; rings, counters and the Stash stay. -/
theorem writeAdminCpl_effect (a : State) (x : Completion) :
    (a.writeAdminCpl x).admin = { a.admin with busy := false, done := true, phase := !a.admin.phase
                                               completion := a.completionBytes a.admin.phase x } ∧
      (a.writeAdminCpl x).rings = a.rings ∧ (a.writeAdminCpl x).cnt = a.cnt ∧ (a.writeAdminCpl x).stash = a.stash ∧
      (a.writeAdminCpl x).intr.admin = (a.intr.admin || x.tag.intr) := by
  cases hintr : x.tag.intr with
  | true =>
    simp only [State.writeAdminCpl, hintr, if_true, raise_admin, raise_rings, raise_cnt, raise_stash, true_and]
    obtain ⟨p, hp⟩ := raise_intr { a with admin := { a.admin with
      busy := false, done := true, phase := !a.admin.phase, completion := a.completionBytes a.admin.phase x } } { admin := true }
    rw [hp]
  | false => simp [State.writeAdminCpl, hintr]

/-- While an admin command is pending no ring is fetched from. -/
theorem ringFetch_latched {a : State} (h : a.admin.latched.isSome = true) (entries : Option (List (List Byte))) :
    a.ringFetch entries = a := by
  simp only [State.ringFetch, h, Bool.true_or, if_true]

/-- While an admin command is pending no ring entry is served. -/
theorem headEntry_latched {a : State} (h : a.admin.latched.isSome = true) (r : Nat) : a.headEntry (.ring r) = none := by
  simp only [State.headEntry, h, Bool.true_or, if_true, ite_self]

section
variable {s a : State} {t : Stitch} (h : s.Reached t a)
include h

theorem exec_adminDoorbell (value : Word) : exec (.adminDoorbell t value) s = .next (a.adminDoorbell value) :=
  act_reached (f := (·.adminDoorbell value)) h

theorem exec_registerWrite (off : Nat) (wide : Bool) (v : Dword) :
    exec (.registerWrite t off wide v) s = .next (a.registerWrite off wide v) := act_reached (f := (·.registerWrite off wide v)) h

/-- A narrow write is a write of the low word. -/
theorem exec_registerWrite_word (off : Nat) (v : Dword) :
    exec (.registerWrite t off false v) s = .next (a.wordWrite off (v.setWidth 32)) := exec_registerWrite h off false v

theorem exec_hostInterfaceReset (kind : ResetKind) : exec (.hostInterfaceReset t kind) s = .next a.hostInterfaceReset :=
  act_reached (f := State.hostInterfaceReset) h

end

/-- Settles O3: the doorbell by busy, the window by its words, the completion by its interrupt flag, and the rings by the latched command. -/
theorem adminMailbox : Obligations.AdminMailbox := by
  unfold Obligations.AdminMailbox
  intro s a t value h
  refine ⟨?idle, ?word, ?busy, ?completion, rfl, rfl, ?reset, ?pending⟩
  case idle =>
    intro hready hsubmit hbusy
    rw [exec_adminDoorbell h, adminDoorbell_idle hready hsubmit hbusy]
  case word =>
    intro i v hi
    rw [exec_registerWrite_word h, wordWrite_command a hi]
  case busy =>
    intro hready hsubmit hbusy
    rw [exec_adminDoorbell h, adminDoorbell_busy hready hsubmit hbusy]
  case completion =>
    intro x hsrc he hfw
    rw [complete_admin he hfw hsrc]
    obtain ⟨hadmin, hrings, hcnt, hstash, hintr⟩ := writeAdminCpl_effect a x
    exact ⟨hadmin, hrings, hcnt, hstash, writeAdminCpl_sans a x, hintr⟩
  case reset =>
    intro kind u hu
    rw [exec_hostInterfaceReset h, Host.Outcome.next.injEq] at hu
    rw [← hu]
    rfl
  case pending =>
    intro hlatched
    exact ⟨fun es => by rw [exec_ringFetch h, ringFetch_latched hlatched], headEntry_latched hlatched⟩

/-! ### Ring doorbells (02 R43, R57, R59, R60) -/

section
variable {a : State} {r : Nat} {value : Word}

/-- While host_ready reads 0 the doorbells of a ring are ignored. -/
theorem ringDoorbells_notReady (h : a.dev.hostReady = false) : a.ringDoorbell r value = a ∧ a.ringCqDoorbell r value = a := by
  constructor
  · simp only [State.ringDoorbell, h, Bool.not_false, if_true]
  · simp only [State.ringCqDoorbell, h, Bool.not_false, if_true]

/-- A tail within the ring is taken, any other raises BAD_TAIL. -/
theorem ringDoorbell_ready (h : a.dev.hostReady = true) : a.ringDoorbell r value =
    if (a.ring r).size ≤ value.toNat % 65536 then a.wakeModule.attention r 1
    else a.wakeModule.updRing r (fun (g : Ring) => { g with sqTail := value.toNat % 65536 }) := by
  simp only [State.ringDoorbell, h, Bool.not_true, Bool.false_eq_true, if_false]

/-- A head within the ring and between cq_head and cq_tail is taken, any other raises BAD_CQ_HEAD. -/
theorem ringCqDoorbell_ready (h : a.dev.hostReady = true) : a.ringCqDoorbell r value =
    if (a.ring r).size ≤ value.toNat % 65536 ∨ ((a.ring r).cqTail + (a.ring r).size - (a.ring r).cqHead) % (a.ring r).size <
        (value.toNat % 65536 + (a.ring r).size - (a.ring r).cqHead) % (a.ring r).size then a.wakeModule.attention r 5
    else a.wakeModule.updRing r (fun (g : Ring) => { g with cqHead := value.toNat % 65536 }) := by
  simp only [State.ringCqDoorbell, h, Bool.not_true, Bool.false_eq_true, if_false, Bool.or_eq_true, decide_eq_true_eq]

end

section
variable {s a : State} {t : Stitch} (h : s.Reached t a) (r : Nat)
include h

theorem exec_ringDoorbell (value : Word) : exec (.ringDoorbell t r value) s = .next (a.ringDoorbell r value) :=
  act_reached (f := (·.ringDoorbell r value)) h

theorem exec_ringCqDoorbell (value : Word) : exec (.ringCqDoorbell t r value) s = .next (a.ringCqDoorbell r value) :=
  act_reached (f := (·.ringCqDoorbell r value)) h

theorem exec_ringEnable (ie : Bool) : exec (.ringEnable t r ie) s = .next (a.ringEnable r ie) := act_reached (f := (·.ringEnable r ie)) h

theorem exec_ringDisable (ie : Bool) : exec (.ringDisable t r ie) s = .next (a.ringDisable r ie) := act_reached (f := (·.ringDisable r ie)) h

theorem exec_ringDrainDone : exec (.ringDrainDone t r) s = .next (a.ringDrainDone r) := act_reached (f := (·.ringDrainDone r)) h

theorem exec_ringConfigWrite (reg : RingReg) (value : Dword) :
    exec (.ringConfigWrite t r reg value) s = .next (a.ringConfigWrite r reg value) := act_reached (f := (·.ringConfigWrite r reg value)) h

end

/-- Settles O14: a doorbell by host_ready and its range, and what an attention does. -/
theorem ringDoorbells : Obligations.RingDoorbells := by
  unfold Obligations.RingDoorbells
  rintro s a t r value n h rfl
  refine ⟨?notReady, ?tail, ?badTail, ?head, ?badHead, ?attention⟩
  case notReady =>
    intro hready
    obtain ⟨htail, hhead⟩ := ringDoorbells_notReady (r := r) (value := value) hready
    exact ⟨by rw [exec_ringDoorbell h, htail], by rw [exec_ringCqDoorbell h, hhead]⟩
  case tail =>
    intro hready hin
    rw [exec_ringDoorbell h, ringDoorbell_ready hready, if_neg (Nat.not_le.mpr hin)]
  case badTail =>
    intro hready hout
    rw [exec_ringDoorbell h, ringDoorbell_ready hready, if_pos hout]
  case head =>
    intro hready hin hbetween
    rw [exec_ringCqDoorbell h, ringCqDoorbell_ready hready, if_neg (not_or.mpr ⟨Nat.not_le.mpr hin, Nat.not_lt.mpr hbetween⟩)]
  case badHead =>
    intro hready hout
    rw [exec_ringCqDoorbell h, ringCqDoorbell_ready hready, if_pos (.inl hout)]
  case attention =>
    intro b cause hr
    rw [attention_ring_same cause hr]
    exact ⟨rfl, rfl, attention_ringAttn b r cause, fun q hq => attention_ring_other b cause hq,
      attention_out (List.prefix_refl _) r cause, attention_sans b r cause⟩

/-! ### The set-up of the rings (02 R55, R56, R61) -/

/-- Two changes of a ring are one. -/
theorem updRing_updRing (s : State) (r : Nat) (f g : Ring → Ring) : (s.updRing r f).updRing r g = s.updRing r (g ∘ f) := by
  simp only [State.updRing, List.modify_modify_eq]

/-- Changes of a ring that agree on the ring are the same change. -/
theorem updRing_congr {s : State} {r : Nat} {f g : Ring → Ring} (h : f (s.ring r) = g (s.ring r)) : s.updRing r f = s.updRing r g := by
  have hlist : s.rings.modify r f = s.rings.modify r g := by
    apply List.ext_getElem?
    intro q
    by_cases hq : r = q
    · subst hq
      rcases Nat.lt_or_ge r s.rings.length with hr | hr
      · simpa [State.ring, List.getD_eq_getElem?_getD, hr] using h
      · simp [hr]
    · simp [List.getElem?_modify_ne, hq]
  rw [State.updRing, State.updRing, hlist]

theorem updRing_id (s : State) (r : Nat) : s.updRing r id = s := by
  rw [State.updRing, List.modify_id]

/-- A disabled ring that has drained starts anew: of its registers the set-up stays. -/
theorem ringEnable_starts {a : State} {r : Nat} (ie : Bool) (hready : a.dev.hostReady = true) (hphase : a.dev.castOnPhase ≠ 0xFE)
    (he : (a.ring r).enable = false) (hd : (a.ring r).enabled = false) :
    a.ringEnable r ie = a.updRing r (fun g => { Ring.reset with
        sqBase := g.sqBase, cqBase := g.cqBase, sizeLog2 := g.sizeLog2, revision := g.revision, priority := g.priority
        intEnable := ie, enable := true, enabled := true, phase := true }) := by
  simp only [State.ringEnable, he, hd, hready, decide_eq_false hphase, Bool.or_self, Bool.not_true, Bool.false_eq_true, if_false,
    updRing_updRing]
  rfl

theorem Ring.enabled_false_eq {g : Ring} (h : g.enabled = false) : { g with enabled := false } = g := by
  rw [← h]

/-- Once a disabled ring has drained, enabled reads 0. -/
theorem ringDrainDone_drained {a : State} {r : Nat} (he : (a.ring r).enable = false) (hd : (a.ring r).drained = true) :
    a.ringDrainDone r = a.updRing r (fun (g : Ring) => { g with enabled := false }) := by
  refine updRing_congr ?_
  cases hon : (a.ring r).enabled with
  | true => simp only [he, hd, Bool.not_false, Bool.and_self, if_true]
  | false =>
    rw [Ring.enabled_false_eq hon, ite_self]

/-- While commands of the ring are under way, enabled stays. -/
theorem ringDrainDone_busy {a : State} {r : Nat} (hd : (a.ring r).drained = false) : a.ringDrainDone r = a :=
  calc a.ringDrainDone r = a.updRing r id := updRing_congr (by simp only [hd, Bool.and_false, Bool.false_eq_true, if_false, id_eq])
    _ = a := updRing_id a r

/-- The set-up registers of an enabled ring are not written. -/
theorem ringConfigWrite_enabled {a : State} {r : Nat} (h : (a.ring r).enabled = true) (reg : RingReg) (value : Dword) :
    a.ringConfigWrite r reg value = a.attention r 4 := by
  unfold State.ringConfigWrite
  rw [if_pos h]

/-- What a write does to each set-up register of a disabled ring. -/
theorem ringConfigWrite_disabled {a : State} {r : Nat} (h : (a.ring r).enabled = false) (reg : RingReg) (value : Dword) :
    a.ringConfigWrite r reg value = match reg with
      | .sqBase => a.updRing r (fun (g : Ring) => { g with sqBase := value &&& ~~~0xFFF })
      | .cqBase => a.updRing r (fun (g : Ring) => { g with cqBase := value &&& ~~~0xFFF })
      | .size => if 4 ≤ value.toNat % 16 ∧ value.toNat % 16 ≤ 12 then
          a.updRing r (fun (g : Ring) => { g with sizeLog2 := value.toNat % 16 }) else a
      | .revision => if value.toNat % 4 = 2 ∨ (value.toNat % 4 = 1 ∧ a.cfg.fields.rev1Allowed = 1) then
          a.updRing r (fun (g : Ring) => { g with revision := value.toNat % 4 }) else a := by
  unfold State.ringConfigWrite
  rw [h]
  cases reg <;> rfl

/-- Settles O15: enabling, disabling and the end of the drain, and the set-up registers by whether the ring is enabled. -/
theorem ringsSetUp : Obligations.RingsSetUp := by
  unfold Obligations.RingsSetUp
  intro s a t r ie value h
  refine ⟨fun hready hphase he hd => ⟨_, exec_ringEnable h r ie, ringEnable_starts ie hready hphase he hd⟩, exec_ringDisable h r ie,
    ?drained, ?busy, ?enabled, ?disabled⟩
  case drained =>
    intro he hd
    rw [exec_ringDrainDone h, ringDrainDone_drained he hd]
  case busy =>
    intro hd
    rw [exec_ringDrainDone h, ringDrainDone_busy hd]
  case enabled =>
    intro reg hon
    rw [exec_ringConfigWrite h, ringConfigWrite_enabled hon]
  case disabled =>
    intro hoff
    simp only [exec_ringConfigWrite h, ringConfigWrite_disabled hoff]
    exact ⟨trivial, trivial, trivial, trivial⟩

end Sys2Proof.Machine
end

section
/-! SUPPORT. The window onto device memory: what a write stores and what a read answers, by whether its bytes are barred, dropped or poisoned, the
accesses that wait, and the statements WindowWritten and WindowRead, settled by them. -/

namespace Sys2Proof.Machine

/-! ### Writes (02 R47; 03 R85, R109, R110) -/

/-- A module that is awake needs no waking. -/
theorem wakeModule_active {a : State} (h : a.pw.module = 0) : a.wakeModule = a := by
  simp [State.wakeModule, h]

/-- No address of a run has a property that none of its bytes has. -/
theorem any_run_false {p : Nat → Bool} {x n : Nat} (h : ∀ i, i < n → p (x + i) = false) : ((List.range n).map (x + ·)).any p = false := by
  simpa using h

/-- Some address of a run has a property that its first byte has. -/
theorem any_run_true {p : Nat → Bool} {x n : Nat} (hn : 0 < n) (h : p x = true) : ((List.range n).map (x + ·)).any p = true := by
  simp only [List.any_map, List.any_eq_true, List.mem_range, Function.comp_apply]
  exact ⟨0, hn, h⟩

/-- A host write that is stored whole writes its bytes into the latest contents; beside them only the older contents that the host still
reads may change. -/
theorem hostStoreAll_kept {keep : Nat → Bool} {data : List Byte} (s : State) (x : Nat) (h : ∀ i, i < data.length → keep (x + i) = true) :
    ∃ old, s.hostStoreAll keep x data = { s with mem := { s.mem with cells := Memory.writeBytes s.mem.cells x data, hostOld := old } } := by
  induction data generalizing s x with
  | nil => exact ⟨s.mem.hostOld, rfl⟩
  | cons b bs ih =>
    have hfirst : keep x = true := h 0 (Nat.zero_lt_succ _)
    have hrest : ∀ i, i < bs.length → keep (x + 1 + i) = true := fun i hi => by
      rw [Nat.add_assoc, Nat.add_comm 1]
      exact h (i + 1) (Nat.succ_lt_succ hi)
    obtain ⟨old, hold⟩ := ih (s.hostStore x b) (x + 1) hrest
    exact ⟨old, by rw [State.hostStoreAll, if_pos hfirst, hold]; rfl⟩

/-- A host write of which no byte is stored changes nothing. -/
theorem hostStoreAll_refused {keep : Nat → Bool} {data : List Byte} (s : State) (x : Nat) (h : ∀ i, i < data.length → keep (x + i) = false) :
    s.hostStoreAll keep x data = s := by
  induction data generalizing x with
  | nil => rfl
  | cons b bs ih =>
    have hfirst : keep x = false := h 0 (Nat.zero_lt_succ _)
    have hrest : ∀ i, i < bs.length → keep (x + 1 + i) = false := fun i hi => by
      rw [Nat.add_assoc, Nat.add_comm 1]
      exact h (i + 1) (Nat.succ_lt_succ hi)
    rw [State.hostStoreAll, hfirst]
    exact ih (x + 1) hrest

/-- Where nothing is poisoned no poison is cleared. -/
theorem clearStored_clean {s : State} (h : s.mem.poison = []) (keep : Nat → Bool) (x n : Nat) : s.clearStored keep x n = s := by
  simp [State.clearStored, h]

/-- A write of which no byte is stored clears no poison. -/
theorem clearStored_refused {keep : Nat → Bool} {x n : Nat} (s : State) (h : ∀ i, i < n → keep (x + i) = false) :
    s.clearStored keep x n = s := by
  have hnone : s.mem.poison.filter (fun g => decide (x ≤ g * granuleBytes) && decide ((g + 1) * granuleBytes ≤ x + n) &&
      (List.range granuleBytes).all (fun i => keep (g * granuleBytes + i))) = [] := by
    refine List.filter_eq_nil_iff.mpr fun g _ hg => ?_
    simp only [Bool.and_eq_true, decide_eq_true_eq, List.all_eq_true, List.mem_range] at hg
    obtain ⟨⟨hlow, hhigh⟩, hkeep⟩ := hg
    have hgranule : (g + 1) * granuleBytes = g * granuleBytes + 64 := by rw [Nat.add_mul, Nat.one_mul]; rfl
    have hfirst := h (g * granuleBytes - x) (by omega)
    rw [Nat.add_sub_cancel' hlow] at hfirst
    have hkept := hkeep 0 (by decide)
    rw [Nat.add_zero, hfirst] at hkept
    exact Bool.false_ne_true hkept
  rw [State.clearStored, hnone]
  rfl

/-- The host stores a byte: its address is neither barred nor dropped. -/
def State.stores (s : State) (x : Nat) : Bool := !s.barred x && !s.writeDropped x

/-- What a write that touches no read_count field of a trace ring does. -/
theorem bar2Store_noRing {a : State} {x0 : Nat} {data : List Byte} (h : a.ringsAt x0 data.length = []) :
    a.bar2Store x0 data =
      (State.hostStoreAll
        (if ((List.range data.length).map (x0 + ·)).any (fun x => !a.barred x && a.writeDropped x) then
          (if ((List.range data.length).map (x0 + ·)).any a.barred then a.count 0 1 else a).count 1 1
         else if ((List.range data.length).map (x0 + ·)).any a.barred then a.count 0 1 else a)
        a.stores x0 data).clearStored a.stores x0 data.length := by
  have hfield : inReadCount [] = fun _ => false := rfl
  simp only [State.bar2Store, h, hfield, Bool.not_false, Bool.true_and, List.foldl_nil]
  rfl

/-- A write outside barred and dropped ranges stores its bytes, where nothing is poisoned. -/
theorem bar2Store_stored {a : State} {x0 : Nat} {data : List Byte} (hring : a.ringsAt x0 data.length = []) (hpoison : a.mem.poison = [])
    (h : ∀ i, i < data.length → a.barred (x0 + i) = false ∧ a.writeDropped (x0 + i) = false) :
    ∃ old, a.bar2Store x0 data =
      { a with mem := { a.mem with cells := Memory.writeBytes a.mem.cells x0 data, hostOld := old } } := by
  have hkeep : ∀ i, i < data.length → a.stores (x0 + i) = true := fun i hi => by simp [State.stores, h i hi]
  obtain ⟨old, hstored⟩ := hostStoreAll_kept a x0 hkeep
  have hbarred : ((List.range data.length).map (x0 + ·)).any a.barred = false := any_run_false fun i hi => (h i hi).1
  have hdropped : ((List.range data.length).map (x0 + ·)).any (fun x => !a.barred x && a.writeDropped x) = false :=
    any_run_false fun i hi => by simp [h i hi]
  refine ⟨old, ?_⟩
  simp only [bar2Store_noRing hring, hbarred, hdropped, Bool.false_eq_true, if_false, hstored]
  exact clearStored_clean (by exact hpoison) _ _ _

/-- A write into a barred range is counted and stores nothing. -/
theorem bar2Store_barred {a : State} {x0 : Nat} {data : List Byte} (hring : a.ringsAt x0 data.length = []) (hdata : data ≠ [])
    (h : ∀ i, i < data.length → a.barred (x0 + i) = true) : a.bar2Store x0 data = a.count 0 1 := by
  have hkeep : ∀ i, i < data.length → a.stores (x0 + i) = false := fun i hi => by simp [State.stores, h i hi]
  have hlen : 0 < data.length := List.length_pos_iff.mpr hdata
  have hbarred : ((List.range data.length).map (x0 + ·)).any a.barred = true := any_run_true hlen (h 0 hlen)
  have hdropped : ((List.range data.length).map (x0 + ·)).any (fun x => !a.barred x && a.writeDropped x) = false :=
    any_run_false fun i hi => by simp [h i hi]
  simp only [bar2Store_noRing hring, hbarred, hdropped, Bool.false_eq_true, if_false, if_true]
  rw [hostStoreAll_refused _ _ hkeep, clearStored_refused _ hkeep]

/-- A write into a dropped range is counted and stores nothing. -/
theorem bar2Store_dropped {a : State} {x0 : Nat} {data : List Byte} (hring : a.ringsAt x0 data.length = []) (hdata : data ≠ [])
    (h : ∀ i, i < data.length → a.barred (x0 + i) = false ∧ a.writeDropped (x0 + i) = true) : a.bar2Store x0 data = a.count 1 1 := by
  have hkeep : ∀ i, i < data.length → a.stores (x0 + i) = false := fun i hi => by simp [State.stores, h i hi]
  have hlen : 0 < data.length := List.length_pos_iff.mpr hdata
  have hfirst : a.barred x0 = false ∧ a.writeDropped x0 = true := h 0 hlen
  have hbarred : ((List.range data.length).map (x0 + ·)).any a.barred = false := any_run_false fun i hi => (h i hi).1
  have hdropped : ((List.range data.length).map (x0 + ·)).any (fun x => !a.barred x && a.writeDropped x) = true :=
    any_run_true hlen (by simp [hfirst])
  simp only [bar2Store_noRing hring, hbarred, hdropped, Bool.false_eq_true, if_false, if_true]
  rw [hostStoreAll_refused _ _ hkeep, clearStored_refused _ hkeep]

/-- A write that nothing holds is served at once by a module that is awake. -/
theorem bar2Write_served {a : State} {off : Nat} {data : List Byte} (hm : a.pw.module = 0)
    (hh : a.bar2Holds (a.dev.bar2Base + off) data.length = false) :
    a.bar2Write off data = a.bar2Store (a.dev.bar2Base + off) data := by
  simp [State.bar2Write, hm, hh, wakeModule_active hm]

/-- A read that nothing holds is served at once by a module that is awake. -/
theorem bar2Read_served {a : State} {off len : Nat} (hm : a.pw.module = 0) (hh : a.bar2Holds (a.dev.bar2Base + off) len = false) :
    a.bar2Read off len = a.bar2Serve (a.dev.bar2Base + off) len := by
  simp [State.bar2Read, hm, hh, wakeModule_active hm]

section
variable {s a : State} {t : Stitch} (h : s.Reached t a) (off : Nat)
include h

theorem exec_bar2Write (data : List Byte) : exec (.bar2Write t off data) s = .next (a.bar2Write off data) :=
  act_reached (f := (·.bar2Write off data)) h

theorem exec_bar2Read (len : Nat) : exec (.bar2Read t off len) s = .next (a.bar2Read off len) :=
  actRead_reached (f := (·.bar2Read off len)) h

theorem exec_bar2ThermalAbort : exec (.bar2ThermalAbort t off) s = .next (a.bar2ThermalAbort off) :=
  act_reached (f := (·.bar2ThermalAbort off)) h

end

/-- Settles O20: a write by whether its range is stored, barred or dropped. -/
theorem windowWritten : Obligations.WindowWritten := by
  unfold Obligations.WindowWritten
  rintro s a t off data x0 h ⟨hwf, -⟩ hm rfl hh hring hdata
  rw [exec_bar2Write h, bar2Write_served hm hh]
  refine ⟨?stored, ?barred, ?dropped⟩
  case stored =>
    intro hfree hpoison
    obtain ⟨old, hstored⟩ := bar2Store_stored hring hpoison hfree
    rw [hstored]
    exact ⟨_, rfl, fun x => read_writeBytes _ _ x hwf, writeBytes_wf _ _ hwf, rfl⟩
  case barred =>
    intro hbarred
    rw [bar2Store_barred hring hdata hbarred]
  case dropped =>
    intro hdropped
    rw [bar2Store_dropped hring hdata hdropped]

/-! ### Reads (02 R47; 03 R85, R109; 12 R342, R348; 14 R395) -/

/-- A range whose granules are all poisoned, or all clean, is one run. -/
theorem poisonRuns_uniform {bad : Nat → Bool} {p : Bool} {n x : Nat} (h : ∀ i, i < n + 1 → bad (x + i) = p) :
    poisonRuns bad (n + 1) x = [(x, n + 1, p)] := by
  induction n generalizing x with
  | zero =>
    have hfirst : bad x = p := h 0 Nat.zero_lt_one
    rw [poisonRuns, poisonRuns, hfirst]
  | succ n ih =>
    have hfirst : bad x = p := h 0 (Nat.zero_lt_succ _)
    have hrest : ∀ i, i < n + 1 → bad (x + 1 + i) = p := fun i hi => by
      rw [Nat.add_assoc, Nat.add_comm 1]
      exact h (i + 1) (Nat.succ_lt_succ hi)
    rw [poisonRuns, ih hrest]
    simp only [hfirst, if_true]

/-- A byte that BAR2 answers with a poisoned completion. -/
def State.answersPoisoned (s : State) (x : Nat) : Bool := !s.barred x && s.poisonedAt x

/-- The poisoned granules that a read meets. -/
def State.granulesMet (s : State) (x n : Nat) : Nat :=
  ((List.range n).filter (fun i => s.answersPoisoned (x + i) && ((x + i) % granuleBytes == 0 || i == 0))).length

/-- A read of bytes that are poisoned alike is answered by one completion. -/
theorem bar2Serve_uniform {a : State} {x0 len : Nat} {p : Bool} (hlen : 0 < len) (h : ∀ i, i < len → a.answersPoisoned (x0 + i) = p) :
    a.bar2Serve x0 len =
      ((if a.granulesMet x0 len = 0 then (if (List.range len).any (fun i => a.barred (x0 + i)) then a.count 0 1 else a)
        else (if (List.range len).any (fun i => a.barred (x0 + i)) then a.count 0 1 else a).count 9 (a.granulesMet x0 len)).emit
        (a.bar2Reply (x0, len, p))) := by
  obtain ⟨n, rfl⟩ : ∃ n, len = n + 1 := ⟨len - 1, by omega⟩
  have hruns : poisonRuns a.answersPoisoned (n + 1) x0 = [(x0, n + 1, p)] := poisonRuns_uniform h
  change (poisonRuns a.answersPoisoned (n + 1) x0).foldl (fun (x : State) r => x.emit (a.bar2Reply r)) _ = _
  rw [hruns]
  rfl

theorem granulesMet_clean {a : State} {x0 len : Nat} (h : ∀ i, i < len → a.answersPoisoned (x0 + i) = false) : a.granulesMet x0 len = 0 := by
  rw [State.granulesMet, List.length_eq_zero_iff, List.filter_eq_nil_iff]
  intro i hi
  simp [h i (List.mem_range.mp hi)]

theorem granulesMet_poisoned {a : State} {x0 len : Nat} (hlen : 0 < len) (h : a.answersPoisoned x0 = true) : 0 < a.granulesMet x0 len := by
  refine List.length_pos_iff_exists_mem.mpr ⟨0, List.mem_filter.mpr ⟨List.mem_range.mpr hlen, ?_⟩⟩
  simp [h]

section
variable {a : State} {x0 len : Nat} (hlen : 0 < len)
include hlen

/-- A read of bytes that are neither barred nor poisoned gives the host's view. -/
theorem bar2Serve_view (h : ∀ i, i < len → a.barred (x0 + i) = false ∧ a.poisonedAt (x0 + i) = false) :
    a.bar2Serve x0 len = a.emit (.reply ((List.range len).map (fun i => a.hostView.read (x0 + i)))) := by
  have hclean : ∀ i, i < len → a.answersPoisoned (x0 + i) = false := fun i hi => by simp [State.answersPoisoned, h i hi]
  have hbarred : (List.range len).any (fun i => a.barred (x0 + i)) = false := by simpa using fun i hi => (h i hi).1
  have hbytes : (List.range len).map (fun i => if a.barred (x0 + i) then 0xFF else a.hostView.read (x0 + i)) =
      (List.range len).map (fun i => a.hostView.read (x0 + i)) :=
    List.map_congr_left fun i hi => by simp [(h i (List.mem_range.mp hi)).1]
  rw [bar2Serve_uniform hlen hclean, granulesMet_clean hclean, if_pos rfl, hbarred]
  simp only [State.bar2Reply, Bool.false_eq_true, if_false, hbytes]

/-- A read of a barred range gives all ones, and is counted. -/
theorem bar2Serve_barred (h : ∀ i, i < len → a.barred (x0 + i) = true) :
    a.bar2Serve x0 len = (a.count 0 1).emit (.reply (List.replicate len 0xFF)) := by
  have hclean : ∀ i, i < len → a.answersPoisoned (x0 + i) = false := fun i hi => by simp [State.answersPoisoned, h i hi]
  have hbarred : (List.range len).any (fun i => a.barred (x0 + i)) = true :=
    List.any_eq_true.mpr ⟨0, List.mem_range.mpr hlen, h 0 hlen⟩
  have hbytes : (List.range len).map (fun i => if a.barred (x0 + i) then 0xFF else a.hostView.read (x0 + i)) = List.replicate len 0xFF :=
    List.eq_replicate_iff.mpr ⟨by simp, fun b hb => by
      obtain ⟨i, hi, rfl⟩ := List.mem_map.mp hb
      simp [h i (List.mem_range.mp hi)]⟩
  rw [bar2Serve_uniform hlen hclean, granulesMet_clean hclean, if_pos rfl, hbarred]
  simp only [State.bar2Reply, Bool.false_eq_true, if_false, if_true, hbytes]

/-- A read of a poisoned range gives a poisoned completion, and its granules are counted. -/
theorem bar2Serve_poisoned (h : ∀ i, i < len → a.barred (x0 + i) = false ∧ a.poisonedAt (x0 + i) = true) :
    a.bar2Serve x0 len = (a.count 9 (a.granulesMet x0 len)).emit (.poisonedReply (List.replicate len 0xFF)) ∧
      0 < a.granulesMet x0 len := by
  have hbad : ∀ i, i < len → a.answersPoisoned (x0 + i) = true := fun i hi => by simp [State.answersPoisoned, h i hi]
  have hmet : 0 < a.granulesMet x0 len := granulesMet_poisoned hlen (hbad 0 hlen)
  have hbarred : (List.range len).any (fun i => a.barred (x0 + i)) = false := by simpa using fun i hi => (h i hi).1
  refine ⟨?_, hmet⟩
  rw [bar2Serve_uniform hlen hbad, if_neg (Nat.ne_of_gt hmet), hbarred]
  rfl

end

/-- An access waits for a stack in self-refresh, and in Standby. -/
theorem bar2Holds_of_cold {a : State} {x n : Nat} (h : a.pw.module = 3 ∨ a.coldStack x n = true) : a.bar2Holds x n = true := by
  rcases h with hm | hcold
  · simp [State.bar2Holds, hm]
  · obtain ⟨i, hi, htouch⟩ := List.any_eq_true.mp hcold
    simp only [Bool.and_eq_true] at htouch
    have htouches : a.touches (fun k => k.step == 5 || k.state == 1) x n = true :=
      List.any_eq_true.mpr ⟨i, hi, by simp only [htouch.1, htouch.2, Bool.true_or, Bool.and_self]⟩
    rw [State.bar2Holds, htouches, Bool.or_true]

@[simp] theorem wakeModule_bar2Wait (a : State) : a.wakeModule.bar2Wait = a.bar2Wait := by
  unfold State.wakeModule; split <;> rfl

@[simp] theorem wakeModule_stitch (a : State) : a.wakeModule.stitch = a.stitch := by
  unfold State.wakeModule; split <;> rfl

/-- A read that is held joins those that wait, and wakes the module. -/
theorem bar2Read_held {a : State} {off len : Nat} (hm : a.pw.module ≠ 4) (hh : a.bar2Holds (a.dev.bar2Base + off) len = true) :
    a.bar2Read off len = { a.wakeModule with
      bar2Wait := a.bar2Wait ++ [{ since := a.stitch, addr := a.dev.bar2Base + off, len := len, data := none }] } := by
  simp [State.bar2Read, hm, hh, State.bar2Later]

/-- In Hibernate a read gives all ones at once and begins the exit. -/
theorem bar2Read_hibernate {a : State} (hm : a.pw.module = 4) (off len : Nat) :
    a.bar2Read off len = ((a.emit (.reply (List.replicate len 0xFF))).count 21 1).wakeModule := by
  simp only [State.bar2Read, hm, if_true]

/-- The first access at an offset that is overdue is aborted. -/
theorem bar2ThermalAbort_due {a : State} {off : Nat} {w : Bar2Wait} {before after : List Bar2Wait} (hlist : a.bar2Wait = before ++ w :: after)
    (hbefore : ∀ v ∈ before, v.addr ≠ a.dev.bar2Base + off) (haddr : w.addr = a.dev.bar2Base + off) (hdue : a.overdue w = true) :
    a.bar2ThermalAbort off = a.abortWait w ∧ a.bar2Wait.erase w = before ++ after := by
  have hnone : before.find? (fun v => v.addr == a.dev.bar2Base + off && a.overdue v) = none :=
    List.find?_eq_none.mpr fun v hv => by simp [hbefore v hv]
  have hfind : a.bar2Wait.find? (fun v => v.addr == a.dev.bar2Base + off && a.overdue v) = some w := by
    rw [hlist, List.find?_append, hnone, Option.none_or, List.find?_cons_of_pos (by simp [haddr, hdue])]
  refine ⟨by rw [State.bar2ThermalAbort, hfind], ?_⟩
  rw [hlist, List.erase_append_right _ fun hw => hbefore w hw haddr, List.erase_cons_head]

/-- Before 1 ms has passed no access is aborted. -/
theorem bar2ThermalAbort_early {a : State} {off : Nat}
    (h : ∀ w ∈ a.bar2Wait, w.addr = a.dev.bar2Base + off → a.stitch < w.since + 1000000) : a.bar2ThermalAbort off = a := by
  have hnone : a.bar2Wait.find? (fun v => v.addr == a.dev.bar2Base + off && a.overdue v) = none :=
    List.find?_eq_none.mpr fun v hv => by
      simp only [Bool.and_eq_true, beq_iff_eq, State.overdue, msStitches]
      rintro ⟨haddr, -, hlate⟩
      exact absurd (h v hv haddr) (Nat.not_lt.mpr (of_decide_eq_true hlate))
  rw [State.bar2ThermalAbort, hnone]

/-- Settles O21: a read by the module's power state, by what its range holds and by what holds it, and the abort by whether it is due. -/
theorem windowRead : Obligations.WindowRead := by
  unfold Obligations.WindowRead
  rintro s a t off len x0 h rfl hlen
  rw [exec_bar2Read h, exec_bar2ThermalAbort h]
  refine ⟨fun hm hh => ?awake, ?hibernate, ?held, ?due, ?early⟩
  case awake =>
    rw [bar2Read_served hm hh]
    refine ⟨fun hview => by rw [bar2Serve_view hlen hview], fun hbarred => by rw [bar2Serve_barred hlen hbarred], fun hpoisoned => ?_⟩
    obtain ⟨hserve, hmet⟩ := bar2Serve_poisoned hlen hpoisoned
    exact ⟨_, hmet, by rw [hserve]⟩
  case hibernate =>
    intro hm
    rw [bar2Read_hibernate hm]
  case held =>
    intro hm hcold
    rw [bar2Read_held hm (bar2Holds_of_cold hcold)]
  case due =>
    rintro k w before after hlist hbefore haddr hcold hlate rfl
    have hdue : a.overdue w = true := by simp [State.overdue, haddr, hcold, msStitches, hlate]
    obtain ⟨habort, herase⟩ := bar2ThermalAbort_due hlist hbefore haddr hdue
    rw [habort, State.abortWait, herase, haddr]
  case early =>
    intro hnot
    rw [bar2ThermalAbort_early hnot]

end Sys2Proof.Machine
end

section
/-! SUPPORT. Registers written and the host interface: what a word does at each offset, the equations of the registers with a row of their own, of
resets and of the link, and the statements RegistersWritten and HostInterface, settled by them. -/

namespace Sys2Proof.Machine

/-! ### Plain registers (02 R46, R47, R50, R53, R55; 04 R124; 15 R419) -/

/-- A word written to RING_PRIORITY keeps its two low bits. -/
theorem wordWrite_priority (a : State) {r : Nat} (hr : r < 32) (x : Word) :
    a.wordWrite (0x20030 + 0x1000 * r) x = a.updRing r (fun (g : Ring) => { g with priority := x.toNat % 4 }) := by
  have hin : 0x20000 ≤ 0x20030 + 0x1000 * r ∧ 0x20030 + 0x1000 * r < 0x40000 ∧ (0x20030 + 0x1000 * r) % 0x1000 = 0x030 := by omega
  have hring : (0x20030 + 0x1000 * r - 0x20000) / 0x1000 = r := by omega
  rw [State.wordWrite, if_neg (by omega), if_neg (by omega), if_neg (by omega), if_neg (by omega), if_pos hin, hring]

/-- A word written to the MSI-X table is word `i` of entry `k`. -/
theorem wordWrite_msix (a : State) {k i : Nat} (hk : k < 66) (hi : i < 4) (x : Word) :
    a.wordWrite (0x100000 + 16 * k + 4 * i) x = a.msixWrite k i x := by
  have hin : 0x100000 ≤ 0x100000 + 16 * k + 4 * i ∧ 0x100000 + 16 * k + 4 * i < 0x100000 + 66 * 16 := by omega
  have hentry : (0x100000 + 16 * k + 4 * i - 0x100000) / 16 = k := by omega
  have hword : (0x100000 + 16 * k + 4 * i) % 16 / 4 = i := by omega
  rw [State.wordWrite, if_neg (by omega), if_neg (by omega), if_neg (by omega), if_neg (by omega), if_neg (by omega), if_neg (by omega),
    if_neg (by omega), if_pos hin, hentry, hword]

/-- A word written between the registers that take one changes nothing. -/
theorem wordWrite_readOnly (a : State) {off : Nat} (x : Word)
    (h : off < 0x00C ∨ (0x00C < off ∧ off < 0x040) ∨ (0x044 < off ∧ off < 0x10000) ∨ (0x10040 ≤ off ∧ off < 0x20000) ∨
      (0x40000 ≤ off ∧ off < 0x50070)) : a.wordWrite off x = a := by
  rw [State.wordWrite, if_neg (by omega), if_neg (by omega), if_neg (by omega), if_neg (by omega), if_neg (by omega), if_neg (by omega),
    if_neg (by omega), if_neg (by omega)]

/-- Replacing the low half of a register keeps its high half. -/
theorem mergeHalf_low (old : Dword) (w : Word) : mergeHalf old false false (w.setWidth 64) = old >>> 32 <<< 32 ||| w.setWidth 64 := by
  refine BitVec.eq_of_getLsbD_eq fun i hi => ?_
  have hmerge : mergeHalf old false false (w.setWidth 64) = (old >>> 32).setWidth 32 ++ w := by simp [mergeHalf]
  rw [hmerge, BitVec.getLsbD_append]
  by_cases hlow : i < 32
  · simp [hlow, hi]
  · have hback : 32 + (i - 32) = i := by omega
    have hword : i - 32 < 32 := by omega
    simp [hlow, hi, hback, hword, BitVec.getLsbD_of_ge w i (by omega)]

/-- Replacing the high half of a register keeps its low half. -/
theorem mergeHalf_high (old : Dword) (w : Word) :
    mergeHalf old true false (w.setWidth 64) = w.setWidth 64 <<< 32 ||| old &&& 0xFFFFFFFF := by
  refine BitVec.eq_of_getLsbD_eq fun i hi => ?_
  have hmerge : mergeHalf old true false (w.setWidth 64) = w ++ old.setWidth 32 := by simp [mergeHalf]
  have hmask : (0xFFFFFFFF : Dword) = BitVec.ofNat 64 (2 ^ 32 - 1) := rfl
  rw [hmerge, hmask, BitVec.getLsbD_append, BitVec.getLsbD_or, BitVec.getLsbD_and, BitVec.getLsbD_ofNat, Nat.testBit_two_pow_sub_one]
  by_cases hlow : i < 32
  · simp [hlow, hi]
  · simp [hlow, hi]

/-- What a word does to the address and the data of an MSI-X entry. -/
theorem msixWrite_word (a : State) (k : Nat) (x : Word) :
    a.msixWrite k 0 x = { a with intr := { a.intr with msix := a.intr.msix.modify k (fun (e : MsixEntry) =>
      { e with addr := e.addr >>> 32 <<< 32 ||| x.setWidth 64 }) } } ∧
    a.msixWrite k 1 x = { a with intr := { a.intr with msix := a.intr.msix.modify k (fun (e : MsixEntry) =>
      { e with addr := x.setWidth 64 <<< 32 ||| e.addr &&& 0xFFFFFFFF }) } } ∧
    a.msixWrite k 2 x = { a with intr := { a.intr with msix := a.intr.msix.modify k (fun (e : MsixEntry) => { e with data := x }) } } := by
  refine ⟨?_, ?_, rfl⟩
  · simp only [State.msixWrite, mergeHalf_low]
  · simp only [State.msixWrite, mergeHalf_high]

/-- The two low bits of a word are those of the value written. -/
theorem toNat_lowWord_mod (v : Dword) : (v.setWidth 32 : Word).toNat % 4 = v.toNat % 4 := by
  rw [BitVec.toNat_setWidth]
  omega

/-! ### Registers with a row of their own (02 R47; 04 R125; 15 R429, R437) -/

/-- A size from 36 to 40 is taken, any other ignored. -/
theorem resizableBarWrite_eq (a : State) (n : Nat) : a.resizableBarWrite n =
    if 36 ≤ n ∧ n ≤ 40 then
      { a with dev := { a.dev with bar2SizeLog2 := n, bar2Base := a.dev.bar2Base % 2 ^ 40 / 2 ^ n * 2 ^ n } } else a := rfl

/-- The delay is written while no job is open. -/
theorem gaugeDelayWrite_noJob {a : State} (h : a.jobs = []) (w : Word) : a.gaugeDelayWrite w = { a with gauge := { a.gauge with delay := w } } := by
  simp only [State.gaugeDelayWrite, h, List.isEmpty_nil, if_true]

/-- While a job is open the gauge's registers ignore and count a write. -/
theorem gaugeWrites_openJob {a : State} (h : a.jobs ≠ []) (w : Word) :
    a.gaugeDelayWrite w = a.count 2 1 ∧ a.gaugeControlWrite w = a.count 2 1 := by
  have hopen : a.jobs.isEmpty = false := List.isEmpty_eq_false_iff.mpr h
  constructor
  · simp only [State.gaugeDelayWrite, hopen, Bool.false_eq_true, if_false]
  · simp only [State.gaugeControlWrite, State.gaugeRefused, hopen, Bool.not_false, Bool.true_or, if_true]

/-- A set-up that is not refused restarts the gauge: what it has measured and recorded is gone. -/
theorem gaugeControlWrite_taken {a : State} {w : Word} (h : a.gaugeRefused w = false) : a.gaugeControlWrite w =
    State.setGaugeState { a with gauge := { Gauge.reset with
      control := w &&& 0xFFFF003F, state := a.gauge.state, active := gaugeSource w == 1, delay := a.gauge.delay
      sequence := a.gauge.sequence, cycDet := a.gauge.cycDet, bounce := a.gauge.bounce } } (if gaugeMode w = 0 then 0 else 1) := by
  rw [State.gaugeControlWrite, h]
  rfl

/-- Without its permission a write to the observation port is ignored and counted. -/
theorem obsAccess_refused {a : State} (h : a.permitted 0 = false) (off : Nat) (v : Dword) : a.obsAccess off (some v) = a.count 22 1 := by
  simp only [State.obsAccess, h, Bool.false_eq_true, if_false]

/-- With its permission OBS_SELECT is written. -/
theorem obsAccess_select {a : State} (h : a.permitted 0 = true) (v : Dword) :
    a.obsAccess 0x008 (some v) = { a with dbg := { a.dbg with obsSelect := v.setWidth 12 } } := by
  simp only [State.obsAccess, h, if_true]
  rfl

section
variable {s a : State} {t : Stitch} (h : s.Reached t a)
include h

theorem exec_resizableBarWrite (n : Nat) : exec (.resizableBarWrite t n) s = .next (a.resizableBarWrite n) :=
  act_reached (f := (·.resizableBarWrite n)) h

theorem exec_timeGaugeDelayWrite (w : Word) : exec (.timeGaugeDelayWrite t w) s = .next (a.gaugeDelayWrite w) :=
  act_reached (f := (·.gaugeDelayWrite w)) h

theorem exec_timeGaugeControlWrite (w : Word) : exec (.timeGaugeControlWrite t w) s = .next (a.gaugeControlWrite w) :=
  act_reached (f := (·.gaugeControlWrite w)) h

theorem exec_obsRegisterWrite (off : Nat) (v : Dword) : exec (.obsRegisterAccess t off (some v)) s = .next (a.obsAccess off (some v)) :=
  act_reached (f := (·.obsAccess off (some v))) h

/-- A size that BAR2 may have is taken, with the base bits above it. -/
theorem exec_resizableBarWrite_taken {n : Nat} (h36 : 36 ≤ n) (h40 : n ≤ 40) : exec (.resizableBarWrite t n) s = .next
    { a with dev := { a.dev with bar2SizeLog2 := n, bar2Base := a.dev.bar2Base % 2 ^ 40 / 2 ^ n * 2 ^ n } } := by
  rw [exec_resizableBarWrite h, resizableBarWrite_eq, if_pos ⟨h36, h40⟩]

end

/-- Settles O19: a word by its offset, and each register with a row of its own by whether it takes the write. -/
theorem registersWritten : Obligations.RegistersWritten := by
  unfold Obligations.RegistersWritten
  rintro s a t w v h rfl
  refine ⟨exec_registerWrite h 0x00C false v, ?base, ?command, ?priority, exec_registerWrite h 0x50070 false v,
    exec_registerWrite h 0x70010 false v, ?msix, ?readOnly, fun off => exec_registerWrite h off true v,
    fun n h36 h40 => exec_resizableBarWrite_taken h h36 h40, ?badSize, exec_powerHostCapWrite h _, ?delay, ?openJob, ?control,
    fun n => rfl, ?refused, ?select⟩
  case base =>
    rintro off base (⟨rfl, rfl⟩ | ⟨rfl, rfl⟩)
    · exact exec_registerWrite h 0x040 false v
    · exact exec_registerWrite h 0x044 false v
  case command =>
    intro i hi
    rw [exec_registerWrite_word h, wordWrite_command a hi]
  case priority =>
    intro r hr
    rw [exec_registerWrite_word h, wordWrite_priority a hr, toNat_lowWord_mod]
  case msix =>
    intro k f i hk hf
    obtain ⟨hlow, hhigh, hdata⟩ := msixWrite_word a k (v.setWidth 32)
    rcases hf with ⟨rfl, rfl⟩ | ⟨rfl, rfl⟩ | ⟨rfl, rfl⟩
    · rw [exec_registerWrite_word h, wordWrite_msix a hk (by decide), hlow]
    · rw [exec_registerWrite_word h, wordWrite_msix a hk (by decide), hhigh]
    · rw [exec_registerWrite_word h, wordWrite_msix a hk (by decide), hdata]
  case readOnly =>
    intro off hoff
    rw [exec_registerWrite_word h, wordWrite_readOnly a _ hoff]
  case badSize =>
    intro n hn
    rw [exec_resizableBarWrite h, resizableBarWrite_eq, if_neg (by omega)]
  case delay =>
    intro hjobs
    rw [exec_timeGaugeDelayWrite h, gaugeDelayWrite_noJob hjobs]
  case openJob =>
    intro hjobs
    obtain ⟨hdelay, hcontrol⟩ := gaugeWrites_openJob hjobs (v.setWidth 32)
    exact ⟨by rw [exec_timeGaugeDelayWrite h, hdelay], by rw [exec_timeGaugeControlWrite h, hcontrol]⟩
  case control =>
    rintro g - htaken rfl
    rw [exec_timeGaugeControlWrite h, gaugeControlWrite_taken htaken]
  case refused =>
    intro hperm
    rw [exec_obsRegisterWrite h, obsAccess_refused hperm]
  case select =>
    intro hperm
    rw [exec_obsRegisterWrite h, obsAccess_select hperm]

/-! ### Resets and the PCIe link (02 R40, R43, R44, R47, R78; 04 R124) -/

/-- Where equalisation fails at no speed, a limit that is a speed is the speed trained at. -/
theorem pcieSpeed_limit {g : Nat} (h3 : 3 ≤ g) (h6 : g ≤ 6) : pcieSpeed g [] = g := by
  interval_cases g <;> rfl

/-- With four lanes at least and a speed of the four, the link trains. -/
theorem pcieLinkTrain_trains {a : State} {speed width lanes g w : Nat} (hlanes : 4 ≤ lanes) (hg : g = min speed a.cfg.resetSpeed) (h3 : 3 ≤ g)
    (h6 : g ≤ 6) (hw : w = min width lanes) (h4 : 4 ≤ w) : a.pcieLinkTrain speed width lanes [] =
      { a with pcie := { speed := g, width := if 16 ≤ w then 16 else if 8 ≤ w then 8 else 4, exposed := true, widthFault := false } } := by
  have hwidth : pcieWidth w = if 16 ≤ w then 16 else if 8 ≤ w then 8 else 4 := by rw [pcieWidth, if_pos h4]
  have hpos : (if 16 ≤ w then 16 else if 8 ≤ w then 8 else 4) ≠ 0 := by split_ifs <;> decide
  have hspeed : g ≠ 0 := by omega
  have hfew : ¬ lanes < 4 := Nat.not_lt.mpr hlanes
  simp [State.pcieLinkTrain, ← hg, ← hw, pcieSpeed_limit h3 h6, hwidth, hlanes, hpos, hspeed, hfew]

/-- With fewer than four lanes the function is not exposed. -/
theorem pcieLinkTrain_narrow {a : State} {lanes : Nat} (h : lanes < 4) (speed width : Nat) (eqFail : List Nat) :
    a.pcieLinkTrain speed width lanes eqFail =
      { a with pcie := { speed := 0, width := 0, exposed := false, widthFault := true } } := by
  simp [State.pcieLinkTrain, h, Nat.not_le.mpr h]

/-- Once cast-on is complete the Hook can bring the host interface up. -/
theorem hostInterfaceReady_complete {a : State} (h : a.dev.castOnComplete = true) :
    a.hostInterfaceReady = { a with dev := { a.dev with hostReady := true } } := by
  simp only [State.hostInterfaceReady, h, Bool.true_or, if_true]

/-- Before phase 0x03 of cast-on a configuration request is answered with retry. -/
theorem configRequestRetry_early {a : State} (h : a.castingOn = true) (hphase : a.dev.castOnPhase < 3) :
    a.configRequestRetry = a.emit .retryStatus := by
  have hlow : a.dev.castOnPhase.toNat < 3 := hphase
  simp only [State.configRequestRetry, h, hlow, decide_true, Bool.and_self, if_true]

section
variable {s a : State} {t : Stitch} (h : s.Reached t a)
include h

theorem exec_hostInterfaceReady : exec (.hostInterfaceReady t) s = .next a.hostInterfaceReady := act_reached (f := State.hostInterfaceReady) h

theorem exec_pcieLinkTrain (speed width lanes : Nat) (eqFail : List Nat) :
    exec (.pcieLinkTrain t speed width lanes eqFail) s = .next (a.pcieLinkTrain speed width lanes eqFail) :=
  act_reached (f := (·.pcieLinkTrain speed width lanes eqFail)) h

theorem exec_configRequestRetry : exec (.configRequestRetry t) s = .next a.configRequestRetry := act_reached (f := State.configRequestRetry) h

theorem exec_ptmResponseReceived (master : Dword) : exec (.ptmResponseReceived t master) s = .next (a.ptmResponse master) :=
  act_reached (f := (·.ptmResponse master)) h

end

/-- Settles O22: the reset by its equation, and what the link, a resize and a configuration request do by their conditions. -/
theorem hostInterface : Obligations.HostInterface := by
  unfold Obligations.HostInterface
  intro s a t h
  refine ⟨exec_hostInterfaceReset h, ?ready, ?trains, ?narrow, fun n h36 h40 => exec_resizableBarWrite_taken h h36 h40, ?retry,
    exec_ptmResponseReceived h⟩
  case ready =>
    intro hcomplete
    rw [exec_hostInterfaceReady h, hostInterfaceReady_complete hcomplete]
  case trains =>
    intro speed width lanes g w hlanes hg h3 h6 hw h4
    rw [exec_pcieLinkTrain h, pcieLinkTrain_trains hlanes hg h3 h6 hw h4]
  case narrow =>
    intro speed width lanes eqFail hlanes
    rw [exec_pcieLinkTrain h, pcieLinkTrain_narrow hlanes]
  case retry =>
    intro hcast hphase
    rw [exec_configRequestRetry h, configRequestRetry_early hcast hphase]

end Sys2Proof.Machine
end

section
/-! SUPPORT. The records that commands answer, the configuration record, host commands that wait or meet a fault, and the state after reset: the
equations of their operations, case by case, and the statements RecordsAnswered, ConfigTaken, HostCommandsWait and ResetState, settled by
them. -/

namespace Sys2Proof.Machine

/-! ### Records (02 R64, R71, R80; 12 R353; 14 R414; 15 R434) -/

/-- Done alone notes nothing. -/
theorem noteSecurity_done (s : State) (t : CmdTag) : s.noteSecurity t [stDone] = s := noteSecurity_plain (by decide) (by decide)

/-- A revision-2 command that names a result buffer: as much of the record as has room is written there, and the completion tells its
length and whether some was left out. -/
theorem finishData_written {b : State} {t : CmdTag} {data : List Byte} (hrev : t.rev = 2) (haddr : t.resultAddr ≠ 0) (hroom : 0 < t.resultLen)
    (hdata : data ≠ []) :
    b.finishData t [stDone] data = (b.emit (.hostWrite t.resultAddr.toNat (data.take t.resultLen))).complete
      { tag := t, status := 0, secondary := 0, reportAttached := false, truncated := decide (t.resultLen < data.length)
        result := BitVec.ofNat 64 data.length } := by
  have hpart : (data.take t.resultLen).isEmpty = false := by
    rw [List.isEmpty_eq_false_iff, ne_eq, List.take_eq_nil_iff]
    exact not_or.mpr ⟨Nat.ne_of_gt hroom, hdata⟩
  have hshort : decide ((data.take t.resultLen).length < data.length) = decide (t.resultLen < data.length) := by
    rw [List.length_take, decide_eq_decide]
    omega
  simp only [State.finishData, hrev, haddr, hpart, hshort, if_true, if_false, Bool.false_eq_true, noteSecurity_done, Option.getD_none,
    Bool.false_or]
  rfl

/-- The revision of a command is 1 or 2. -/
theorem cmd_rev (s : State) (src : Src) (io : HostIo) (f : Fetched) : (s.cmd src io f).tag.rev = if s.srcRev src = 2 then 2 else 1 :=
  apply_ite (fun c : Cmd => c.tag.rev) _ _ _

/-- A command that did not come on a revision-1 ring is of revision 2. -/
theorem cmd_rev2 {s : State} {src : Src} {io : HostIo} {f : Fetched} (h : (s.cmd src io f).rev1 = false) :
    (s.cmd src io f).tag.rev = 2 := by
  rw [Cmd.rev1, cmd_rev] at h
  rw [cmd_rev]
  split at h
  · rename_i hrev
    rw [if_pos hrev]
  · exact absurd h (by decide)

/-- Taking an entry leaves the configuration. -/
@[simp] theorem pop_cfg (s : State) (src : Src) : (s.pop src).cfg = s.cfg := by
  cases src <;> rfl

section
variable {b : State} {c : Cmd} (hl : c.badLayout = false)
include hl

theorem identify_sound (hn : c.noOperands = true) :
    b.identify c = b.finishData c.tag [stDone] (if c.rev1 then b.identify1 else b.identify2) := by
  simp only [State.identify, hl, hn, Bool.not_true, Bool.or_self, Bool.false_eq_true, if_false]

theorem getConfigReport_sound (hn : c.noOperands = true) : b.getConfigReport c = b.finishData c.tag [stDone] b.cfg.report := by
  simp only [State.getConfigReport, hl, hn, Bool.not_true, Bool.or_self, Bool.false_eq_true, if_false]

/-- ATTEST of action 1 answers the certificate chain. -/
theorem attest_chain (ha : c.op 40 1 = 1) (hz : c.zero 41 3 = true) (hz' : c.zero 48 16 = true) :
    b.attest c = b.finishData c.tag [stDone] Config.certChain := by
  simp [State.attest, hl, ha, hz, hz']

/-- ATTEST of action 0 answers the signed report of the measurements that its mask names, none of them index 0 or above 8. -/
theorem attest_measurements (ha : c.op 40 1 = 0) (hz : c.zero 41 3 = true) (hz' : c.zero 48 16 = true) (hp : c.badPayload 32 = false)
    (hm : c.op 44 4 ≠ 0) (heven : c.op 44 4 % 2 = 0) (hlow : c.op 44 4 < 512) :
    b.attest c = b.finishData c.tag [stDone] (b.attestReport (c.op 44 4) c.data) := by
  simp [State.attest, hl, ha, hz, hz', hp, hm, heven, Nat.not_le.mpr hlow]

section
variable (hr : c.countersReserved = false)
include hr

/-- The selectors of both revisions. -/
theorem countersRead_both :
    (c.selector = 0 → b.countersRead c = b.finishData c.tag [stDone] (b.snapshotCopy c.tag.jobId)) ∧
    (c.selector = 2 → b.countersRead c = b.finishData c.tag [stDone] b.skeinBytes) ∧
    (c.selector = 3 → b.countersRead c = b.finishData c.tag [stDone] b.memoryBytes) ∧
    (c.selector = 4 → b.countersRead c = b.finishData c.tag [stDone] b.healthBytes) := by
  refine ⟨?snapshot, ?skein, ?memory, ?health⟩ <;> intro h <;> simp [State.countersRead, hl, hr, h]

variable (hrev : c.rev1 = false)
include hrev

theorem countersRead_token (h : c.selector = 6) : b.countersRead c = b.finishData c.tag [stDone] b.tokenBytes := by
  simp [State.countersRead, hl, hr, hrev, h]

/-- The scale state is read of an open job. -/
theorem countersRead_scale {j : Job} (h : c.selector = 1) (hj : b.openJob? c.tag.jobId = some j) :
    b.countersRead c = b.finishData c.tag [stDone] j.scale.bytes := by
  obtain ⟨hjob, -⟩ := Option.filter_eq_some_iff.mp hj
  simp [State.countersRead, hl, hr, hrev, h, hj, hjob]

/-- The error records from a Record ID, as many whole ones as the result buffer takes. -/
theorem countersRead_errors (h : c.selector = 5) (hs : b.stashOk = true) (hb : c.stashBad = false) (ha : c.tag.resultAddr ≠ 0)
    {all : List (List Byte)} (hall : all = b.stash.cper.drop (c.op 48 8 - (b.stash.cperNext - b.stash.cper.length))) :
    b.countersRead c = b.finishData c.tag [stDone] (fitRecords c.tag.resultLen all)
      (decide ((fitRecords c.tag.resultLen all).length < (all.map List.length).sum)) := by
  subst hall
  have hbuffer : c.tag.resultAddr ≠ 0#64 := ha
  simp [State.countersRead, hl, hr, hrev, h, hs, hb, hbuffer]

/-- Error records that the Stash cannot rebuild. -/
theorem countersRead_lost (h : c.selector = 5) (hs : b.stashOk = true) (hb : c.stashBad = true) :
    b.countersRead c = b.lostPage.finish c.tag [stBlockCheckFail] 0 := by
  simp [State.countersRead, hl, hr, hrev, h, hs, hb]

end
end

section
variable {s : State} {t : Stitch} {src : Src} {io : HostIo} {f : Fetched}

theorem exec_identify (h : (s.advance t).hookTakes src 0x0001 f) :
    exec (.identify t src io) s = .next ((s.popped t src).identify (s.given t src io f)) := host_takes h

theorem exec_setConfig (h : (s.advance t).hookTakes src 0x0002 f) :
    exec (.setConfig t src io) s = .next ((s.popped t src).setConfig (s.given t src io f)) := host_takes h

theorem exec_getConfigReport (h : (s.advance t).hookTakes src 0x0003 f) :
    exec (.getConfigReport t src io) s = .next ((s.popped t src).getConfigReport (s.given t src io f)) := host_takes h

theorem exec_attest (h : (s.advance t).hookTakes src 0x0012 f) :
    exec (.attest t src io) s = .next ((s.popped t src).attest (s.given t src io f)) := host_takes h

theorem exec_countersRead (h : (s.advance t).hookTakes src 0x0061 f) :
    exec (.countersRead t src io) s = .next ((s.popped t src).countersRead (s.given t src io f)) := host_takes h

end

/-- Settles O1: each command by the equation of its handler, COUNTERS_READ by its selector, and the record by its buffer. -/
theorem recordsAnswered : Obligations.RecordsAnswered := by
  unfold Obligations.RecordsAnswered
  rintro s b t src io f c rfl rfl hl
  refine ⟨?identify, ?report, ?chain, ?measurements, fun h hr => ?counters, ?record⟩
  case identify =>
    intro h hn
    rw [exec_identify h, identify_sound hl hn]
  case report =>
    intro h hn
    rw [exec_getConfigReport h, getConfigReport_sound hl hn, State.popped, pop_cfg]
  case chain =>
    intro h ha hz hz'
    rw [exec_attest h, attest_chain hl ha hz hz']
  case measurements =>
    intro h ha hz hz' hp hm heven hlow
    rw [exec_attest h, attest_measurements hl ha hz hz' hp hm heven hlow]
  case counters =>
    rw [exec_countersRead h]
    obtain ⟨hsnapshot, hskein, hmemory, hhealth⟩ := countersRead_both (b := s.popped t src) hl hr
    refine ⟨fun hs => by rw [hsnapshot hs], fun hs => by rw [hskein hs], fun hs => by rw [hmemory hs], fun hs => by rw [hhealth hs],
      ?token, ?scale, ?errors, ?lost⟩
    case token =>
      intro hs hrev
      rw [countersRead_token hl hr hrev hs]
    case scale =>
      intro j hs hrev hj
      rw [countersRead_scale hl hr hrev hs hj]
    case errors =>
      intro all hs hrev hok hgood haddr hall
      rw [countersRead_errors hl hr hrev hs hok hgood haddr hall]
    case lost =>
      intro hs hrev hok hbad
      rw [countersRead_lost hl hr hrev hs hok hbad]
  case record =>
    intro data hrev haddr hroom hdata
    exact finishData_written (cmd_rev2 hrev) haddr hroom hdata

/-! ### The configuration record (02 R72, R75, R76) -/

/-- A record that passes every check but the signature is stored and applied where its signature is good. -/
theorem setConfig_record {b : State} {c : Cmd} {r : CfgRecord} (hl : c.badLayout = false) (hn : c.noOperands = true)
    (hp : c.badPayload 32 = false) (hparse : parseRecord c.data = some r) (hserial : r.serial = 0 ∨ r.serial = b.dev.serial.toNat)
    (hseq : b.cfg.sequence < r.sequence) (hok : (evaluate b.cfg.fields r.entries).ok = true) (hstash : b.stashOk = true) :
    b.setConfig c = if b.signedOk r.signer r.bytes then
        (b.applyRecord r (evaluate b.cfg.fields r.entries)).wear.endSetConfig c
          (if (evaluate b.cfg.fields r.entries).clamped then stClamped else stDone) r (evaluate b.cfg.fields r.entries).rows
      else b.finish c.tag [stSignatureFail] 0 := by
  have hfor : ¬ ((r.serial ≠ 0 ∧ r.serial ≠ b.dev.serial.toNat) ∨ r.sequence ≤ b.cfg.sequence) := by omega
  cases hsigned : b.signedOk r.signer r.bytes with
  | true => simp [State.setConfig, hl, hn, hp, hparse, hsigned, hfor, hok, hstash]
  | false => simp [State.setConfig, hl, hn, hp, hparse, hsigned]

/-- Settles O4: once the other checks pass, the signature alone decides. -/
theorem configTaken : Obligations.ConfigTaken := by
  unfold Obligations.ConfigTaken
  rintro s b t src io f c r e rfl rfl h hl hn hp hparse hserial hseq rfl hok hstash
  rw [exec_setConfig h, setConfig_record hl hn hp hparse hserial hseq hok hstash]

/-! ### Host commands that wait or meet a fault (02 R58, R68; 12 R341; 14 R407) -/

/-- Every host command runs in the frame of its row. -/
theorem exec_hostRow {i : Instr} {t : Stitch} {src : Src} {io : HostIo} {op : Nat} {recovery : Bool}
    (h : hostRow i = some (t, src, io, op, recovery)) : ∃ g, ∀ s, exec i s = s.host t src io op recovery g := by
  cases i <;> cases h <;> exact ⟨_, fun _ => rfl⟩

section
variable {s a : State} {t : Stitch} {src : Src} {io : HostIo} {op : Nat} {recovery : Bool} {g : State → Cmd → State} (h : s.Reached t a)
include h

theorem host_noEntry (hn : a.headEntry src = none) : s.host t src io op recovery g = .next a := by
  rw [State.host, act_reached h]
  simp only [hn]

variable {f : Fetched} (hf : a.headEntry src = some f)
include hf

theorem host_otherEntry (hrow : opcodeRow src (a.srcRev src) (entryOpcode (a.srcRev src) f.entry) ≠ some op) :
    s.host t src io op recovery g = .next a := by
  rw [State.host, act_reached h]
  simp only [hf, beq_iff_eq, hrow, if_false]

/-- A command of the row that recovery does not serve, or that a lost stack keeps from its job. -/
theorem host_fault (hrow : opcodeRow src (a.srcRev src) (entryOpcode (a.srcRev src) f.entry) = some op)
    (hfault : (a.dev.castOnPhase = 0xFE ∧ recovery = false) ∨ a.jobFault (a.cmd src io f).tag op = true) :
    s.host t src io op recovery g = .next ((a.pop src).finish (a.cmd src io f).tag [stDeviceFault] 0) := by
  have hrefused : ((a.dev.castOnPhase = 0xFE && !recovery) || a.jobFault (a.cmd src io f).tag op) = true := by simpa using hfault
  rw [State.host, act_reached h]
  simp only [hf, hrow, beq_self_eq_true, if_true, hrefused]

end

/-- Settles O55: every host command runs in the frame `host`, whose branches decide. -/
theorem hostCommandsWait : Obligations.HostCommandsWait := by
  unfold Obligations.HostCommandsWait
  intro s a i t src io op recovery h hi
  obtain ⟨g, hexec⟩ := exec_hostRow hi
  rw [hexec]
  exact ⟨host_noEntry h, fun f hf hrow => host_otherEntry h hf hrow, fun f hf hrow hfault => host_fault h hf hrow hfault⟩

/-! ### The state after reset (02 R46, R51 to R55; 04 R124; 14 R404, R405; 15 R419) -/

theorem reset_memOk : State.reset.MemOk := ⟨rfl, fun _ h => by cases h⟩

/-- Every ring of the module is a ring at reset. -/
theorem reset_ring (r : Nat) : State.reset.ring r = Ring.reset := by
  simp only [State.ring, State.reset, List.getD_eq_getElem?_getD, List.getElem?_replicate]
  split <;> rfl

/-- Every counter of every unit is zero. -/
theorem reset_units {row : List Nat} (hrow : row ∈ State.reset.cnt.units) {v : Nat} (hv : v ∈ row) : v = 0 := by
  rw [List.eq_of_mem_replicate hrow] at hv
  exact List.eq_of_mem_replicate hv

theorem reset_events {v : Nat} (hv : v ∈ State.reset.cnt.events) : v = 0 := List.eq_of_mem_replicate hv

/-- Settles O57: every register reads off the reset state; the rings and the counters are lists of one value each. -/
theorem resetState : Obligations.ResetState := by
  unfold Obligations.ResetState
  have hrings : ∀ r, r < 32 → (State.reset.ring r).enable = false ∧ (State.reset.ring r).enabled = false ∧
      (State.reset.ring r).sqBase = 0 ∧ (State.reset.ring r).cqBase = 0 ∧ (State.reset.ring r).sizeLog2 = 4 ∧
      (State.reset.ring r).revision = 2 ∧ (State.reset.ring r).priority = 0 := fun r _ => by
    rw [reset_ring]
    exact ⟨rfl, rfl, rfl, rfl, rfl, rfl, rfl⟩
  exact ⟨reset_memOk, rfl, rfl, rfl, rfl, rfl, rfl, rfl, rfl, rfl, rfl, rfl, rfl, rfl, rfl, hrings, rfl, rfl, rfl, rfl, rfl, rfl, rfl, rfl,
    rfl, rfl, rfl, rfl, rfl, rfl, rfl, rfl, fun _ hrow _ hv => reset_units hrow hv, fun _ hv => reset_events hv⟩

end Sys2Proof.Machine
end

section
/-! SUPPORT. Cast-on: the turn-on condition, what each phase keeps of the DEV block and what it leaves, and the statement CastOn, settled by
them. -/

namespace Sys2Proof.Machine

/-! ### Power-good (16 R442, R443) -/

theorem exec_powerGood (s : State) (t : Stitch) (f : CastOnFindings) : exec (.powerGood t f) s = .next ((s.advance t).powerGood f) := rfl

/-- Without the turn-on condition, or once lost, the stage stays as it is. -/
theorem powerGood_off {a : State} {f : CastOnFindings} (h : f.presence = false ∨ f.vin < 4300 ∨ f.vinHeld < 10000000 ∨ 6200 < f.vin ∨
    (a.stage.overvolt = true ∧ 6100 ≤ f.vin) ∨ a.stage.lost = true) : a.powerGood f = a := by
  have hoff : (a.stage.good || a.stage.lost || !turnsOn f a.stage.overvolt) = true := by
    rcases h with h | h | h | h | ⟨hover, hvin⟩ | h
    · simp [turnsOn, h]
    · simp [turnsOn, Nat.not_le.mpr h]
    · simp [turnsOn, Nat.not_le.mpr h]
    · simp [turnsOn, Nat.not_le.mpr h]
    · simp [turnsOn, hover, hvin]
    · simp [h]
  rw [State.powerGood, if_pos hoff]

/-- With the turn-on condition held the stage is good and cast-on begins. -/
theorem powerGood_on {a : State} {f : CastOnFindings} (hgood : a.stage.good = false) (hlost : a.stage.lost = false) (hpin : f.presence = true)
    (hlow : 4300 ≤ f.vin) (hheld : 10000000 ≤ f.vinHeld) (hhigh : f.vin ≤ 6200) (hover : a.stage.overvolt = true → f.vin < 6100) :
    a.powerGood f = { a.unpowered with
      stage := { good := true, overvolt := false, lost := false, latch := a.unpowered.stage.latch }
      dev := { a.unpowered.dev with serial := f.serial, stepping := f.stepping, castOnPhase := 0, findings := some f }
      pw := { a.unpowered.pw with vin := f.vin, tempW := f.dieTempWest.toNat, tempE := f.dieTempEast.toNat }
      mgmt := { a.unpowered.mgmt with strap := f.smbusStrap, commonClock := f.refclk } } := by
  have hovervolt : (a.stage.overvolt && decide (6100 ≤ f.vin)) = false := by
    cases hstage : a.stage.overvolt with
    | true => simpa using hover hstage
    | false => rfl
  have hon : turnsOn f a.stage.overvolt = true := by simp [turnsOn, hpin, hlow, hhigh, hheld, hovervolt]
  simp only [State.powerGood, hgood, hlost, hon, Bool.not_true, Bool.or_self, Bool.false_eq_true, if_false]

/-! ### What keeps the DEV block -/

/-- Operations that end commands leave the DEV block. -/
theorem dev_of_sans {x y : State} (h : x.sansEnds = y.sansEnds) : x.dev = y.dev :=
  (congrArg State.dev h : x.sansEnds.dev = y.sansEnds.dev)

@[simp] theorem raiseFault_dev (s : State) (bit : Nat) : (s.raiseFault bit).dev = s.dev := dev_of_sans (raise_sans _ _)

@[simp] theorem cper_dev (s : State) (e : ErrEvent) : (s.cper e).dev = s.dev := dev_of_sans (cper_sans _ _)

@[simp] theorem memEvent_dev (s : State) (kind stack device hole detail : Nat) :
    (s.memEvent kind stack device hole detail).dev = s.dev := cper_dev _ _

/-- A repeated operation leaves what each of its steps leaves. -/
theorem foldl_keeps {α β : Type} {p : State → β} {f : State → α → State} (h : ∀ x i, p (f x i) = p x) (l : List α) (s : State) :
    p (l.foldl f s) = p s := by
  induction l generalizing s with
  | nil => rfl
  | cons i l ih => rw [List.foldl_cons, ih, h]

@[simp] theorem insertCourse_dev (s : State) (u : LUnit) (id : Nat) : (s.insertCourse u id).dev = s.dev := by
  unfold State.insertCourse
  dsimp only
  split
  · exact State.setQueue_dev _ _ _
  · rfl

/-- A course that follows its needle leaves the DEV block. -/
@[simp] theorem followNeedle_dev (s : State) (l v u : Nat) (c : Course) : (s.followNeedle l v u c).dev = s.dev := by
  unfold State.followNeedle
  split
  · rfl
  · dsimp only
    split
    · rfl
    · split <;> split <;> simp [State.leaveQueue]

@[simp] theorem spareOf_dev (s : State) (u : Nat) : (s.spareOf u).2.dev = s.dev := by
  unfold State.spareOf
  dsimp only
  split
  · rfl
  · split <;> rfl

/-- A needle that retires leaves the DEV block. -/
@[simp] theorem retireNow_dev (s : State) (u reason : Nat) : (s.retireNow u reason).dev = s.dev := by
  have hfollow : ∀ (l v : Nat) (cs : List Course) (x : State), (cs.foldl (fun (x : State) c => x.followNeedle l v u c) x).dev = x.dev :=
    fun l v => foldl_keeps (p := State.dev) (fun x c => followNeedle_dev x l v u c)
  unfold State.retireNow
  dsimp only
  rw [cper_dev, raiseFault_dev]
  cases s.logicalOf u with
  | none => rfl
  | some l =>
    simp only [Option.isSome_some, if_true]
    cases (s.spareOf u).1 with
    | none => exact spareOf_dev s u
    | some v => exact (hfollow _ _ _ _).trans (spareOf_dev s u)

@[simp] theorem retire_dev (s : State) (u reason : Nat) : (s.retire u reason).dev = s.dev := by
  unfold State.retire
  split
  · rfl
  · split
    · rfl
    · exact retireNow_dev _ _ _

@[simp] theorem mapRow_dev (s : State) (u row reason : Nat) : (s.mapRow u row reason).dev = s.dev := by
  unfold State.mapRow
  dsimp only
  split
  · simp
  · simp

theorem pickSpares_dev (n : Nat) (panels avail : List Nat) (s : State) : (State.pickSpares n panels avail s).2.dev = s.dev := by
  induction n generalizing panels s with
  | zero => rfl
  | succ n ih => exact ih _ _

theorem freeOrder_dev (n : Nat) (l : List Nat) (s : State) : (State.freeOrder n l s).2.dev = s.dev := by
  induction n generalizing l s with
  | zero => rfl
  | succ n ih => exact ih _ _

theorem dieMap_dev (s : State) (die : Nat) : (s.dieMap die).2.dev = s.dev :=
  (freeOrder_dev _ _ _).trans (pickSpares_dev _ _ _ _)

@[simp] theorem buildSpareMap_dev (s : State) : s.buildSpareMap.dev = s.dev := by
  unfold State.buildSpareMap
  dsimp only
  rw [dieMap_dev, dieMap_dev]

@[simp] theorem loadSample_dev (s : State) (u : Nat) : (s.loadSample u).dev = s.dev := rfl

/-! ### What keeps the phase of cast-on -/

@[simp] theorem bridgeFail_phase (s : State) (g : Nat) : (s.bridgeFail g).dev.castOnPhase = s.dev.castOnPhase := by
  unfold State.bridgeFail
  split
  · rfl
  · simp

@[simp] theorem retired_phase (s : State) (page hole : Nat) : (s.retired page hole).dev.castOnPhase = s.dev.castOnPhase := by
  simp [State.retired]

@[simp] theorem retirePage_phase (s : State) (page : Nat) : (s.retirePage page).dev.castOnPhase = s.dev.castOnPhase := by
  unfold State.retirePage
  split
  · exact retired_phase _ _ _
  · split
    · simp
    · rfl

@[simp] theorem serveDeferred_phase (s : State) : s.serveDeferred.dev.castOnPhase = s.dev.castOnPhase := by
  refine foldl_keeps (p := fun x => x.dev.castOnPhase) ?_ _ _
  intro x page
  exact retirePage_phase _ page

@[simp] theorem castDefaults_phase (s : State) : s.castDefaults.dev.castOnPhase = s.dev.castOnPhase := by
  unfold State.castDefaults
  split
  · rfl
  · dsimp only
    split <;> rfl

@[simp] theorem castTables_dev (s : State) : s.castTables.dev = s.dev := by
  unfold State.castTables
  split <;> rfl

@[simp] theorem castNeedles_dev (s : State) : s.castNeedles.dev = s.dev := by
  unfold State.castNeedles
  split <;> rfl

theorem castMemory_phase (s : State) (f : CastOnFindings) : (s.castMemory f).dev.castOnPhase = s.dev.castOnPhase := by
  change s.castDefaults.castTables.serveDeferred.dev.castOnPhase = _
  rw [serveDeferred_phase, castTables_dev, castDefaults_phase]

theorem castConfig_phase (s : State) (f : CastOnFindings) : (s.castConfig f).dev.castOnPhase = s.dev.castOnPhase := by
  unfold State.castConfig
  dsimp only
  split
  · split <;> rfl
  · rfl

theorem castUnits_phase (s : State) (f : CastOnFindings) : (s.castUnits f).dev.castOnPhase = s.dev.castOnPhase := by
  unfold State.castUnits
  dsimp only
  rw [foldl_keeps (p := State.dev) loadSample_dev, foldl_keeps (p := fun x => x.dev.castOnPhase) bridgeFail_phase]
  dsimp only
  rw [buildSpareMap_dev, foldl_keeps (p := State.dev) ?pending, foldl_keeps (p := State.dev) ?failed, foldl_keeps (p := State.dev) ?rows,
    castNeedles_dev, castDefaults_phase]
  case pending =>
    intro x u
    split
    · exact retireNow_dev _ _ _
    · rfl
  case failed =>
    intro x u
    split
    · rfl
    · exact retireNow_dev _ _ _
  case rows =>
    intro x r
    split
    · rfl
    · exact mapRow_dev _ _ _ _

/-! ### Phase 0x01: the channels of the Stash (12 R351; 14 R405) -/

/-- The channels in service with one of them put in or taken out. -/
def withChannel (channels : BitVec 16) (c : Nat) (up : Bool) : BitVec 16 :=
  if up then channels ||| BitVec.ofNat 16 (2 ^ c) else channels &&& ~~~BitVec.ofNat 16 (2 ^ c)

theorem withChannel_getLsbD (channels : BitVec 16) {c i : Nat} (up : Bool) (hi : i < 16) :
    (withChannel channels c up).getLsbD i = if i = c then up else channels.getLsbD i := by
  have hbit : (BitVec.ofNat 16 (2 ^ c)).getLsbD i = decide (i = c) := by
    rw [BitVec.getLsbD_ofNat, Nat.testBit_two_pow, decide_eq_true hi, Bool.true_and, decide_eq_decide]
    exact eq_comm
  cases up with
  | true =>
    rw [withChannel, if_pos rfl, BitVec.getLsbD_or, hbit]
    by_cases hc : i = c <;> simp [hc]
  | false =>
    rw [withChannel, if_neg Bool.false_ne_true, BitVec.getLsbD_and, BitVec.getLsbD_not, hbit]
    by_cases hc : i = c <;> simp [hc, hi]

/-- A channel that is already as found changes nothing. -/
theorem stashChannel_same {s : State} {c : Nat} {up : Bool} (h : s.stash.channels.getLsbD c = up) : s.stashChannel c up = s := by
  rw [State.stashChannel, if_pos (.inr h)]

/-- A channel that changes is the only one that does, and sets the stash bit. -/
theorem stashChannel_changed {s : State} {c : Nat} {up : Bool} (hc : c < 16) (h : s.stash.channels.getLsbD c ≠ up) :
    (s.stashChannel c up).stash.channels = withChannel s.stash.channels c up ∧
      (s.stashChannel c up).intr.fault = s.intr.fault ||| BitVec.ofNat 8 (2 ^ 5) := by
  have hcper : ∀ (x : State) (e : ErrEvent), (x.cper e).stash.channels = x.stash.channels ∧ (x.cper e).intr = x.intr := fun x e => by
    unfold State.cper
    split <;> exact ⟨rfl, rfl⟩
  have hraise : ∀ x : State, (x.raiseFault 5).stash = x.stash ∧ (x.raiseFault 5).intr.fault = x.intr.fault ||| BitVec.ofNat 8 (2 ^ 5) :=
    fun x => by
      obtain ⟨p, hp⟩ := raise_intr x { fault := BitVec.ofNat 8 (2 ^ 5) }
      exact ⟨raise_stash _ _, by rw [State.raiseFault, hp]⟩
  have hskip : ¬ (16 ≤ c ∨ s.stash.channels.getLsbD c = up) := not_or.mpr ⟨Nat.not_le.mpr hc, h⟩
  rw [State.stashChannel, if_neg hskip]
  dsimp only
  rw [(hraise _).1, (hraise _).2]
  cases up with
  | true =>
    simp only [if_true]
    rw [(hcper _ _).1, (hcper _ _).2]
    exact ⟨rfl, rfl⟩
  | false =>
    simp only [Bool.false_eq_true, if_false]
    rw [(hcper _ _).1, (hcper _ _).2]
    exact ⟨rfl, rfl⟩

@[simp] theorem stashChannel_dev (s : State) (c : Nat) (up : Bool) : (s.stashChannel c up).dev = s.dev := by
  unfold State.stashChannel
  split
  · rfl
  · dsimp only
    rw [raiseFault_dev]
    split <;> simp

/-- One channel as found: the others stay, and the stash bit once set stays set. -/
theorem stashChannel_effect (s : State) {c : Nat} (hc : c < 16) (up : Bool) :
    (∀ i, i < 16 → (s.stashChannel c up).stash.channels.getLsbD i = if i = c then up else s.stash.channels.getLsbD i) ∧
      (s.stash.channels.getLsbD c ≠ up ∨ s.intr.fault.getLsbD 5 = true → (s.stashChannel c up).intr.fault.getLsbD 5 = true) := by
  by_cases hsame : s.stash.channels.getLsbD c = up
  case pos =>
    rw [stashChannel_same hsame]
    refine ⟨fun i _ => ?_, fun h => h.resolve_left (not_not_intro hsame)⟩
    split
    case isTrue hi => rw [hi, hsame]
    case isFalse => rfl
  case neg =>
    obtain ⟨hchannels, hfault⟩ := stashChannel_changed hc hsame
    refine ⟨fun i hi => by rw [hchannels, withChannel_getLsbD _ _ hi], fun _ => ?_⟩
    rw [hfault, BitVec.getLsbD_or, show (BitVec.ofNat 8 (2 ^ 5)).getLsbD 5 = true from rfl, Bool.or_true]

/-- Some channels as found: they are in service as found, the others stay, and the stash bit is set where one changed. -/
theorem stashChannels_effect (found : BitVec 16) (l : List Nat) (hl : ∀ c ∈ l, c < 16) (s : State) :
    (∀ i, i < 16 → (l.foldl (fun (x : State) c => x.stashChannel c (found.getLsbD c)) s).stash.channels.getLsbD i =
      if i ∈ l then found.getLsbD i else s.stash.channels.getLsbD i) ∧
    ((∃ c ∈ l, s.stash.channels.getLsbD c ≠ found.getLsbD c) ∨ s.intr.fault.getLsbD 5 = true →
      (l.foldl (fun (x : State) c => x.stashChannel c (found.getLsbD c)) s).intr.fault.getLsbD 5 = true) := by
  induction l generalizing s with
  | nil => simp
  | cons c l ih =>
    obtain ⟨hchannel, hfault⟩ := stashChannel_effect s (hl c (by simp)) (found.getLsbD c)
    obtain ⟨hchannels, hfaults⟩ := ih (fun d hd => hl d (by simp [hd])) (s.stashChannel c (found.getLsbD c))
    rw [List.foldl_cons]
    constructor
    · intro i hi
      rw [hchannels i hi, hchannel i hi]
      by_cases hrest : i ∈ l
      · simp [hrest]
      · by_cases hfirst : i = c <;> simp [hfirst, hrest]
    · intro h
      refine hfaults ?_
      by_cases hfirst : s.stash.channels.getLsbD c ≠ found.getLsbD c ∨ s.intr.fault.getLsbD 5 = true
      · exact .inr (hfault hfirst)
      · obtain ⟨hsame, hclear⟩ := not_or.mp hfirst
        obtain ⟨d, hd, hdiff⟩ := h.resolve_right hclear
        have hdc : d ≠ c := fun hdc => hsame (hdc ▸ hdiff)
        have hmem : d ∈ l := (List.mem_cons.mp hd).resolve_left hdc
        exact .inl ⟨d, hmem, by rw [hchannel d (hl d hd), if_neg hdc]; exact hdiff⟩

/-- The Stash loader reads the images and the channels; each change of a channel is reported. -/
theorem readStash_effect (s : State) (f : CastOnFindings) :
    (s.readStash f).dev = s.dev ∧ (∀ c, c < 16 → (s.readStash f).stash.channels.getLsbD c = f.stashChannels.getLsbD c) ∧
      (s.stash.channels ≠ f.stashChannels → (s.readStash f).intr.fault.getLsbD 5 = true) := by
  obtain ⟨hchannels, hfault⟩ := stashChannels_effect f.stashChannels (List.range 16) (fun c hc => List.mem_range.mp hc) s
  have hdev := foldl_keeps (p := State.dev) (fun x c => stashChannel_dev x c (f.stashChannels.getLsbD c)) (List.range 16) s
  unfold State.readStash
  dsimp only
  generalize (List.range 16).foldl (fun (x : State) c => x.stashChannel c (f.stashChannels.getLsbD c)) s = z at hchannels hfault hdev ⊢
  refine ⟨hdev, fun c hc => ?_, fun hne => ?_⟩
  · exact (hchannels c hc).trans (if_pos (List.mem_range.mpr hc))
  · refine hfault (.inl ?_)
    by_contra hall
    refine hne (BitVec.eq_of_getLsbD_eq fun c hc => ?_)
    by_contra hdiff
    exact hall ⟨c, List.mem_range.mpr hc, hdiff⟩

/-! ### Phases 0x02 and 0x03: the bank and the link (02 R40; 14 R405 to R407) -/

/-- Without a bank to run, or without the Stash, the module stands in recovery. -/
theorem castBank_recovery {s : State} (f : CastOnFindings) (h : (s.fw.afterTrial s.stage.latch).choose = none ∨ s.stashOk = false) :
    (s.castBank f).dev.castOnPhase = 0xFE ∧ (s.castBank f).dev.hostReady = true ∧ (s.castBank f).counting = s.counting := by
  have hnone : (if ({ s with fw := s.fw.afterTrial s.stage.latch } : State).stashOk then (s.fw.afterTrial s.stage.latch).choose
      else none) = none := by
    rcases h with h | h
    · rw [h, ite_self]
    · exact if_neg (Bool.eq_false_iff.mp h)
  unfold State.castBank
  dsimp only
  rw [hnone]
  exact ⟨rfl, rfl, rfl⟩

/-- With a bank to run its Sundola starts and the counter is released. -/
theorem castBank_runs {s : State} (f : CastOnFindings) {b : Bool} (hb : (s.fw.afterTrial s.stage.latch).choose = some b)
    (hs : s.stashOk = true) :
    (s.castBank f).dev.castOnPhase = 3 ∧ (s.castBank f).counting = true ∧ (s.castBank f).fw.runningB = b ∧
      (s.castBank f).fw.running = ((s.fw.afterTrial s.stage.latch).bank b).version := by
  have hsome : (if ({ s with fw := s.fw.afterTrial s.stage.latch } : State).stashOk then (s.fw.afterTrial s.stage.latch).choose
      else none) = some b := (if_pos hs).trans hb
  unfold State.castBank
  dsimp only
  rw [hsome]
  exact ⟨rfl, rfl, rfl, rfl⟩

/-- With neither image verified no bank is usable, whatever the trial. -/
theorem choose_unsigned {w : Fw} (latch : Nat) (ha : w.bankA.signed = false) (hb : w.bankB.signed = false) :
    (w.afterTrial latch).choose = none := by
  have hnone : ∀ x : Fw, x.bankA.signed = false → x.bankB.signed = false → x.choose = none := fun x hA hB => by
    cases hactive : x.activeB <;> simp [Fw.choose, bankUsable, hA, hB, hactive]
  unfold Fw.afterTrial
  split
  · exact hnone _ ha hb
  · exact hnone _ ha hb

/-- A link that is exposed runs at one of its speeds and widths, within what both partners and the limit allow. -/
theorem castPcie_exposed {limit speed width : Nat} (h : (castPcie limit speed width).exposed = true) :
    3 ≤ (castPcie limit speed width).speed ∧ (castPcie limit speed width).speed ≤ limit ∧ (castPcie limit speed width).speed ≤ speed ∧
      ((castPcie limit speed width).width = 4 ∨ (castPcie limit speed width).width = 8 ∨ (castPcie limit speed width).width = 16) ∧
      (castPcie limit speed width).width ≤ width := by
  unfold castPcie at h ⊢
  dsimp only at h ⊢
  cases hv : [6, 5, 4, 3].find? (fun g => decide (g ≤ min limit speed)) with
  | none =>
    rw [hv] at h
    exact absurd h Bool.false_ne_true
  | some v =>
    cases hw : [16, 8, 4].find? (fun n => decide (n ≤ width)) with
    | none =>
      rw [hw] at h
      simp at h
    | some w =>
      have hvmem := List.mem_of_find?_eq_some hv
      have hvle : decide (v ≤ min limit speed) = true := List.find?_some (p := fun g => decide (g ≤ min limit speed)) hv
      have hwmem := List.mem_of_find?_eq_some hw
      have hwle : decide (w ≤ width) = true := List.find?_some (p := fun n => decide (n ≤ width)) hw
      simp only [hv, hw, Option.getD_some] at h ⊢
      rw [h, if_pos rfl, if_pos rfl]
      simp only [List.mem_cons, List.not_mem_nil, or_false, decide_eq_true_eq] at hvmem hwmem hvle hwle
      omega

/-! ### The steps of cast-on (14 R405; log 49) -/

/-- The next phase of cast-on. -/
def State.nextPhase (s : State) : State := { s with dev := { s.dev with castOnPhase := s.dev.castOnPhase + 1 } }

/-- The work of phase `p` of cast-on, and the phase after it. -/
def State.phaseWork (s : State) (f : CastOnFindings) (p : Byte) : State :=
  if p = 0 then s.nextPhase
  else if p = 1 then (s.readStash f).nextPhase
  else if p = 2 then s.castBank f
  else if p = 3 then (s.castConfig f).nextPhase
  else if p = 4 then (s.castMemory f).nextPhase
  else if p = 5 then (s.castUnits f).nextPhase
  else (s.castLinks f).castComplete

theorem castPhase_found {s : State} {f : CastOnFindings} (hf : s.dev.findings = some f) : s.castPhase = s.phaseWork f s.dev.castOnPhase := by
  unfold State.castPhase
  split
  case h_1 hnone => cases hnone.symm.trans hf
  case h_2 g hsome =>
    cases hsome.symm.trans hf
    rfl

/-- What each phase does. -/
theorem phaseWork_eq (s : State) (f : CastOnFindings) :
    s.phaseWork f 0 = s.nextPhase ∧ s.phaseWork f 1 = (s.readStash f).nextPhase ∧ s.phaseWork f 2 = s.castBank f ∧
      s.phaseWork f 3 = (s.castConfig f).nextPhase ∧ s.phaseWork f 4 = (s.castMemory f).nextPhase ∧
      s.phaseWork f 5 = (s.castUnits f).nextPhase ∧ s.phaseWork f 6 = (s.castLinks f).castComplete := by
  simp [State.phaseWork]

/-- While no command waits a tick ends the phase that runs. -/
theorem step_castOn {x y : State} {f : CastOnFindings} (hx : x.pending = []) (hy : y = x.advance (x.stitch + 1)) (hup : y.up = true)
    (hf : y.dev.findings = some f) {p : Byte} (hp : y.dev.castOnPhase = p) (hcasting : p.toNat < 7) {z : State} (hz : y.phaseWork f p = z) :
    step x = .next z := by
  have hcast : y.castingOn = true := by
    rw [State.castingOn, hup, hf, hp, decide_eq_true hcasting]
    rfl
  rw [← hz, ← hp, ← castPhase_found hf]
  subst hy
  simp only [step, hx, State.tick, hcast, if_true]

/-- After a phase that keeps its number the next one runs. -/
theorem nextPhase_phase {z : State} {p q : Byte} (h : z.dev.castOnPhase = p) (hq : p + 1 = q) : z.nextPhase.dev.castOnPhase = q := by
  rw [State.nextPhase, h, hq]

/-- Phase 0x07 ends cast-on. -/
theorem castComplete_effect (s : State) :
    s.castComplete.dev.castOnPhase = 7 ∧ s.castComplete.dev.castOnComplete = true ∧ s.castComplete.dev.hostReady = true ∧
      s.castComplete.dev.findings = none ∧ s.castComplete.stage.latch = 0 := by
  unfold State.castComplete
  dsimp only
  split
  · exact ⟨rfl, rfl, rfl, rfl, rfl⟩
  · simp only [cper_dev]
    exact ⟨trivial, trivial, trivial, trivial, trivial⟩

/-- Settles O23: power-good by the turn-on condition, and each phase by what it leaves and by the phase after it. -/
theorem castOn : Obligations.CastOn := by
  unfold Obligations.CastOn
  refine fun f => ⟨?off, ?on, fun x y hx hy hup hf => ?phases⟩
  case off =>
    rintro s a t rfl hoff
    rw [exec_powerGood, powerGood_off hoff]
  case on =>
    rintro s a b t rfl hgood hlost hpin hlow hheld hhigh hover rfl
    rw [exec_powerGood, powerGood_on hgood hlost hpin hlow hheld hhigh hover]
  case phases =>
    have hstep := @step_castOn x y f hx hy hup hf
    obtain ⟨hwork0, hwork1, hwork2, hwork3, hwork4, hwork5, hwork6⟩ := phaseWork_eq y f
    refine ⟨fun hp => ?phase0, fun hp => ⟨_, hstep hp (by decide) hwork1, ?phase1⟩, ?phase2,
      fun hp ha hb => ⟨_, hstep hp (by decide) hwork2, ?unsigned⟩,
      fun hp => ⟨_, hstep hp (by decide) hwork3, ?phase3, castPcie_exposed⟩,
      fun hp => ⟨_, hstep hp (by decide) hwork4, ?phase4, rfl, rfl⟩,
      fun hp => ⟨_, hstep hp (by decide) hwork5, ?phase5⟩,
      fun hp => ⟨_, hstep hp (by decide) hwork6, castComplete_effect _⟩⟩
    case phase0 =>
      rw [hstep hp (by decide) hwork0, State.nextPhase, hp]
      rfl
    case phase1 =>
      obtain ⟨hdev, hchannels, hfault⟩ := readStash_effect y f
      exact ⟨nextPhase_phase (p := 1) (by rw [hdev, hp]) rfl, rfl, rfl, hchannels, hfault⟩
    case phase2 =>
      rintro bank hp rfl
      exact ⟨fun h => ⟨_, hstep hp (by decide) hwork2, castBank_recovery f h⟩,
        fun b hb hs => ⟨_, hstep hp (by decide) hwork2, castBank_runs f hb hs⟩⟩
    case unsigned =>
      obtain ⟨hphase, -, -⟩ := castBank_recovery f (.inl (choose_unsigned y.stage.latch ha hb))
      exact hphase
    case phase3 => exact nextPhase_phase (p := 3) (by rw [castConfig_phase, hp]) rfl
    case phase4 => exact nextPhase_phase (p := 4) (by rw [castMemory_phase, hp]) rfl
    case phase5 => exact nextPhase_phase (p := 5) (by rw [castUnits_phase, hp]) rfl

end Sys2Proof.Machine
end

section
/-! SUPPORT. What every command keeps, from what its operation keeps: the queue of waiting commands, what was driven outward for good, and the
form of device memory; and the statement StepKeeps, settled by it. -/

namespace Sys2Proof.Machine

/-! ### Commands whose frame chooses (02 R68; 15 R419, R437; 16 R444, R445) -/

theorem execUnknownOpcode_keeps {s u : State} {t : Stitch} {src : Src} {io : HostIo} (e : execUnknownOpcode t src io s = .next u) :
    s.Keeps u := by
  refine act_keeps (fun x h => ?_) e
  split
  case h_1 => exact h
  case h_2 =>
    split
    case isTrue => exact State.finish_keeps (State.pop_keeps h _) _ _ _
    case isFalse => exact h

theorem execCntSnapshot_keeps {s u : State} {t : Stitch} {w : Word} (e : execCntSnapshot t w s = .next u) : s.Keeps u := by
  refine act_keeps (fun x h => ?_) e
  split
  case isTrue => exact State.takeSnapshot_keeps h
  case isFalse => exact h

theorem execObsRegisterAccess_keeps {s u : State} {t : Stitch} {off : Nat} {write : Option Dword}
    (e : execObsRegisterAccess t off write s = .next u) : s.Keeps u := by
  cases write with
  | none => exact actRead_keeps (fun _ h => State.obsAccess_keeps h _ _) e
  | some v => exact act_keeps (fun _ h => State.obsAccess_keeps h _ _) e

theorem execInputPowerLoss_keeps {s u : State} {t : Stitch} {cause : PowerLoss} (e : execInputPowerLoss t cause s = .next u) : s.Keeps u := by
  refine stageAct_keeps (fun x h => ?_) e
  split
  case isTrue => exact State.powerLoss_keeps h _
  case isFalse => exact h

/-- Between 10 ms and 100 ms PWR_CYCLE answers no next state. -/
theorem execPwrCycleAssert_keeps {s u : State} {t : Stitch} {d : Nat} (e : execPwrCycleAssert t d s = .next u) : s.Keeps u := by
  have htime := State.advance_keeps (State.Keeps.refl s) t
  unfold execPwrCycleAssert at e
  split at e
  case isTrue =>
    cases e
    exact htime
  case isFalse =>
    split at e
    case isTrue => cases e
    case isFalse =>
      cases e
      exact State.unpowered_keeps htime

/-! ### Every command -/

/-- Each command keeps what its operation keeps, in the frame in which it runs. -/
theorem exec_keeps {s u : State} : ∀ i : Instr, exec i s = .next u → s.Keeps u
  | .identify .., e => host_keeps (fun _ c h => State.identify_keeps h c) e
  | .setConfig .., e => host_keeps (fun _ c h => State.setConfig_keeps h c) e
  | .getConfigReport .., e => host_keeps (fun _ c h => State.getConfigReport_keeps h c) e
  | .setLatencyTolerance .., e => host_keeps (fun _ c h => State.setLatencyTolerance_keeps h c) e
  | .fwBlock .., e => host_keeps (fun _ c h => State.fwBlock_keeps h c) e
  | .fwActivate .., e => host_keeps (fun _ c h => State.fwActivate_keeps h c) e
  | .attest .., e => host_keeps (fun _ c h => State.attest_keeps h c) e
  | .darnLoad .., e => host_keeps (fun _ c h => State.darnLoad_keeps h c) e
  | .jobOpen .., e => host_keeps (fun _ c h => State.jobOpen_keeps h c) e
  | .jobClose .., e => host_keeps (fun _ c h => State.jobClose_keeps h c) e
  | .patternLoad .., e => host_keeps (fun _ c h => State.patternLoad_keeps h c) e
  | .tensorMap .., e => host_keeps (fun _ c h => State.tensorMap_keeps h c) e
  | .courseSubmit .., e => host_keeps (fun _ c h => State.courseSubmit_keeps h c) e
  | .stepBegin .., e => host_keeps (fun _ c h => State.stepBegin_keeps h c) e
  | .stepCommit .., e => host_keeps (fun _ c h => State.stepCommit_keeps h c) e
  | .snapshotRead .., e => host_keeps (fun _ c h => State.snapshotRead_keeps h c) e
  | .bindOff .., e => host_keeps (fun _ c h => State.bindOff_keeps h c) e
  | .resume .., e => host_keeps (fun _ c h => State.resume_keeps h c) e
  | .structureLoad .., e => host_keeps (fun _ c h => State.structureLoad_keeps h c) e
  | .deltaUpdate .., e => host_keeps (fun _ c h => State.deltaUpdate_keeps h c) e
  | .solve .., e => host_keeps (fun _ c h => State.solveCmd_keeps h c) e
  | .checkpoint .., e => host_keeps (fun _ c h => State.checkpointCmd_keeps h c) e
  | .restore _ _ _ imageOk, e => host_keeps (fun _ c h => State.restoreCmd_keeps h imageOk c) e
  | .traceControl .., e => host_keeps (fun _ c h => State.traceControl_keeps h c) e
  | .countersRead .., e => host_keeps (fun _ c h => State.countersRead_keeps h c) e
  | .selfTest .., e => host_keeps (fun _ c h => State.selfTest_keeps h c) e
  | .unknownOpcode .., e => execUnknownOpcode_keeps e
  | .ringDoorbell _ r value, e => act_keeps (fun _ h => State.ringDoorbell_keeps h r value) e
  | .ringCqDoorbell _ r value, e => act_keeps (fun _ h => State.ringCqDoorbell_keeps h r value) e
  | .ringEnable _ r intEnable, e => act_keeps (fun _ h => State.ringEnable_keeps h r intEnable) e
  | .ringDisable _ r intEnable, e => act_keeps (fun _ h => State.ringDisable_keeps h r intEnable) e
  | .ringDrainDone _ r, e => act_keeps (fun _ h => State.ringDrainDone_keeps h r) e
  | .ringConfigWrite _ r reg value, e => act_keeps (fun _ h => State.ringConfigWrite_keeps h r reg value) e
  | .ringFetch _ entries, e => act_keeps (fun _ h => State.ringFetch_keeps h entries) e
  | .holdEntryAccept _ r, e => act_keeps (fun _ h => State.holdAccept_keeps h r) e
  | .heldCourseEnqueue _ u, e => act_keeps (fun _ h => State.heldEnqueue_keeps h u) e
  | .heldCompletionWrite _ r fault, e => act_keeps (fun _ h => State.heldCompletionWrite_keeps h r fault) e
  | .intrCauseClear _ reg value, e => act_keeps (fun _ h => State.intrCauseClear_keeps h reg value) e
  | .registerWrite _ off wide value, e => act_keeps (fun _ h => State.registerWrite_keeps h off wide value) e
  | .timeStitchRead _ wide, e => actRead_keeps (fun _ h => State.timeStitchRead_keeps h wide) e
  | .timeGaugeRead .., e => actRead_keeps (fun _ h => State.timeGaugeRead_keeps h) e
  | .timeMissedLaunchesRead .., e => actRead_keeps (fun _ h => State.timeMissedLaunchesRead_keeps h) e
  | .powerThrottleStitchesRead .., e => actRead_keeps (fun _ h => State.powerThrottleStitchesRead_keeps h) e
  | .timeGaugeControlWrite _ value, e => act_keeps (fun _ h => State.gaugeControlWrite_keeps h value) e
  | .timeGaugeDelayWrite _ value, e => act_keeps (fun _ h => State.gaugeDelayWrite_keeps h value) e
  | .powerHostCapWrite _ value, e => act_keeps (fun _ h => State.powerHostCapWrite_keeps h value) e
  | .cntSnapshot .., e => execCntSnapshot_keeps e
  | .obsRegisterAccess .., e => execObsRegisterAccess_keeps e
  | .bar2Read _ off len, e => actRead_keeps (fun _ h => State.bar2Read_keeps h off len) e
  | .bar2Write _ off data, e => act_keeps (fun _ h => State.bar2Write_keeps h off data) e
  | .hostInterfaceReset .., e => act_keeps (fun _ h => State.hostInterfaceReset_keeps h) e
  | .hostInterfaceReady .., e => act_keeps (fun _ h => State.hostInterfaceReady_keeps h) e
  | .pcieLinkTrain _ partnerSpeed partnerWidth lanes eqFail, e =>
    act_keeps (fun _ h => State.pcieLinkTrain_keeps h partnerSpeed partnerWidth lanes eqFail) e
  | .configRequestRetry .., e => act_keeps (fun _ h => State.configRequestRetry_keeps h) e
  | .ptmResponseReceived _ master, e => act_keeps (fun _ h => State.ptmResponse_keeps h master) e
  | .courseLaunch _ u, e => act_keeps (fun _ h => State.courseLaunch_keeps h u) e
  | .panelReadyReport _ course u, e => act_keeps (fun _ h => State.readyReport_keeps h course u) e
  | .batchWaitExpiry _ p, e => act_keeps (fun _ h => State.batchExpiry_keeps h p) e
  | .courseRetire _ course, e => act_keeps (fun _ h => State.courseRetire_keeps h course) e
  | .markerComplete _ job marker panel, e => act_keeps (fun _ h => State.markerComplete_keeps h job marker panel) e
  | .markerReportReceived _ sender job marker mark, e =>
    act_keeps (fun _ h => State.markReport_keeps h sender.via sender.member job marker mark.stitch mark.unit) e
  | .stagingPageAvailable _ job, e => act_keeps (fun _ h => State.pageAvailable_keeps h job) e
  | .courseFault _ course unit cause addr row, e => act_keeps (fun _ h => State.courseFault_keeps h course unit cause addr row) e
  | .courseWatchdogExpiry _ course unit, e => act_keeps (fun _ h => State.watchdog_keeps h course unit) e
  | .implicitStepCommit _ course, e => act_keeps (fun _ h => State.implicitCommit_keeps h course) e
  | .swatchSelect _ needle course op tile written, e => act_keeps (fun _ h => State.swatchSelect_keeps h needle course op tile written) e
  | .swatchReplicaRun _ swatch result, e => act_keeps (fun _ h => State.replicaRun_keeps h swatch result) e
  | .swatchCompare _ swatch, e => act_keeps (fun _ h => State.swatchCompare_keeps h swatch) e
  | .swatchTiebreak _ swatch result, e => act_keeps (fun _ h => State.swatchTiebreak_keeps h swatch result) e
  | .suspectClear _ needle, e => act_keeps (fun _ h => State.suspectClear_keeps h needle) e
  | .idleTestItemStart _ needle, e => act_keeps (fun _ h => State.idleItem_keeps h needle) e
  | .testItemComplete _ unit builtinPass, e => act_keeps (fun _ h => State.itemDone_keeps h unit builtinPass) e
  | .selfTestTargetTaken _ unit, e => act_keeps (fun _ h => State.targetTaken_keeps h unit) e
  | .selfTestTargetReleased _ unit, e => act_keeps (fun _ h => State.targetReleased_keeps h unit) e
  | .stepDeadline _ job, e => act_keeps (fun _ h => State.settle_keeps h job) e
  | .verdictReportReceived _ sender job step verdict decided, e =>
    act_keeps (fun _ h => State.verdictReport_keeps h sender.via sender.member job step.toNat verdict decided) e
  | .verdictTimeout _ job, e => act_keeps (fun _ h => State.verdictTimeout_keeps h job) e
  | .frogRestart _ job, e => act_keeps (fun _ h => State.frogRestart_keeps h job) e
  | .abandonDropWindowEnd _ job, e => act_keeps (fun _ h => State.dropWindowEnd_keeps h job) e
  | .jobOpenExchangeReceived _ job report, e => act_keeps (fun _ h => State.openExchange_keeps h report.via job report.values) e
  | .jobOpenAgreeTimeout _ job, e => act_keeps (fun _ h => State.openTimeout_keeps h job) e
  | .delayMeasurement _ link t1 t2 t3 t4, e => act_keeps (fun _ h => State.delayMeasured_keeps h link t1 t2 t3 t4) e
  | .timeMessageSend .., e => act_keeps (fun _ h => State.timeMessageSend_keeps h) e
  | .timeMessageReceived _ link counter, e => act_keeps (fun _ h => State.timeMessage_keeps h link counter) e
  | .holdoverEntry .., e => act_keeps (fun _ h => State.holdoverEntry_keeps h) e
  | .masterTakeover .., e => act_keeps (fun _ h => State.masterTakeover_keeps h) e
  | .holdoverExpiry .., e => act_keeps (fun _ h => State.holdoverExpiry_keeps h) e
  | .electionMessageReceived _ link msg, e => act_keeps (fun _ h => State.electionMessage_keeps h link msg) e
  | .ppsInEdge edge, e => act_keeps (fun _ h => State.ppsInEdge_keeps h edge.refHeld) e
  | .refLossTimeout _ what, e => act_keeps (fun _ h => State.refLoss_keeps h what) e
  | .ppsOutPulse .., e => act_keeps (fun _ h => State.ppsOutPulse_keeps h) e
  | .ptpMessage _ masterTime, e => act_keeps (fun _ h => State.ptpMessage_keeps h masterTime) e
  | .cycInEdge _ edge, e => act_keeps (fun _ h => State.cycInEdge_keeps h edge.falling edge.hold) e
  | .quadCount _ counts, e => act_keeps (fun _ h => State.quadCounted_keeps h counts) e
  | .gaugeCoastedRecord .., e => act_keeps (fun _ h => State.gaugeCoasted_keeps h) e
  | .gaugeRecordReceived _ link rec, e => act_keeps (fun _ h => State.gaugeReceived_keeps h link rec) e
  | .cycOutPulse .., e => act_keeps (fun _ h => State.cycOutPulse_keeps h) e
  | .cycDetChange _ connected, e => act_keeps (fun _ h => State.cycDetChange_keeps h connected) e
  | .timedWake _ u, e => act_keeps (fun _ h => State.timedWake_keeps h u) e
  | .linkTraining _ training, e => act_keeps (fun _ h => State.linkTraining_keeps h training.link training.cable) e
  | .linkUp _ link result, e => act_keeps (fun _ h => State.onLinks_keeps h fun _ h => State.linkUp_keeps h link result) e
  | .linkLossOfLock _ link, e => act_keeps (fun _ h => State.onLinks_keeps h fun _ h => State.linkLoss_keeps h link) e
  | .linkRetryTimer _ link, e => act_keeps (fun _ h => State.linkRetry_keeps h link) e
  | .linkPlanRejoin _ link, e => act_keeps (fun _ h => State.linkRejoin_keeps h link) e
  | .skeinFormation _ wires members, e => act_keeps (fun _ h => State.skeinFormation_keeps h wires members) e
  | .idleFrameReceived _ link ack, e => act_keeps (fun _ h => State.onLinks_keeps h fun _ h => State.idleReceived_keeps h link ack) e
  | .ackFrameReceived _ link acks naks, e =>
    act_keeps (fun _ h => State.onLinks_keeps h fun _ h => State.ackReceived_keeps h link acks naks) e
  | .retransmitTimeout _ link seq, e => act_keeps (fun _ h => State.onLinks_keeps h fun _ h => State.resendTimeout_keeps h link seq) e
  | .uncorrectableFrame _ link seq, e => act_keeps (fun _ h => State.onLinks_keeps h fun _ h => State.uncorrectableFrame_keeps h link seq) e
  | .delayFrameReceived _ link t1 t2, e => act_keeps (fun _ h => State.delayFrame_keeps h link t1 t2) e
  | .trainingFrameReceived _ link serial peerLink die generation, e =>
    act_keeps (fun _ h => State.trainingFrame_keeps h link serial peerLink die generation) e
  | .cutFrameReceived _ link cutStitch lastSeq, e => act_keeps (fun _ h => State.cutFrame_keeps h link cutStitch lastSeq) e
  | .dataFrameReceived _ link frame, e => act_keeps (fun _ h => State.onLinks_keeps h fun _ h => State.dataFrame_keeps h link frame) e
  | .unscheduledFrameReceived _ link frame, e =>
    act_keeps (fun _ h => State.onLinks_keeps h fun _ h => State.unscheduledFrame_keeps h link frame) e
  | .unknownFrameDropped _ link frameType, e => act_keeps (fun _ h => State.unknownFrame_keeps h link frameType) e
  | .slotBoundary .., e => act_keeps (fun _ h => State.onLinks_keeps h fun _ h => State.slotBoundary_keeps h) e
  | .seamCourseWithdrawal _ course, e => act_keeps (fun _ h => State.onLinks_keeps h fun _ h => State.seamWithdrawal_keeps h course) e
  | .cutStitchReached .., e => act_keeps (fun _ h => State.onLinks_keeps h fun _ h => State.cutStitch_keeps h) e
  | .cutTaken .., e => act_keeps (fun _ h => State.onLinks_keeps h fun _ h => State.cutTaken_keeps h) e
  | .cutReportReceived _ sender cut taken, e => act_keeps (fun _ h => State.cutReport_keeps h sender.via sender.member cut taken) e
  | .bindOffReportTimeout .., e => act_keeps (fun _ h => State.cutTimeout_keeps h) e
  | .resumeStitchReached .., e => act_keeps (fun _ h => State.resumeStitch_keeps h) e
  | .engineOperationStart _ engine, e => act_keeps (fun _ h => State.engineStart_keeps h engine) e
  | .solveFactorCutoff _ op, e => act_keeps (fun _ h => State.factorCutoff_keeps h op) e
  | .solveDeadlineReached _ op, e => act_keeps (fun _ h => State.solveDeadlineReached_keeps h op) e
  | .solveOperationEnd _ op, e => act_keeps (fun _ h => State.operationEnd_keeps h op) e
  | .cableEngineLost _ engine, e => act_keeps (fun _ h => State.engineLost_keeps h engine) e
  | .patrolScrub _ addr corrected uncorrectable, e => act_keeps (fun _ h => State.patrolScrub_keeps h addr corrected uncorrectable) e
  | .rowRepair _ addr uncorrectable, e => act_keeps (fun _ h => State.rowRepair_keeps h addr uncorrectable) e
  | .pageRetirement _ addr uncorrectable, e => act_keeps (fun _ h => State.pageRetirement_keeps h addr uncorrectable) e
  | .stackInterfaceRetrain _ stack ok, e => act_keeps (fun _ h => State.stackRetrain_keeps h stack ok) e
  | .stackTemperatureSample _ stack temp, e => act_keeps (fun _ h => State.stackTemperature_keeps h stack temp) e
  | .bar2ThermalAbort _ off, e => act_keeps (fun _ h => State.bar2ThermalAbort_keeps h off) e
  | .stashChannelChange _ channel up, e => act_keeps (fun _ h => State.stashChannel_keeps h channel up) e
  | .retentionScrub _ block, e => act_keeps (fun _ h => State.retentionScrub_keeps h block) e
  | .wearLevelMove _ fromBlock toBlock, e => act_keeps (fun _ h => State.wearMove_keeps h fromBlock toBlock) e
  | .checkpointWriteDone _ ok, e => act_keeps (fun _ h => State.writeDone_keeps h ok) e
  | .restoreDone _ firstBadSection, e => act_keeps (fun _ h => State.restoreDone_keeps h firstBadSection) e
  | .idleShallowEntry _ u, e => act_keeps (fun _ h => State.shallowEntry_keeps h u) e
  | .idleDeepEntry _ u, e => act_keeps (fun _ h => State.deepEntry_keeps h u) e
  | .standbyEntry .., e => act_keeps (fun _ h => State.standbyEntry_keeps h) e
  | .hibernateEntry .., e => act_keeps (fun _ h => State.hibernateEntry_keeps h) e
  | .powerStateWake _ u, e => act_keeps (fun _ h => State.wake_keeps h u) e
  | .hibernateExit _ badChunks, e => act_keeps (fun _ h => State.hibernateExit_keeps h badChunks) e
  | .powerStateExitDone _ u, e => act_keeps (fun _ h => State.exitDone_keeps h u) e
  | .powerSample _ east draw voltage current, e => act_keeps (fun _ h => State.powerSample_keeps h east draw voltage current) e
  | .overcurrentEvent _ current, e => act_keeps (fun _ h => State.overcurrent_keeps h current) e
  | .dieOvertempShutdown _ east temp, e => act_keeps (fun _ h => State.overtemp_keeps h east temp) e
  | .powerGood _ f, e => stageAct_keeps (fun _ h => State.powerGood_keeps h f) e
  | .inputPowerLoss .., e => execInputPowerLoss_keeps e
  | .overvoltageTurnOff _ vin, e => stageAct_keeps (fun _ h => State.overvoltage_keeps h vin) e
  | .pwrCycleAssert .., e => execPwrCycleAssert_keeps e
  | .hookWatchdogExpiry _, e => act_keeps (fun _ h => State.lose_keeps h 1) e
  | .bridgeLaneGroupFail _ group, e => act_keeps (fun _ h => State.bridgeFail_keeps h group) e
  | .fwHandover .., e => act_keeps (fun _ h => State.fwHandover_keeps h) e
  | .unitMicrocodeSwitch _ unit, e => act_keeps (fun _ h => State.microcodeSwitch_keeps h unit) e
  | .fwTrialExpiry .., e => act_keeps (fun _ h => State.trialExpiry_keeps h) e
  | .debugTokenExpiry .., e => act_keeps (fun _ h => State.tokenExpiry_keeps h) e
  | .spdmRequest _ via req, e => act_keeps (fun _ h => State.spdm_keeps h via req) e
  | .dhcpFallbackTimeout .., e => act_keeps (fun _ h => State.dhcpFallback_keeps h) e
  | .uartRxCharacter _ ch, e => act_keeps (fun _ h => State.uartRx_keeps h ch) e
  | .adminDoorbell _ value, e => act_keeps (fun _ h => State.adminDoorbell_keeps h value) e
  | .intrMaskWrite _ reg value, e => act_keeps (fun _ h => State.intrMaskWrite_keeps h reg value) e
  | .resizableBarWrite _ sizeLog2, e => act_keeps (fun _ h => State.resizableBarWrite_keeps h sizeLog2) e
  | .snapshotReadDone _ job commandId, e => act_keeps (fun _ h => State.snapshotDone_keeps h job commandId) e
  | .dieThrottleTemperature _ east temp, e => act_keeps (fun _ h => State.dieTemperature_keeps h east temp) e
  | .obsSample .., e => act_keeps (fun _ h => State.obsSample_keeps (State.sweep_keeps h)) e
  | .jtagInstruction _ ins, e => act_keeps (fun _ h => State.jtagTake_keeps h ins) e
  | .dhcpAddress _ addr, e => act_keeps (fun _ h => State.dhcpAddress_keeps h addr) e

/-! ### Every step (03 R81; 10 R308; 11 R332; 12 R338) -/

/-- A step keeps the queue behind the command it takes, what was driven outward for good, and the form of device memory. -/
theorem step_keeps {s u : State} (e : step s = .next u) : State.Keeps { s with pending := s.pending.tail } u := by
  unfold step at e
  split at e
  case h_1 hnone =>
    cases e
    have hsame : { s with pending := s.pending.tail } = s := by rw [hnone, List.tail_nil, ← hnone]
    exact hsame.symm ▸ State.tick_keeps (State.Keeps.refl s)
  case h_2 c rest hfront =>
    rw [hfront]
    exact exec_keeps c e

/-- Settles O60: every step runs one command, or lets one stitch pass, and each keeps its part. -/
theorem stepKeeps : Obligations.StepKeeps := by
  unfold Obligations.StepKeeps
  intro s u hmem hstep
  obtain ⟨hpending, hout, hkeep⟩ := step_keeps hstep
  exact ⟨hkeep hmem, hout, hpending⟩

end Sys2Proof.Machine
end

section
/-! SUPPORT. Views of device memory: what merging and leaving out entries read as, the copy of a page at its first write, and the statement
ViewsOfMemory, settled by them. -/

namespace Sys2Proof.Machine

/-! ### Entries left out and merged (03 R81, R82) -/

/-- An address that no entry lists reads as unlisted. -/
theorem read_notListed {m : List Host.Cell} {x : Nat} (h : ∀ d ∈ m, d.1 ≠ x) : Memory.read m x = unlisted := by
  induction m with
  | nil => rfl
  | cons c m ih =>
    obtain ⟨hc, hm⟩ := List.forall_mem_cons.mp h
    rw [Memory.read, if_neg hc, ih hm, ite_self]

/-- Leaving out entries by their address leaves the others readable and no more. -/
theorem read_filter {m : List Host.Cell} (q : Nat → Bool) (x : Nat) (h : Memory.wf m = true) :
    Memory.read (m.filter (fun c => q c.1)) x = if q x = true then Memory.read m x else unlisted := by
  split
  case isFalse hq =>
    refine read_notListed fun d hd hdx => hq ?_
    rw [← hdx]
    exact (List.mem_filter.mp hd).2
  case isTrue hq =>
    induction m with
    | nil => rfl
    | cons c m ih =>
      obtain ⟨-, hrise, hm⟩ := (wf_cons c m).mp h
      have hrest := ih hm
      by_cases hkept : q c.1 = true
      · rw [List.filter_cons, if_pos hkept, Memory.read, Memory.read, hrest]
      · have hne : c.1 ≠ x := fun hcx => hkept (hcx ▸ hq)
        rw [List.filter_cons, if_neg hkept, hrest, Memory.read, if_neg hne]
        split
        case isTrue hlt => exact read_below fun d hd => lt_trans hlt (hrise d hd)
        case isFalse => rfl

theorem read_outside {m : List Host.Cell} (p : Nat → Bool) (x : Nat) (h : Memory.wf m = true) :
    Memory.read (Memory.outside m p) x = if p (pageOf x) = true then unlisted else Memory.read m x := by
  rw [Memory.outside, read_filter (fun a => !p (pageOf a)) x h]
  cases p (pageOf x) <;> rfl

theorem read_inside {m : List Host.Cell} (p : Nat → Bool) (x : Nat) (h : Memory.wf m = true) :
    Memory.read (Memory.inside m p) x = if p (pageOf x) = true then Memory.read m x else unlisted :=
  read_filter (fun a => p (pageOf a)) x h

/-- Merged entries leave every address that they do not list. -/
theorem read_put_notListed {m cs : List Host.Cell} {x : Nat} (hm : Memory.wf m = true) (hx : ∀ d ∈ cs, d.1 ≠ x) :
    Memory.read (Memory.put m cs) x = Memory.read m x := by
  induction cs generalizing m with
  | nil => rfl
  | cons c cs ih =>
    obtain ⟨hc, hcs⟩ := List.forall_mem_cons.mp hx
    rw [Memory.put, List.foldl_cons, ← Memory.put, ih (write_wf _ _ hm) hcs, read_write _ _ _ hm, if_neg (Ne.symm hc)]

/-- Where nothing was listed, merged entries read as they do alone. -/
theorem read_put_unlisted {m cs : List Host.Cell} {x : Nat} (hm : Memory.wf m = true) (hcs : Memory.wf cs = true)
    (hx : Memory.read m x = unlisted) : Memory.read (Memory.put m cs) x = Memory.read cs x := by
  induction cs generalizing m with
  | nil => exact hx
  | cons c cs ih =>
    obtain ⟨-, hrise, hrest⟩ := (wf_cons c cs).mp hcs
    rw [Memory.put, List.foldl_cons, ← Memory.put, Memory.read]
    by_cases hc : c.1 = x
    · have hlater : ∀ d ∈ cs, d.1 ≠ x := fun d hd hdx => absurd (hrise d hd) (by omega)
      rw [read_put_notListed (write_wf _ _ hm) hlater, read_write _ _ _ hm, if_pos hc.symm, if_pos hc]
    · rw [ih (write_wf _ _ hm) hrest (by rw [read_write _ _ _ hm, if_neg (Ne.symm hc), hx]), if_neg hc]
      split
      case isTrue hlt => exact read_below fun d hd => lt_trans hlt (hrise d hd)
      case isFalse => rfl

/-! ### Overlays (03 R82, R83) -/

/-- An overlay in its form: its entries are canonical and lie on its pages. -/
def Overlay.Sound (o : Overlay) : Prop := Memory.wf o.cells = true ∧ ∀ d ∈ o.cells, o.pages.contains (pageOf d.1) = true

/-- Off its pages a sound overlay lists nothing. -/
theorem Overlay.Sound.notListed {o : Overlay} (h : o.Sound) {x : Nat} (hx : o.pages.contains (pageOf x) ≠ true) :
    ∀ d ∈ o.cells, d.1 ≠ x :=
  fun d hd hdx => hx (hdx ▸ h.2 d hd)

/-- Publishing replaces the bytes of the overlay's pages and no others. -/
theorem read_publish {m : List Host.Cell} {o : Overlay} (hm : Memory.wf m = true) (ho : o.Sound) (x : Nat) :
    Memory.read (Memory.publish m o) x = if o.pages.contains (pageOf x) = true then Memory.read o.cells x else Memory.read m x := by
  have hout := read_outside o.pages.contains x hm
  rw [Memory.publish]
  split
  case isTrue hpage => exact read_put_unlisted (outside_wf _ hm) ho.1 (hout.trans (if_pos hpage))
  case isFalse hpage => rw [read_put_notListed (outside_wf _ hm) (ho.notListed hpage), hout, if_neg hpage]

/-- The entries of a page are canonical and are those of the outermost overlay that holds it. -/
theorem pageCells_spec {os : List Overlay} {m : List Host.Cell} (hos : ∀ k ∈ os, k.Sound) (hm : Memory.wf m = true) (p : Nat) :
    Memory.wf (View.pageCells os m p) = true ∧ (∀ d ∈ View.pageCells os m p, pageOf d.1 = p) ∧
      ∀ x, pageOf x = p → Memory.read (View.pageCells os m p) x = View.readIn os m x := by
  have hpage : ∀ {cells : List Host.Cell}, ∀ d ∈ Memory.inside cells (· == p), pageOf d.1 = p :=
    fun d hd => beq_iff_eq.mp (List.mem_filter.mp hd).2
  have hread : ∀ {cells : List Host.Cell} {x : Nat}, Memory.wf cells = true → pageOf x = p →
      Memory.read (Memory.inside cells (· == p)) x = Memory.read cells x :=
    fun hw hx => (read_inside _ _ hw).trans (if_pos (beq_iff_eq.mpr hx))
  induction os with
  | nil => exact ⟨inside_wf _ hm, hpage, fun x hx => hread hm hx⟩
  | cons o os ih =>
    obtain ⟨ho, hos⟩ := List.forall_mem_cons.mp hos
    unfold View.pageCells
    split
    case isTrue hc =>
      refine ⟨inside_wf _ ho.1, hpage, fun x hx => ?_⟩
      rw [hread ho.1 hx, View.readIn, hx, if_pos hc]
    case isFalse hc =>
      obtain ⟨hwf, hon, heq⟩ := ih hos
      refine ⟨hwf, hon, fun x hx => ?_⟩
      rw [heq x hx, View.readIn, hx, if_neg hc]

/-- The outermost overlay when it holds a page, which its first write copies (03 R82). -/
def Overlay.holding (o : Overlay) (os : List Overlay) (m : List Host.Cell) (p : Nat) : Overlay :=
  if o.pages.contains p then o else { pages := p :: o.pages, cells := Memory.put o.cells (View.pageCells os m p) }

theorem view_write_outermost (o : Overlay) (os : List Overlay) (m : List Host.Cell) (a : Nat) (b : Byte) :
    View.write ⟨o :: os, m⟩ a b =
      ⟨{ o.holding os m (pageOf a) with cells := Memory.write (o.holding os m (pageOf a)).cells a b } :: os, m⟩ := rfl

/-- Copying a page changes nothing that the view reads. -/
theorem holding_spec {o : Overlay} {os : List Overlay} {m : List Host.Cell} (ho : o.Sound) (hos : ∀ k ∈ os, k.Sound)
    (hm : Memory.wf m = true) (p : Nat) :
    Memory.wf (o.holding os m p).cells = true ∧ (o.holding os m p).pages.contains p = true ∧
      ∀ x, View.readIn (o.holding os m p :: os) m x = View.readIn (o :: os) m x := by
  unfold Overlay.holding
  split
  case isTrue hc => exact ⟨ho.1, hc, fun _ => rfl⟩
  case isFalse hc =>
    obtain ⟨hwf, hon, heq⟩ := pageCells_spec hos hm p
    refine ⟨put_wf _ ho.1, by simp, fun x => ?_⟩
    rw [View.readIn, View.readIn]
    by_cases hx : pageOf x = p
    · have hnone : Memory.read o.cells x = unlisted := read_notListed (ho.notListed (hx ▸ hc))
      rw [if_pos (by simp [hx]), read_put_unlisted ho.1 hwf hnone, heq x hx, hx, if_neg hc]
    · have hother : ∀ d ∈ View.pageCells os m p, d.1 ≠ x := fun d hd hdx => hx (hdx ▸ hon d hd)
      have hsame : (p :: o.pages).contains (pageOf x) = o.pages.contains (pageOf x) := by simp [hx]
      rw [hsame, read_put_notListed ho.1 hother]

/-- A written byte shows in the view, and no other change does. -/
theorem read_view_write {o : Overlay} {os : List Overlay} {m : List Host.Cell} (ho : o.Sound) (hos : ∀ k ∈ os, k.Sound)
    (hm : Memory.wf m = true) (a : Nat) (b : Byte) (x : Nat) :
    (View.write ⟨o :: os, m⟩ a b).read x = if x = a then b else View.read ⟨o :: os, m⟩ x := by
  obtain ⟨hwf, hpage, hview⟩ := holding_spec ho hos hm (pageOf a)
  rw [view_write_outermost, View.read, View.read, ← hview x, View.readIn, View.readIn, read_write _ _ _ hwf]
  dsimp only
  by_cases hx : x = a
  · rw [if_pos hx, if_pos hx, hx, if_pos hpage]
  · rw [if_neg hx, if_neg hx]

/-- Settles O27: publishing by what merging over the pages left out reads as, writing by the page that the first write copies. -/
theorem viewsOfMemory : Obligations.ViewsOfMemory := by
  unfold Obligations.ViewsOfMemory
  refine ⟨fun m o x hm ho hpages => ⟨read_publish hm ⟨ho, hpages⟩ x, publish_wf o hm⟩, fun o os m a x b hsound hm => ?write⟩
  case write =>
    obtain ⟨ho, hos⟩ := List.forall_mem_cons.mp hsound
    exact ⟨read_view_write ho hos hm a b x, rfl, rfl⟩

end Sys2Proof.Machine
end

section
/-! SUPPORT. Commands on jobs, tensors, patterns, steps and snapshots, and the retiring of courses: the equations of their operations where the
checks pass, and the statements JobsOpenAndClose, TensorsAndPatternsKept, StepsAndSnapshots and CoursesRetire, settled by them. -/

namespace Sys2Proof.Machine

/-- Checks of which none holds find no failure (00 R459). -/
theorem firstFailure_none {checks : List (Bool × Nat)} (h : ∀ c ∈ checks, c.1 = false) : firstFailure checks = none := by
  have hnone : checks.filter (·.1) = [] := List.filter_eq_nil_iff.mpr fun c hc => by rw [h c hc]; exact Bool.false_ne_true
  rw [firstFailure, hnone]
  rfl

/-! ### JOB_OPEN and JOB_CLOSE (03 R86 to R88) -/

/-- A sound descriptor with room opens a local job, or the exchange of a skein job. -/
theorem jobOpen_sound {b : State} {c : Cmd} (hgood : b.badJob c = false) (hroom : b.jobs.length + b.openings.length < 192) :
    b.jobOpen c = if (b.newJob c).skein then b.startOpening c (b.newJob c) else State.finish { b with
      jobs := b.jobs ++ [b.newJob c], cfg := { b.cfg with standbysNow := b.cfg.fields.standbyCount } } c.tag [0] 0 := by
  have hchecks : firstFailure [(b.badJob c, stBadField), (decide (192 ≤ b.jobs.length + b.openings.length), stNoResource)] = none :=
    firstFailure_none (by simp [hgood, hroom])
  unfold State.jobOpen
  simp only [hchecks]

/-- A sound JOB_CLOSE of an open job marks it, and settles what then can end. -/
theorem jobClose_sound {b : State} {c : Cmd} {j : Job} (hj : b.openJob? c.tag.jobId = some j) (hl : c.badLayout = false)
    (hz : (if c.rev1 then c.operand1 != 0 else !c.zero 40 24) = false) {d : State}
    (hd : d = b.updJob j.id (fun k => { k with closing := some c.tag })) :
    b.jobClose c = (if d.cutStops then d.closeUnderCut j else d.closeOpenStep j).settle j.id := by
  subst hd
  simp only [State.jobClose, hj, hl, hz, Bool.or_false, Bool.false_eq_true, if_false]
  rfl

section
variable {s : State} {t : Stitch} {src : Src} {io : HostIo} {f : Fetched}

theorem exec_jobOpen (h : (s.advance t).hookTakes src 0x0020 f) :
    exec (.jobOpen t src io) s = .next ((s.popped t src).jobOpen (s.given t src io f)) := host_takes h

theorem exec_jobClose (h : (s.advance t).hookTakes src 0x0021 f) :
    exec (.jobClose t src io) s = .next ((s.popped t src).jobClose (s.given t src io f)) := host_takes h

theorem exec_patternLoad (h : (s.advance t).hookTakes src 0x0022 f) :
    exec (.patternLoad t src io) s = .next ((s.popped t src).patternLoad (s.given t src io f)) := host_takes h

theorem exec_tensorMap (h : (s.advance t).hookTakes src 0x0023 f) :
    exec (.tensorMap t src io) s = .next ((s.popped t src).tensorMap (s.given t src io f)) := host_takes h

theorem exec_stepBegin (h : (s.advance t).hookTakes src 0x0028 f) :
    exec (.stepBegin t src io) s = .next ((s.popped t src).stepBegin (s.given t src io f)) := host_takes h

theorem exec_stepCommit (h : (s.advance t).hookTakes src 0x0029 f) :
    exec (.stepCommit t src io) s = .next ((s.popped t src).stepCommit (s.given t src io f)) := host_takes h

theorem exec_snapshotRead (h : (s.advance t).hookTakes src 0x002A f) :
    exec (.snapshotRead t src io) s = .next ((s.popped t src).snapshotRead (s.given t src io f)) := host_takes h

end

/-- Settles O6: once the checks pass, the kind of the job decides between opening and exchange, and a cut how a JOB_CLOSE ends. -/
theorem jobsOpenAndClose : Obligations.JobsOpenAndClose := by
  unfold Obligations.JobsOpenAndClose
  rintro s b t src io f c rfl rfl
  refine ⟨fun h hgood hroom => ?jobOpen, fun j d h hj hl hz hd => ?jobClose⟩
  case jobOpen =>
    rw [exec_jobOpen h, jobOpen_sound hgood hroom]
    exact ⟨fun hlocal => by rw [hlocal]; rfl, fun hskein => by rw [hskein]; rfl⟩
  case jobClose => rw [exec_jobClose h, jobClose_sound hj hl hz hd]

/-! ### TENSOR_MAP and PATTERN_LOAD (03 R89, R94, R96 to R98) -/

section
variable {b : State} {c : Cmd} {j : Job} (hj : b.openJob? c.tag.jobId = some j) (hl : c.badLayout = false) (hr : c.actionReserved = false)
include hj hl hr

/-- A TENSOR_MAP of action 0 maps. -/
theorem tensorMap_in (ha : c.actionId = (0, 0)) : b.tensorMap c = b.tensorMapIn c j := by
  simp [State.tensorMap, hj, hl, hr, ha]

/-- A TENSOR_MAP of action 1 unmaps. -/
theorem tensorMap_out {id : Nat} (ha : c.actionId = (1, id)) : b.tensorMap c = b.tensorUnmap c j (BitVec.ofNat 32 id) := by
  simp [State.tensorMap, hj, hl, hr, ha]

/-- A PATTERN_LOAD of action 0 loads. -/
theorem patternLoad_in (ha : c.actionId = (0, 0)) : b.patternLoad c = b.patternIn c j := by
  simp [State.patternLoad, hj, hl, hr, ha]

/-- A PATTERN_LOAD of action 1 drops a handle. -/
theorem patternLoad_out {handle : Nat} (ha : c.actionId = (1, handle)) : b.patternLoad c = b.patternOut c j handle := by
  simp [State.patternLoad, hj, hl, hr, ha]

end

/-- A sound tensor with room and a stack is mapped. -/
theorem tensorMapIn_sound {b : State} {c : Cmd} {j : Job} (hp : c.badPayload 96 = false) (hgood : b.badTensor j c.data = false)
    (hroom : j.tensors.length < 65536) (hstack : b.noStack (tensorOf c.data) = false) :
    b.tensorMapIn c j = (b.mapTensor j (tensorOf c.data)).finish c.tag [0] 0 := by
  have hchecks : firstFailure [(c.badPayload 96 || b.badTensor j c.data, stBadField),
      (decide (65536 ≤ j.tensors.length) || b.noStack (tensorOf c.data), stNoResource)] = none :=
    firstFailure_none (by simp [hp, hgood, hroom, hstack])
  simp only [State.tensorMapIn, hchecks]

/-- A tensor without a scale tensor of its own, which nothing uses, is unmapped alone. -/
theorem tensorUnmap_alone {b : State} {c : Cmd} {j : Job} {x : Tensor} {id : Word} (hx : j.tensors.find? (·.id == id) = some x)
    (hown : x.managed = false) (hscale : j.tensors.any (fun y => y.managed && y.scaleId == id) = false) (hidle : b.tensorBusy j x = false) :
    b.tensorUnmap c j id = State.finish (State.serveDeferred (b.updJob j.id (fun (k : Job) =>
      { k with tensors := k.tensors.filter (fun y => !(x.id == y.id)), scale := k.scale.onUnmap x.id }))) c.tag [0] 0 := by
  have hgroup : j.tensors.filter (fun y => x.managed && y.id == x.scaleId) = [] := List.filter_eq_nil_iff.mpr fun y _ => by simp [hown]
  simp only [State.tensorUnmap, hx, hscale, hgroup, hidle, List.any_cons, List.any_nil, Bool.or_false, Bool.false_eq_true, if_false]
  rfl

/-- A checked image with room is kept under the next handle, which is the result. -/
theorem patternIn_sound {b : State} {c : Cmd} {j : Job} (hp : c.badPayload 64 = false) (himage : imageFailure j c.data c.payloadLen = none)
    (hroom : j.patterns.length < 4096) (hsize : c.data.length ≤ imageMax) :
    b.patternIn c j = State.finish (b.updJob j.id (fun (k : Job) =>
      { k with patterns := k.patterns ++ [⟨k.nextPattern, c.data⟩], nextPattern := k.nextPattern + 1 })) c.tag [0] j.nextPattern := by
  have hfits : ¬ (4096 ≤ j.patterns.length ∨ imageMax < c.data.length) := by omega
  simp only [State.patternIn, hp, himage, if_neg hfits, Bool.false_eq_true, if_false]

/-- A handle that no queued or running course names is dropped. -/
theorem patternOut_idle {b : State} {c : Cmd} {j : Job} {handle : Nat} (hknown : j.patterns.all (·.handle != handle) = false)
    (hidle : b.courses.any (fun x => x.job == j.id && x.kind == .course && x.live && x.pattern == handle) = false) :
    b.patternOut c j handle = State.finish (b.updJob j.id (fun (k : Job) =>
      { k with patterns := k.patterns.filter (·.handle != handle) })) c.tag [0] 0 := by
  simp only [State.patternOut, hknown, hidle, Bool.false_eq_true, if_false]

/-- Settles O7: each action by its operation, whose checks pass. -/
theorem tensorsAndPatternsKept : Obligations.TensorsAndPatternsKept := by
  unfold Obligations.TensorsAndPatternsKept
  rintro s b t src io f c j rfl rfl hj hl hr
  refine ⟨fun h ha hp hgood hroom hstack => ?map, fun x id h ha hx hown hscale hidle => ?unmap,
    fun h ha hp himage hroom hsize => ?load, fun handle h ha hknown hidle => ?drop⟩
  case map => rw [exec_tensorMap h, tensorMap_in hj hl hr ha, tensorMapIn_sound hp hgood hroom hstack]
  case unmap => rw [exec_tensorMap h, tensorMap_out hj hl hr ha, tensorUnmap_alone hx hown hscale hidle]
  case load => rw [exec_patternLoad h, patternLoad_in hj hl hr ha, patternIn_sound hp himage hroom hsize]
  case drop => rw [exec_patternLoad h, patternLoad_out hj hl hr ha, patternOut_idle hknown hidle]

/-! ### STEP_BEGIN and STEP_COMMIT (03 R111, R113) -/

/-- A sound STEP_BEGIN with no step before it and no window of an abandonment opens the step and starts its attempt at once. -/
theorem stepBegin_sound {b : State} {c : Cmd} {j : Job} (hl : c.badLayout = false) (hj : b.job? c.tag.jobId = some j) (hkind : c.op 48 1 = 0)
    (hz : c.zero 49 3 = true) (hspan : c.op 52 4 ≠ 0) (hopen : j.opened = none) (hclosing : j.closing = none) (hcommit : j.committing = none)
    (hwindow : j.dropUntil = none) (hnext : c.op 40 8 = j.nextStep)
    (himplicit : b.courses.any (fun d => d.job == c.tag.jobId && d.implicitStep) = false) :
    b.stepBegin c = State.settle (State.finish (State.startAttempt (b.updJob c.tag.jobId (fun (k : Job) =>
      { k.openStep (b.newStep c) with beginWait := none })) c.tag.jobId true) c.tag [0] 0) c.tag.jobId := by
  have hwanted : j.wanted = j.nextStep := by rw [Job.wanted, hcommit]
  have hbad : (c.badLayout || decide (1 < c.op 48 1) || !c.zero 49 3 || c.op 52 4 == 0 || j.opened.isSome || j.closing.isSome ||
      c.op 40 8 != j.wanted || (c.op 48 1 == 1 && unbindable b.gauge.quad (c.op 56 8))) = false := by
    simp [hl, hkind, hz, hspan, hopen, hclosing, hnext, hwanted]
  have hchecks : firstFailure [(c.badLayout || decide (1 < c.op 48 1) || !c.zero 49 3 || c.op 52 4 == 0 || j.opened.isSome ||
      j.closing.isSome || c.op 40 8 != j.wanted || (c.op 48 1 == 1 && unbindable b.gauge.quad (c.op 56 8)), stBadField),
      (b.courses.any (fun d => d.job == c.tag.jobId && d.implicitStep), stNoResource)] = none :=
    firstFailure_none (by simp [hbad, himplicit])
  simp only [State.stepBegin, hj, hchecks, hcommit, hwindow, Option.isNone_none, Option.isSome_none, Bool.false_eq_true, if_false, if_true]

/-- A sound STEP_COMMIT of the open step makes it the committing one where no other is. -/
theorem stepCommit_sound {b : State} {c : Cmd} {j : Job} {p : Step} (hl : c.badLayout = false) (hj : b.job? c.tag.jobId = some j)
    (hclosing : j.closing = none) (hopen : j.opened = some p) (hz : c.zero 48 16 = true) (hnumber : c.op 40 8 = p.number)
    (hfirst : p.commit = none) :
    b.stepCommit c = State.settle (b.updJob c.tag.jobId (fun (k : Job) =>
      if j.committing.isNone then { k with opened := none, committing := some { p with commit := some c.tag } }
      else { k with opened := some { p with commit := some c.tag } })) c.tag.jobId := by
  have hfound : (b.job? c.tag.jobId).bind (fun j => if j.closing.isSome then none else j.opened.map (fun p => (j, p))) = some (j, p) := by
    simp [hj, hclosing, hopen]
  have hgood : (c.badLayout || !c.zero 48 16 || c.op 40 8 != p.number || p.commit.isSome) = false := by simp [hl, hz, hnumber, hfirst]
  simp only [State.stepCommit, hfound, hgood, Bool.false_eq_true, if_false]

/-! ### SNAPSHOT_READ (03 R119) -/

/-- A sound SNAPSHOT_READ of the latest view holds that view and copies. -/
theorem snapshotRead_sound {b : State} {c : Cmd} {j : Job} (hl : c.badLayout = false) (hj : b.openJob? c.tag.jobId = some j)
    (hrev : c.rev1 = false) (hz : c.zero 40 24 = true) (hp : c.badPayload (16 + 32 * field c.data 8 2) = false) (hsome : field c.data 8 2 ≠ 0)
    (hfew : field c.data 8 2 ≤ 16) (hres : zeroBytes c.data 10 6 = true)
    (hres' : (List.range (field c.data 8 2)).any (fun i => !zeroBytes c.data (20 + 32 * i) 4) = false)
    (hentries : (snapEntries c.data).any j.badEntry = false) (hlatest : field c.data 0 8 = counterMax) :
    b.snapshotRead c = { b with snaps := b.snaps ++
      [{ tag := c.tag, view := some j.latest, entries := snapEntries c.data, free := b.freeRanges j (snapEntries c.data) }] } := by
  have hbad : (c.badLayout || (if c.rev1 then c.operand1 != 0 else !c.zero 40 24) || c.badPayload (16 + 32 * field c.data 8 2) ||
      field c.data 8 2 == 0 || decide (16 < field c.data 8 2) || !zeroBytes c.data 10 6 ||
      (List.range (field c.data 8 2)).any (fun i => !zeroBytes c.data (20 + 32 * i) 4) || (snapEntries c.data).any j.badEntry) = false := by
    rw [hres', hentries, hl, hrev, hz, hp, hres]
    simp [hsome, hfew]
  have hwrong : (c.rev1 && !c.badPayload 8 && field c.data 0 8 != counterMax) = false := by simp [hrev]
  have hchecks : ∀ held : Bool, firstFailure [(false, stBadField), (false, stWrongRevision),
      (j.latest != j.latest && held, stNoResource)] = none :=
    fun held => firstFailure_none (by simp)
  simp only [State.snapshotRead, hj, hwrong, hbad, if_pos hlatest, hchecks]

/-- Settles O9: each command by its operation, whose checks pass. -/
theorem stepsAndSnapshots : Obligations.StepsAndSnapshots := by
  unfold Obligations.StepsAndSnapshots
  rintro s b t src io f c j rfl rfl hl
  refine ⟨fun h hj hkind hz hspan hopen hclosing hcommit hwindow hnext himplicit => ?stepBegin,
    fun p h hj hclosing hopen hz hnumber hfirst => ?stepCommit,
    fun h hj hrev hz hp hsome hfew hres hres' hentries hlatest => ?snapshotRead⟩
  case stepBegin => rw [exec_stepBegin h, stepBegin_sound hl hj hkind hz hspan hopen hclosing hcommit hwindow hnext himplicit]
  case stepCommit => rw [exec_stepCommit h, stepCommit_sound hl hj hclosing hopen hz hnumber hfirst]
  case snapshotRead => rw [exec_snapshotRead h, snapshotRead_sound hl hj hrev hz hp hsome hfew hres hres' hentries hlatest]

/-! ### COURSE_RETIRE (03 R82; 05 R172; 13 R370) -/

theorem exec_courseRetire {s a : State} {t : Stitch} (h : s.Reached t a) (id : Nat) :
    exec (.courseRetire t id) s = .next (a.courseRetire id) := act_reached (f := (·.courseRetire id)) h

/-- A course retires with its whole batch or not at all. -/
theorem courseRetire_batch {a : State} {id : Nat} {c : Course} {batch : List Course} (hc : a.course? id = some c)
    (hbatch : batch = a.courses.filter (fun d => d.id == id || c.batchWith.contains d.id)) :
    a.courseRetire id = if batch.all a.mayRetire then
      batch.foldl (fun (x : State) d => x.afterEnd d) (batch.foldl (fun (x : State) d => x.retireOne d.id) a) else a := by
  subst hbatch
  simp only [State.courseRetire, hc]

/-- Settles O28: whether the whole batch may retire decides. -/
theorem coursesRetire : Obligations.CoursesRetire := by
  unfold Obligations.CoursesRetire
  intro s a t id c batch h hc hbatch
  rw [exec_courseRetire h, courseRetire_batch hc hbatch]
  exact ⟨fun hall => by rw [hall]; rfl, fun hsome => by rw [hsome]; rfl⟩

end Sys2Proof.Machine
end

section
/-! SUPPORT. Markers, the deciding of steps, and verdicts: the equations of their operations, case by case, and the statements MarkersComplete,
StepsDecided and VerdictsExchanged, settled by them. -/

namespace Sys2Proof.Machine

/-! ### Markers (03 R105, R106; 10 R297) -/

section
variable {a : State} {job m : Word} {j : Job} {e : MarkerEm} (hj : a.job? job = some j) (he : j.openMark m = some e)
include hj he

/-- A PANEL marker completes in a panel whose part has run. -/
theorem markerComplete_panel {p : Nat} (hscope : e.scope = 1) (hdone : a.partDone e p = true) :
    a.markerComplete job m (some p) = a.panelMark j e p := by
  simp [State.markerComplete, hj, he, hscope, hdone]

/-- A DEVICE or SKEIN marker completes on this module once its course has retired, and not before. -/
theorem markerComplete_device : a.markerComplete job m none =
    if decide (2 ≤ e.scope) && e.status == .pending && a.emitterDone e then a.deviceMark j e else a := by
  simp [State.markerComplete, hj, he]

end

section
variable {b : State} {job m : Word} {k : Job} {r : MarkReport} (hk : b.job? job = some k) (hskein : k.skein = true)
  (hother : r.member ≠ b.skein.device)
include hk hskein hother

/-- The first report of a member for the open emission of a SKEIN marker counts, but for one of an attempt that is gone. -/
theorem takeMark_open {x : MarkerEm} (hx : k.openMark m = some x) (hscope : x.scope = 3)
    (hfirst : x.reports.any (·.member == r.member) = false) :
    b.takeMark job m r = if r.stitch < k.markFloor x then b else
      State.joinMark (b.updMark job x.ord (fun (x : MarkerEm) => { x with reports := x.reports ++ [r] })) job x.ord := by
  have hwaits : (k.openMark m).filter (fun x => x.scope == 3 && !(x.reports.any (·.member == r.member))) = some x := by
    simp [hx, hscope, hfirst]
  simp only [State.takeMark, hk, hskein, beq_eq_false_iff_ne.mpr hother, hwaits, Bool.not_true, Bool.or_false, Bool.false_eq_true, if_false]

/-- A report that comes before the emission of its SKEIN marker waits for it. -/
theorem takeMark_early (hnone : ∀ y ∈ k.openMark m, y.scope ≠ 3) :
    b.takeMark job m r = b.updJob job (fun (j : Job) => { j with markReports := j.markReports ++ [(m, r)] }) := by
  have hwaits : (k.openMark m).filter (fun x => x.scope == 3 && !(x.reports.any (·.member == r.member))) = none := by
    rw [Option.filter_eq_none_iff]
    intro y hy
    simp [hnone y hy]
  simp only [State.takeMark, hk, hskein, beq_eq_false_iff_ne.mpr hother, hwaits, Bool.not_true, Bool.or_false, Bool.false_eq_true, if_false]

end

/-- Reports for an emission of the open step count from the restart of the attempt that runs. -/
theorem markFloor_opened {p : Step} {k : Job} {x : MarkerEm} (hp : p ∈ k.opened) (hstep : p.number = x.step) : k.markFloor x = p.restarted := by
  have hopened : k.opened = some p := hp
  simp [Job.markFloor, hopened, hstep]

theorem exec_markerComplete {s a : State} {t : Stitch} (h : s.Reached t a) (job m : Word) (panel : Option Nat) :
    exec (.markerComplete t job m panel) s = .next (a.markerComplete job m panel) := act_reached (f := (·.markerComplete job m panel)) h

theorem exec_markerReportReceived {s a : State} {t : Stitch} (h : s.Reached t a) (via : Arrival) (member : BitVec 16) (job m : Word)
    (at0 unit : Nat) : exec (.markerReportReceived t ⟨via, member⟩ job m ⟨at0, unit⟩) s = .next (a.markReport via member job m at0 unit) :=
  act_reached (f := (·.markReport via member job m at0 unit)) h

/-- Settles O30: a completion by the scope of the emission, a report by whether its emission is open and its attempt still runs. -/
theorem markersComplete : Obligations.MarkersComplete := by
  unfold Obligations.MarkersComplete
  intro s a t job m j e h hj he
  refine ⟨fun p hscope hdone => ?panel, fun hscope hpending hdone => ?device, fun hruns => ?runs,
    fun via member at0 unit hunit => ?report, fun b k r hk hskein hother => ⟨fun x hx hscope hfirst => ?counts, fun x hx hnone => ?early⟩,
    fun p k x hp hstep => markFloor_opened hp hstep⟩
  case panel => rw [exec_markerComplete h, markerComplete_panel hj he hscope hdone]
  case device => rw [exec_markerComplete h, markerComplete_device hj he, decide_eq_true hscope, hpending, hdone]; rfl
  case runs => rw [exec_markerComplete h, markerComplete_device hj he, hruns, Bool.and_false]; rfl
  case report => rw [exec_markerReportReceived h, State.markReport, if_pos hunit]
  case counts =>
    rw [takeMark_open hk hskein hother hx hscope hfirst]
    exact ⟨fun hfresh => if_neg (Nat.not_lt.mpr hfresh), fun hgone => if_pos hgone⟩
  case early => exact takeMark_early hk hskein hother (hx ▸ hnone)

/-! ### The deciding of steps (03 R113 to R115; 13 R377, R388) -/

/-- Changing the job of an identifier, its name aside, changes the job that is found under it. -/
theorem job?_updJob {s : State} {id : Word} {f : Job → Job} (hf : ∀ j, (f j).id = j.id) : (s.updJob id f).job? id = (s.job? id).map f := by
  unfold State.job? State.updJob
  dsimp only
  induction s.jobs with
  | nil => rfl
  | cons j js ih =>
    by_cases hj : (j.id == id) = true
    · have hfj : ((f j).id == id) = true := by rw [hf, hj]
      rw [List.map_cons, if_pos hj, List.find?_cons, List.find?_cons, hj, hfj, Option.map_some]
    · rw [List.map_cons, if_neg hj, List.find?_cons, List.find?_cons, Bool.eq_false_iff.mpr hj, ih]

/-- The step as it is decided at a stitch. -/
def Step.decidedAs (p : Step) (v : Verdict) (now : Nat) (causes : BitVec 4) : Step :=
  { p with phase := .decided, verdict := some (v, now), pendCauses := causes }

section
variable {a : State} {job : Word} {j : Job} (hj : a.job? job = some j)
include hj

/-- A step that runs and whose verdict is not due is left. -/
theorem judge_notDue {p : Step} (hv : a.localVerdict j p = none) : a.judge job p = a := by
  simp only [State.judge, hj, hv, ite_self]

/-- Outside a skein a step that runs is decided once its verdict is due. -/
theorem judge_due {p : Step} {v : Verdict} {causes : BitVec 4} (hrun : p.phase = .running) (hlocal : j.skein = false)
    (hv : a.localVerdict j p = some (v, causes)) :
    a.judge job p = a.updJob job (fun (k : Job) => k.updStep p.number (fun (q : Step) => q.decidedAs v a.stitch causes)) := by
  have hphase : (p.phase != .running) = false := by rw [hrun]; rfl
  simp only [State.judge, hj, hphase, hv, hlocal, Bool.false_eq_true, if_false]
  rfl

/-- Outside a skein the verdict of the oldest step is its outcome. -/
theorem collectVerdicts_local {p : Step} {v : Verdict} {now : Nat} (hp : j.oldest = some p) (hlocal : j.skein = false)
    (hv : p.verdict = some (v, now)) (hreports : p.reports = []) : a.collectVerdicts job = a.conclude job v now p.pendCauses := by
  simp [State.collectVerdicts, hj, hp, hv, hlocal, hreports]

/-- The outcome of the oldest step takes effect on it. -/
theorem conclude_oldest {p : Step} (hp : j.oldest = some p) (v : Nat) (causes : BitVec 4) :
    a.conclude job .frog v causes = (if 3 ≤ p.attempt then (a.countJob j.id 2 1).abandonStep j p v causes
      else (a.countJob j.id 2 1).repeatStep j p v causes) ∧
    a.conclude job .skip v causes = a.commitStep j p true ∧ a.conclude job .pass v causes = a.commitStep j p false := by
  simp only [State.conclude, hj, hp, State.frogStep, and_self]

/-- While no cut stops launches the steps are judged, and the oldest, once decided, is concluded. -/
theorem settleOnce_judged (hcut : a.cutStops = false) {x : State}
    (hx : x = (j.committing.toList ++ j.opened.toList).foldl (fun (x : State) p => x.judge job p) a) :
    a.settleOnce job = if ((x.job? job).bind (·.oldest)).any (fun p => p.phase == .decided) then x.collectVerdicts job else x := by
  subst hx
  simp only [State.settleOnce, hcut, hj, Bool.false_eq_true, if_false]

end

/-- Changing a step of a job keeps the step's place. -/
theorem oldest_updStep (j : Job) (n : Nat) (f : Step → Step) :
    (j.updStep n f).oldest = j.oldest.map (fun p => if p.number = n then f p else p) := by
  unfold Job.oldest Job.updStep
  cases j.committing <;> rfl

/-- The oldest step is the committing or the open one. -/
theorem mem_steps_of_oldest {j : Job} {p : Step} (hp : j.oldest = some p) : p ∈ j.committing.toList ++ j.opened.toList := by
  unfold Job.oldest at hp
  cases hc : j.committing with
  | none =>
    rw [hc, Option.none_or] at hp
    simp [hp]
  | some q =>
    rw [hc, Option.some_or] at hp
    simp [hp]

/-- The job whose step has been decided. -/
theorem job?_decided {a : State} {job : Word} {j : Job} (hj : a.job? job = some j) (n : Nat) (v : Verdict) (now : Nat) (causes : BitVec 4) :
    (a.updJob job (fun (k : Job) => k.updStep n (fun (q : Step) => q.decidedAs v now causes))).job? job =
      some (j.updStep n (fun (q : Step) => q.decidedAs v now causes)) := by
  rw [job?_updJob (f := fun (k : Job) => k.updStep n (fun (q : Step) => q.decidedAs v now causes)) fun _ => rfl, hj, Option.map_some]

/-- Steps whose verdicts are not due are all left. -/
theorem foldl_judge_notDue {a : State} {job : Word} {j : Job} (hj : a.job? job = some j) {l : List Step}
    (hl : ∀ q ∈ l, a.localVerdict j q = none) : l.foldl (fun (x : State) p => x.judge job p) a = a := by
  induction l with
  | nil => rfl
  | cons q l ih =>
    obtain ⟨hq, hl⟩ := List.forall_mem_cons.mp hl
    rw [List.foldl_cons, judge_notDue hj hq, ih hl]

section
variable {a : State} {job : Word} {j : Job} {p : Step} (hj : a.job? job = some j) (hcut : a.cutStops = false)
include hj hcut

/-- The only step of a local job, once its verdict is due, is decided and concluded. -/
theorem settleOnce_only {v : Verdict} {causes : BitVec 4} (hp : j.oldest = some p) (honly : j.committing.toList ++ j.opened.toList = [p])
    (hrun : p.phase = .running) (hlocal : j.skein = false) (hv : a.localVerdict j p = some (v, causes)) (hreports : p.reports = []) :
    a.settleOnce job = State.conclude
      (a.updJob job (fun (k : Job) => k.updStep p.number (fun (q : Step) => q.decidedAs v a.stitch causes))) job v a.stitch causes := by
  rw [settleOnce_judged hj hcut rfl, honly, List.foldl_cons, List.foldl_nil, judge_due hj hrun hlocal hv]
  have hfound := job?_decided hj p.number v a.stitch causes
  have holdest : (j.updStep p.number (fun (q : Step) => q.decidedAs v a.stitch causes)).oldest = some (p.decidedAs v a.stitch causes) := by
    rw [oldest_updStep, hp, Option.map_some, if_pos rfl]
  have hlocal' : (j.updStep p.number (fun (q : Step) => q.decidedAs v a.stitch causes)).skein = false := hlocal
  have hdecided : ((p.decidedAs v a.stitch causes).phase == .decided) = true := rfl
  rw [hfound, Option.bind_some, holdest, Option.any_some, if_pos hdecided,
    collectVerdicts_local hfound holdest hlocal' (rfl : (p.decidedAs v a.stitch causes).verdict = some (v, a.stitch)) hreports]
  rfl

/-- The step behind a committing one is decided as soon as its own verdict is due. -/
theorem settleOnce_behind {q : Step} {v : Verdict} {causes : BitVec 4} (hcommit : j.committing = some p) (hopen : j.opened = some q)
    (hnumber : q.number ≠ p.number) (hrun : p.phase = .running) (hwait : a.localVerdict j p = none) (hrun' : q.phase = .running)
    (hv : a.localVerdict j q = some (v, causes)) (hlocal : j.skein = false) :
    a.settleOnce job = a.updJob job (fun (k : Job) => k.updStep q.number (fun (r : Step) => r.decidedAs v a.stitch causes)) := by
  have hsteps : j.committing.toList ++ j.opened.toList = [p, q] := by rw [hcommit, hopen]; rfl
  have hp : j.oldest = some p := by rw [Job.oldest, hcommit]; rfl
  rw [settleOnce_judged hj hcut rfl, hsteps, List.foldl_cons, List.foldl_cons, List.foldl_nil, judge_notDue hj hwait,
    judge_due hj hrun' hlocal hv]
  have holdest : (j.updStep q.number (fun (r : Step) => r.decidedAs v a.stitch causes)).oldest = some p := by
    rw [oldest_updStep, hp, Option.map_some, if_neg (Ne.symm hnumber)]
  rw [job?_decided hj q.number v a.stitch causes, Option.bind_some, holdest, Option.any_some, hrun, if_neg (by decide)]

/-- While every step runs and no verdict is due nothing is decided. -/
theorem settleOnce_notDue (hp : j.oldest = some p)
    (hwait : ∀ q ∈ j.committing.toList ++ j.opened.toList, q.phase = .running ∧ a.localVerdict j q = none) : a.settleOnce job = a := by
  obtain ⟨hrun, -⟩ := hwait p (mem_steps_of_oldest hp)
  rw [settleOnce_judged hj hcut rfl, foldl_judge_notDue hj fun q hq => (hwait q hq).2, hj, Option.bind_some, hp, Option.any_some, hrun,
    if_neg (by decide)]

end

/-- While a cut stops launches nothing is decided. -/
theorem settleOnce_cut {a : State} (job : Word) (hcut : a.cutStops = true) : a.settleOnce job = a := by
  rw [State.settleOnce, if_pos hcut]

theorem exec_stepDeadline {s a : State} {t : Stitch} (h : s.Reached t a) (job : Word) :
    exec (.stepDeadline t job) s = .next (a.settle job) := act_reached (f := (·.settle job)) h

/-- Settles O34: `settleOnce` judges each step on its own and then concludes the oldest. -/
theorem stepsDecided : Obligations.StepsDecided := by
  unfold Obligations.StepsDecided
  intro s a t job j p h hj hp
  exact ⟨exec_stepDeadline h job,
    fun v causes hcut honly hrun hlocal hv hreports => settleOnce_only hj hcut hp honly hrun hlocal hv hreports,
    fun q v causes hcut hcommit hopen hnumber hrun hwait hrun' hv hlocal =>
      settleOnce_behind hj hcut hcommit hopen hnumber hrun hwait hrun' hv hlocal,
    fun v causes => conclude_oldest hj hp v causes,
    fun hcut hwait => settleOnce_notDue hj hcut hp hwait,
    settleOnce_cut job⟩

/-! ### Verdict reports (03 R114; 10 R297; 13 R377) -/

/-- A verdict report of another member of a skein job is taken, and what it makes due is decided. -/
theorem verdictIn_other {b : State} {job : Word} {k : Job} {member : BitVec 16} (hk : b.job? job = some k) (hskein : k.skein = true)
    (hother : member ≠ b.skein.device) (step : Nat) (v : Verdict) (decided : Nat) :
    b.verdictIn member job step v decided =
      State.settle (b.updJob job (fun (k : Job) => k.takeVerdict b.stitch member step v decided)) job := by
  simp only [State.verdictIn, hk, hskein, beq_eq_false_iff_ne.mpr hother, Bool.not_true, Bool.or_false, Bool.false_eq_true, if_false]

section
variable {k : Job} {now : Nat} {member : BitVec 16} {step : Nat} {v : Verdict} {decided : Nat}

/-- A report for a step that has begun goes to that step. -/
theorem takeVerdict_begun {f : Option Step → Option Step}
    (hf : f = (fun o => o.map (fun p => if p.number = step then p.report now member v decided else p)))
    (hbegun : (k.opened.toList ++ k.committing.toList).any (·.number == step) = true) :
    k.takeVerdict now member step v decided = { k with opened := f k.opened, committing := f k.committing } := by
  subst hf
  rw [Job.takeVerdict, if_pos hbegun]

/-- For a step not yet begun a report waits, unless it is of an attempt that is gone, of a step that is over, or not the first of its member. -/
theorem takeVerdict_notBegun (hnone : (k.opened.toList ++ k.committing.toList).any (·.number == step) = false) :
    k.takeVerdict now member step v decided =
      if decide (decided < k.freshFrom) || decide (step < k.wanted) || k.verdicts.any (fun r => r.1 == member && r.2.1 == step) then k
      else { k with verdicts := k.verdicts ++ [(member, step, v, decided)] } := by
  rw [Job.takeVerdict, if_neg (Bool.eq_false_iff.mp hnone)]

/-- A report does not count after the first of its member, for an attempt that is gone, or later than 1 ms after the deadline. -/
theorem report_dropped {p : Step}
    (h : p.reports.any (·.1 == member) = true ∨ decided < p.restarted ∨ (∃ d, p.deadline = some d ∧ d + 1000000 < now)) :
    p.report now member v decided = p := by
  rw [Step.report, if_pos]
  rcases h with hfirst | hgone | ⟨d, hd, hlate⟩
  · rw [hfirst, Bool.true_or, Bool.true_or]
  · rw [decide_eq_true hgone, Bool.or_true, Bool.true_or]
  · rw [hd, Option.any_some, decide_eq_true hlate, Bool.or_true]

/-- The first report of a member in time for the attempt that runs counts. -/
theorem report_counts {p : Step} (hfirst : p.reports.any (·.1 == member) = false) (hfresh : p.restarted ≤ decided)
    (htime : ∀ d, p.deadline = some d → now ≤ d + 1000000) :
    p.report now member v decided = { p with reports := p.reports ++ [(member, v, decided)] } := by
  have hlate : p.deadline.any (fun d => decide (d + 1000000 < now)) = false := by
    cases hd : p.deadline with
    | none => rfl
    | some d => rw [Option.any_some, decide_eq_false (Nat.not_lt.mpr (htime d hd))]
  rw [Step.report, hfirst, hlate, decide_eq_false (Nat.not_lt.mpr hfresh), Bool.or_self, Bool.or_self, if_neg Bool.false_ne_true]

end

section
variable {a : State} {job : Word} {j : Job} {p : Step} {d : Nat} (hj : a.job? job = some j) (hp : j.oldest = some p)
  (hd : p.deadline = some d)
include hj hp hd

/-- A verdict missing 1 ms after the deadline makes the outcome FROG at that moment. -/
theorem verdictTimeout_missing (hskein : j.skein = true) (hdecided : p.phase = .decided) (hcut : a.cutStops = false)
    (htime : d + 1000000 ≤ a.stitch) (hown : p.verdict.isSome = true) :
    a.verdictTimeout job = (a.conclude job .frog (d + 1000000) p.pendCauses).settle job := by
  have hdue : (!j.skein || a.cutStops || decide (a.stitch < d + 1000000)) = false := by simp [hskein, hcut, htime]
  simp only [State.verdictTimeout, hj, hp, hd, hdue, hdecided, hown, Bool.false_eq_true, if_false, if_true]

/-- Before that moment nothing is missing. -/
theorem verdictTimeout_early (htime : a.stitch < d + 1000000) : a.verdictTimeout job = a := by
  simp only [State.verdictTimeout, hj, hp, hd, decide_eq_true htime, Bool.or_true, if_true]

end

/-- The joint verdict is FROG where one is, and PASS where both are. -/
theorem worse_iff (v w : Verdict) : (worse v w = .frog ↔ v = .frog ∨ w = .frog) ∧ (worse v w = .pass ↔ v = .pass ∧ w = .pass) := by
  cases v <;> cases w <;> decide

theorem exec_verdictReportReceived {s a : State} {t : Stitch} (h : s.Reached t a) (via : Arrival) (member : BitVec 16) (job : Word)
    (step : Dword) (v : Verdict) (decided : Nat) : exec (.verdictReportReceived t ⟨via, member⟩ job step v decided) s =
      .next (a.verdictReport via member job step.toNat v decided) :=
  act_reached (f := (·.verdictReport via member job step.toNat v decided)) h

theorem exec_verdictTimeout {s a : State} {t : Stitch} (h : s.Reached t a) (job : Word) :
    exec (.verdictTimeout t job) s = .next (a.verdictTimeout job) := act_reached (f := (·.verdictTimeout job)) h

/-- Settles O35: where a report goes, whether it counts there, and what the timeout finds missing. -/
theorem verdictsExchanged : Obligations.VerdictsExchanged := by
  unfold Obligations.VerdictsExchanged
  intro s a t job j h hj hskein
  refine ⟨fun via member step v decided => exec_verdictReportReceived h via member job step v decided,
    fun b k member step v decided hk hskein hother => verdictIn_other hk hskein hother step v decided,
    fun k now member step v decided f hf => ⟨takeVerdict_begun hf, fun hnone hfresh hwanted hfirst => ?waits, fun hnone hgone => ?gone⟩,
    fun p now member v decided => ⟨report_dropped, report_counts⟩,
    fun p d hp hd hdecided hcut htime hown => ?missing, fun p d hp hd htime => ?early, worse_iff⟩
  case waits =>
    rw [takeVerdict_notBegun hnone, hfirst, decide_eq_false (Nat.not_lt.mpr hfresh), decide_eq_false (Nat.not_lt.mpr hwanted)]
    rfl
  case gone => rw [takeVerdict_notBegun hnone, decide_eq_true hgone]; rfl
  case missing => rw [exec_verdictTimeout h, verdictTimeout_missing hj hp hd hskein hdecided hcut htime hown]
  case early => rw [exec_verdictTimeout h, verdictTimeout_early hj hp hd htime]

end Sys2Proof.Machine
end

section
/-! SUPPORT. Firmware and debug: a sample settles the frame times that have passed before it is taken, and the statement FirmwareAndDebug,
refuted by it. -/

namespace Sys2Proof.Machine

theorem exec_obsSample {s a : State} {t : Stitch} (h : s.Reached t a) : exec (.obsSample t) s = .next a.sweep.obsSample :=
  act_reached (f := fun x => x.sweep.obsSample) h

/-- A port that is not active takes no sample. -/
theorem obsSample_inactive {s : State} (h : s.obsActive = false) : s.obsSample = s := by
  rw [State.obsSample, if_neg (Bool.eq_false_iff.mp h)]

/-! ### Frames that links send again (10 R295, R297) -/

/-- Links that owe no frame send none again. -/
theorem foldl_resendPassed_none {s : State} {a b : Nat} {l : List Nat} (h : ∀ k ∈ l, (s.link k).resend = []) :
    l.foldl (State.resendPassed a b) s = s := by
  induction l with
  | nil => rfl
  | cons k l ih =>
    obtain ⟨hk, hl⟩ := List.forall_mem_cons.mp h
    have hsame : State.resendPassed a b s k = s := by rw [State.resendPassed, hk, List.foldl_nil]
    rw [List.foldl_cons, hsame, ih hl]

/-- Where no frame waits for a link, passed frame times only take what the links send again. -/
theorem passTimes_noneWaits {s x : State} {w : Nat × Nat} (hx : (List.range 32).foldl (State.resendPassed w.1 w.2) s = x) (hq : x.txq = []) :
    s.passTimes w = x := by
  unfold State.passTimes State.displacedQueue
  dsimp only
  simp only [hx, hq, List.filter_nil, List.append_nil, List.foldl_nil]

/-- Where no frame waits for a link but one owes a frame, and the links count the present slot, its frame times that have passed are settled. -/
theorem sweep_noneWaits {s : State} (hq : s.txq = []) (howes : s.links.all (·.resend.isEmpty) = false) (hslot : s.openSlot = slotOf s.stitch) :
    s.sweep = s.passTimes (slotOf s.stitch, s.stitch) := by
  have hskip : ¬ (s.txq.isEmpty && s.links.all (·.resend.isEmpty)) = true := by rw [howes, Bool.and_false]; exact Bool.false_ne_true
  have hin : min s.stitch (slotOf s.stitch + 2048) = s.stitch := by unfold slotOf; omega
  have hdrop : s.dropPlanned = s := by rw [State.dropPlanned, hq]; rfl
  rw [State.sweep, if_neg hskip]
  dsimp only
  rw [if_pos hslot, hdrop, hslot, hin]

/-! ### The counterexample -/

/-- A link that is up and owes a frame that its partner has asked for again. -/
def owingLink : Link :=
  { Link.reset with
    state := 2, rate := 4
    resend := [{ frame := { frameType := 1, flags := 0, seq := 0, ack := 0, dest := 0, stream := 0, offset := 0, payload := [] }
                 sentAt := 0, tries := 1, course := none, channel := 3, port := 0, slot := 0, entry := 0 }] }

/-- A module that is up at stitch 100, its counter held, without a debug token; its link 0 owes a frame, and frame times of the slot have passed
unused. -/
def owingModule : State :=
  { State.reset with stage := { State.reset.stage with good := true }, stitch := 100, links := owingLink :: State.reset.links.tail }

theorem owingModule_reached : owingModule.Reached 0 owingModule := ⟨rfl, rfl⟩

/-- What is to be settled there is the frame of link 0. -/
theorem owingModule_sweep : owingModule.sweep = State.resendPassed 0 100 owingModule 0 := by
  have hothers : ∀ k ∈ (List.range 31).map Nat.succ, ((State.resendPassed 0 100 owingModule 0).link k).resend = [] := by decide
  have hresent : (List.range 32).foldl (State.resendPassed 0 100) owingModule = State.resendPassed 0 100 owingModule 0 := by
    rw [List.range_succ_eq_map, List.foldl_cons, foldl_resendPassed_none hothers]
  rw [sweep_noneWaits rfl rfl rfl]
  exact passTimes_noneWaits hresent rfl

/-- OBS_SAMPLE takes no sample there, and yet the frame goes out again. -/
theorem owingModule_sends : owingModule.sweep.obsSample.out.length = 1 := by
  rw [owingModule_sweep, obsSample_inactive rfl]
  decide

/-- Refutes O54: a module without a debug token takes no sample, and the clause says that then nothing changes; but OBS_SAMPLE first settles the
frame times that have passed (10 R297), in which a link sends what it owes. -/
theorem not_firmwareAndDebug : ¬ Obligations.FirmwareAndDebug := by
  unfold Obligations.FirmwareAndDebug
  intro h
  obtain ⟨-, -, -, -, -, -, -, -, -, hunsampled, -⟩ := h owingModule owingModule 0 owingModule_reached
  have hsame : owingModule.sweep.obsSample = owingModule :=
    Host.Outcome.next.inj ((exec_obsSample owingModule_reached).symm.trans (hunsampled rfl))
  exact absurd (hsame ▸ owingModule_sends) (by decide)

end Sys2Proof.Machine
end

section
/-! SUPPORT. The passing of time: what booking stitches, ending waits and tracing them leave alone, what one step runs, and the statements
TimePasses and StepRunsFront, settled by them. -/

namespace Sys2Proof.Machine

/-! ### What bookings and traces leave alone (15 R417, R418, R424 to R431) -/

/-- The state without what booking stitches and tracing waits may change, and the identities of jobs and courses, which both keep. -/
def State.unbooked (s : State) : State × List Word × List Nat :=
  ({ s with freeCtr := 0, cnt := State.reset.cnt, courses := [], jobs := [], trace := State.reset.trace
            stash := { s.stash with bytesWritten := 0 }, mem := { s.mem with cells := [] } }, s.jobs.map (·.id), s.courses.map (·.id))

/-- The state `s` with the parts that `unbooked` leaves out as they are in `x`. -/
def State.bookedAs (s x : State) : State :=
  { s with freeCtr := x.freeCtr, cnt := x.cnt, courses := x.courses, jobs := x.jobs, trace := x.trace
           stash := { s.stash with bytesWritten := x.stash.bytesWritten }, mem := { s.mem with cells := x.mem.cells } }

/-- Where nothing but bookings and traces has changed, the state is the old one but for those parts. -/
theorem eq_bookedAs {s x : State} (h : x.unbooked = s.unbooked) : x = s.bookedAs x :=
  congrArg (fun y => y.1.bookedAs x) h

theorem map_id_of_map {α β : Type} (key : α → β) {f : α → α} (hf : ∀ x, key (f x) = key x) (l : List α) : (l.map f).map key = l.map key := by
  rw [List.map_map]
  exact List.map_congr_left fun x _ => hf x

@[simp] theorem free_unbooked (s : State) : s.free.2.unbooked = s.unbooked := rfl

@[simp] theorem bumpIssue_unbooked (s : State) (u : Nat) : (s.bumpIssue u).unbooked = s.unbooked := rfl

@[simp] theorem count_unbooked (s : State) (i n : Nat) : (s.count i n).unbooked = s.unbooked := rfl

@[simp] theorem countUnit_unbooked (s : State) (u i n : Nat) : (s.countUnit u i n).unbooked = s.unbooked := rfl

@[simp] theorem countPort_unbooked (s : State) (p n : Nat) : (s.countPort p n).unbooked = s.unbooked := rfl

/-- A change of a job that keeps its identifier. -/
theorem updJob_unbooked (s : State) (id : Word) {f : Job → Job} (hf : ∀ j, (f j).id = j.id) : (s.updJob id f).unbooked = s.unbooked := by
  have hids : (s.updJob id f).jobs.map (·.id) = s.jobs.map (·.id) := map_id_of_map _ (fun j => by split <;> simp [hf]) _
  unfold State.unbooked
  rw [hids]
  rfl

/-- A change of a course that keeps its number. -/
theorem updCourse_unbooked (s : State) (id : Nat) {f : Course → Course} (hf : ∀ c, (f c).id = c.id) : (s.updCourse id f).unbooked = s.unbooked := by
  have hids : (s.updCourse id f).courses.map (·.id) = s.courses.map (·.id) := map_id_of_map _ (fun c => by split <;> simp [hf]) _
  unfold State.unbooked
  rw [hids]
  rfl

@[simp] theorem countJob_unbooked (s : State) (id : Word) (i n : Nat) : (s.countJob id i n).unbooked = s.unbooked :=
  updJob_unbooked s id fun _ => rfl

@[simp] theorem setTraceRing_unbooked (s : State) (job : Option Word) (r : Option TraceRing) : (s.setTraceRing job r).unbooked = s.unbooked := by
  cases job with
  | none => rfl
  | some id => exact updJob_unbooked s id fun _ => rfl

@[simp] theorem drainSpill_unbooked (s : State) : s.drainSpill.unbooked = s.unbooked := by
  refine foldl_keeps (p := State.unbooked) (fun x j => ?_) _ _
  dsimp only
  split
  · split
    · rfl
    · exact setTraceRing_unbooked _ _ _
  · rfl

@[simp] theorem spillRecord_unbooked (s : State) (job : Option Word) (r : TraceRing) (bytes : List Byte) :
    (s.spillRecord job r bytes).unbooked = s.unbooked := by
  unfold State.spillRecord
  rw [drainSpill_unbooked, setTraceRing_unbooked]

/-- Memory whose contents alone change. -/
@[simp] theorem cells_unbooked (s : State) (cells : List Host.Cell) : State.unbooked { s with mem := { s.mem with cells := cells } } = s.unbooked := rfl

@[simp] theorem traceFull_unbooked (s : State) (job : Option Word) (r : TraceRing) (type stitch : Nat) (bytes : List Byte) :
    (s.traceFull job r type stitch bytes).unbooked = s.unbooked := by
  unfold State.traceFull
  dsimp only
  split
  · exact spillRecord_unbooked _ _ _ _
  · cases job <;> simp

@[simp] theorem traceNow_unbooked (s : State) (job : Option Word) (type unit stitch : Nat) (core : Bool) (payload : List Byte) :
    (s.traceNow job type unit stitch core payload).unbooked = s.unbooked := by
  unfold State.traceNow
  dsimp only
  split
  · rfl
  · split
    · split
      · rw [traceFull_unbooked, bumpIssue_unbooked]
      · rw [setTraceRing_unbooked, cells_unbooked, bumpIssue_unbooked]
    · rfl

@[simp] theorem traceRec_unbooked (s : State) (job : Option Word) (type unit stitch : Nat) (core : Bool) (payload : List Byte) :
    (s.traceRec job type unit stitch core payload).unbooked = s.unbooked := by
  unfold State.traceRec
  split
  · rfl
  · exact traceNow_unbooked _ _ _ _ _ _ _

@[simp] theorem traceTime_unbooked (s : State) (before after event : Nat) : (s.traceTime before after event).unbooked = s.unbooked :=
  traceRec_unbooked _ _ _ _ _ _ _

/-! ### Waits that end (15 R417, R418, R427) -/

@[simp] theorem bookTo_unbooked (s : State) (u cause n : Nat) (job : Word) : (s.bookTo u cause n job).unbooked = s.unbooked := by
  unfold State.bookTo
  dsimp only
  split
  · exact countUnit_unbooked _ _ _ _
  · rw [countJob_unbooked, countUnit_unbooked]

@[simp] theorem chargePort_unbooked (s : State) (c : Course) (port : Option Nat) (n : Nat) : (s.chargePort c port n).unbooked = s.unbooked := by
  unfold State.chargePort
  split
  · rfl
  · split
    · exact updCourse_unbooked s c.id fun _ => rfl
    · exact countPort_unbooked _ _ _

@[simp] theorem traceWait_unbooked (s : State) (c : Course) (u first last cause kind port : Nat) (object : Nat × Nat) :
    (s.traceWait c u first last cause kind port object).unbooked = s.unbooked := by
  unfold State.traceWait
  split
  · rfl
  · exact traceRec_unbooked _ _ _ _ _ _ _

@[simp] theorem endWait_unbooked (s : State) (c : Course) (e : WaitSpan) : (s.endWait c e).unbooked = s.unbooked := by
  unfold State.endWait
  dsimp only
  rw [traceWait_unbooked, chargePort_unbooked]
  split
  · rfl
  · split
    · exact updCourse_unbooked s c.id fun _ => rfl
    · exact bookTo_unbooked _ _ _ _ _

@[simp] theorem endSpans_unbooked (s : State) (bs : List Booking) : (s.endSpans bs).unbooked = s.unbooked := by
  refine foldl_keeps (p := State.unbooked) (fun x c => ?_) _ _
  dsimp only
  split
  · rfl
  · refine (updCourse_unbooked _ c.id ?_).trans (foldl_keeps (p := State.unbooked) (fun y e => endWait_unbooked y c e) _ _)
    exact fun _ => rfl

@[simp] theorem hostWait_unbooked (s : State) (e : Nat × Word × Nat) : (s.hostWait e).unbooked = s.unbooked := by
  unfold State.hostWait
  dsimp only
  rw [traceRec_unbooked, free_unbooked, free_unbooked]

@[simp] theorem endHostWaits_unbooked (s : State) (ended : Nat → Word → Bool) : (s.endHostWaits ended).unbooked = s.unbooked :=
  foldl_keeps (p := State.unbooked) hostWait_unbooked _ _

/-- Where no course waits, no wait of a course ends. -/
theorem endSpans_noWaits {s : State} (h : ∀ c ∈ s.courses, c.waitAcc = []) (bs : List Booking) : s.endSpans bs = s := by
  refine List.foldlRecOn (motive := (· = s)) s.courses _ rfl ?_
  rintro x rfl c hc
  simp [h c hc]

/-- Where no unit waits for the host, no such wait ends. -/
theorem endHostWaits_noWaits {s : State} (h : s.trace.hostAcc = []) (ended : Nat → Word → Bool) :
    (s.endHostWaits ended).mem.cells = s.mem.cells ∧ (s.endHostWaits ended).freeCtr = s.freeCtr := by
  unfold State.endHostWaits
  rw [h]
  exact ⟨rfl, rfl⟩

/-! ### Stitches that pass (04 R120; 12 R341; 13 R369; 14 R404) -/

theorem bookCourse_id (now until0 : Nat) (bs : List Booking) (c : Course) : (bookCourse now until0 bs c).id = c.id := rfl

theorem bookJob_id (s : State) (bs : List Booking) (j : Job) : (s.bookJob bs j).id = j.id := rfl

@[simp] theorem book_unbooked (s : State) (n : Nat) (bs : List Booking) : (s.book n bs).unbooked = s.unbooked := by
  have hjobs : (s.book n bs).jobs.map (·.id) = s.jobs.map (·.id) := map_id_of_map _ (bookJob_id s bs) _
  have hcourses : (s.book n bs).courses.map (·.id) = s.courses.map (·.id) := map_id_of_map _ (bookCourse_id _ _ bs) _
  unfold State.unbooked
  rw [hjobs, hcourses]
  rfl

/-- The state in which an interval of `n` stitches is booked: the waits that do not go on have ended. -/
def State.waitsEnded (s : State) (n : Nat) : State :=
  (s.endSpans (s.bookings n)).endHostWaits (fun u id => !(s.bookings n).any (fun b => b.cause == 5 && b.unit == u && b.job == some id))

@[simp] theorem waitsEnded_unbooked (s : State) (n : Nat) : (s.waitsEnded n).unbooked = s.unbooked := by
  unfold State.waitsEnded
  rw [endHostWaits_unbooked, endSpans_unbooked]

/-- The counters of the clock after `n` more stitches at the stitch `now`. -/
def Pw.elapse (p : Pw) (now n : Nat) : Pw :=
  { p with cyclesW := p.cyclesW + n * p.clockW, cyclesE := p.cyclesE + n * p.clockE
           throttle := if p.clockW < 1300 ∨ p.clockE < 1300 then satAdd 64 p.throttle n else p.throttle
           throttleAt := if p.clockW < 1300 ∨ p.clockE < 1300 then now + n else p.throttleAt }

/-- The clock counts its cycles, and its throttle stitches while a die's clock is stretched. -/
theorem pw_elapse_eq (p : Pw) (now n : Nat) :
    (if p.clockW < 1300 || p.clockE < 1300 then
       { p with cyclesW := p.cyclesW + n * p.clockW, cyclesE := p.cyclesE + n * p.clockE, throttle := satAdd 64 p.throttle n, throttleAt := now + n }
     else { p with cyclesW := p.cyclesW + n * p.clockW, cyclesE := p.cyclesE + n * p.clockE }) = p.elapse now n := by
  simp only [Pw.elapse, Bool.or_eq_true, decide_eq_true_eq]
  split <;> rfl

/-- A stack's hold count after `n` more stitches. -/
def Stack.elapse (n : Nat) (k : Stack) : Stack := if 4 ≤ k.step then { k with holdStitches := k.holdStitches + n } else k

/-- A needle works off what it owes to swatches. -/
theorem swatchLeft_sub (n : Nat) (x : Needle) :
    (if x.swatchLeft = 0 then x else { x with swatchLeft := x.swatchLeft - n }) = { x with swatchLeft := x.swatchLeft - n } := by
  split
  next hzero =>
    rw [hzero, Nat.zero_sub, ← hzero]
  next => rfl

/-- What stitches that pass are: bookings after the waits that end, and the counts of the clock, the stacks and the needles. -/
theorem elapse_eq (s : State) (n : Nat) : s.elapse n = { s.bookedAs ((s.waitsEnded n).book n (s.bookings n)) with
    stitch := s.stitch + n, pw := s.pw.elapse s.stitch n
    needles := s.needles.map (fun x => { x with swatchLeft := x.swatchLeft - n })
    mem := { s.mem with cells := (s.waitsEnded n).mem.cells, stackTab := s.mem.stackTab.map (Stack.elapse n) } } := by
  obtain ⟨y, hy⟩ : ∃ y, s.waitsEnded n = s.bookedAs y := ⟨_, eq_bookedAs (waitsEnded_unbooked s n)⟩
  unfold State.elapse
  dsimp only
  rw [← State.waitsEnded, hy, funext (swatchLeft_sub n), pw_elapse_eq]
  rfl

/-- Stitches that pass keep the open jobs and the courses. -/
theorem elapse_ids (s : State) (n : Nat) : (s.elapse n).jobs.map (·.id) = s.jobs.map (·.id) ∧ (s.elapse n).courses.map (·.id) = s.courses.map (·.id) := by
  have hbooked : ((s.waitsEnded n).book n (s.bookings n)).unbooked = s.unbooked := by rw [book_unbooked, waitsEnded_unbooked]
  rw [elapse_eq]
  exact ⟨congrArg (fun y => y.2.1) hbooked, congrArg (fun y => y.2.2) hbooked⟩

/-- Where nothing waits, stitches that pass trace nothing. -/
theorem waitsEnded_noWaits {s : State} (hhost : s.trace.hostAcc = []) (hcourses : ∀ c ∈ s.courses, c.waitAcc = []) (n : Nat) :
    (s.waitsEnded n).mem.cells = s.mem.cells ∧ (s.waitsEnded n).freeCtr = s.freeCtr := by
  unfold State.waitsEnded
  rw [endSpans_noWaits hcourses]
  exact endHostWaits_noWaits hhost _

theorem advance_later {s : State} {t : Stitch} (hcounting : s.counting = true) (hup : s.up = true) (ht : s.stitch < t) :
    s.advance t = s.elapse (t - s.stitch) := by
  simp [State.advance, hcounting, hup, ht]

/-- A counter that is held, a module that is down and a stitch already passed leave the state. -/
theorem advance_stands {s : State} {t : Stitch} (h : s.counting = false ∨ s.up = false ∨ t ≤ s.stitch) : s.advance t = s := by
  refine if_neg fun hpasses => ?_
  simp only [Bool.and_eq_true, decide_eq_true_eq] at hpasses
  obtain ⟨⟨hcounting, hup⟩, ht⟩ := hpasses
  rcases h with h | h | h
  · exact absurd (hcounting.symm.trans h) (by decide)
  · exact absurd (hup.symm.trans h) (by decide)
  · exact absurd ht (Nat.not_lt.mpr h)

/-- Settles O58: stitches that pass are bookings, traces of the waits that end, and counts of the clock, the stacks and the needles; the rest
of the state is not named by them. -/
theorem timePasses : Obligations.TimePasses := by
  unfold Obligations.TimePasses
  rintro s u t rfl
  refine ⟨fun hcounting hup ht => ?_, advance_stands⟩
  obtain ⟨hjobs, hcourses⟩ := elapse_ids s (t - s.stitch)
  rw [advance_later hcounting hup ht]
  refine ⟨?stitch, ?throttle, ?frame, ?needles, hjobs, hcourses, ?cyclesW, ?cyclesE, fun hhost hwaits => ?noWaits⟩
  case stitch => rw [elapse_eq, Nat.add_sub_of_le ht.le]
  case throttle => rw [elapse_eq]; rfl
  case frame => rw [elapse_eq]; rfl
  case needles => rw [elapse_eq]
  case cyclesW => rw [elapse_eq]; rfl
  case cyclesE => rw [elapse_eq]; rfl
  case noWaits =>
    rw [elapse_eq]
    exact waitsEnded_noWaits hhost hwaits _

/-! ### One step (04 R120; logs 1, 49) -/

/-- A step with a command waiting runs it, on the state without it. -/
theorem step_command {s : State} {i : Instr} {rest : List Instr} (h : s.pending = i :: rest) : step s = exec i { s with pending := rest } := by
  simp only [step, h]

/-- A step with no command waiting is a tick. -/
theorem step_tick {s : State} (h : s.pending = []) : step s = .next s.tick := by
  simp only [step, h]

/-- Settles O56: a step by whether a command waits. -/
theorem stepRunsFront : Obligations.StepRunsFront := by
  unfold Obligations.StepRunsFront
  refine ⟨fun s i rest => step_command, ?_⟩
  rintro s b hempty rfl
  rw [step_tick hempty, State.tick]

end Sys2Proof.Machine
end

section
/-! SUPPORT. Time across the skein, holdover and the references: the equations of their operations, case by case, and the statements TimeKept,
Holdover and References, settled by them. -/

namespace Sys2Proof.Machine

/-! ### The counter steps and slews (04 R122, R127 to R130) -/

@[simp] theorem traceTime_stitch (s : State) (before after event : Nat) : (s.traceTime before after event).stitch = s.stitch :=
  congrArg (fun y => y.1.stitch) (traceTime_unbooked s before after event)

@[simp] theorem traceTime_time (s : State) (before after event : Nat) : (s.traceTime before after event).time = s.time :=
  congrArg (fun y => y.1.time) (traceTime_unbooked s before after event)

/-- The counter steps to its value. -/
@[simp] theorem stepCounter_stitch (s : State) (v event : Nat) : (s.stepCounter v event).stitch = v := by
  unfold State.stepCounter
  exact traceTime_stitch _ _ _ _

/-- Of the time block a step of the counter changes where the last pulse stands alone. -/
@[simp] theorem stepCounter_time (s : State) (v event : Nat) :
    (s.stepCounter v event).time = { s.time with lastPulse := min s.time.lastPulse v } := by
  have hbooked : (if s.stitch < v then s.book (v - s.stitch) (s.bookings (v - s.stitch)) else s).time = s.time := by split <;> rfl
  unfold State.stepCounter
  dsimp only
  rw [traceTime_time, hbooked]

@[simp] theorem leaveHoldover_stitch (s : State) : s.leaveHoldover.stitch = s.stitch := by
  unfold State.leaveHoldover
  split <;> rfl

/-- Of the time block the end of a holdover changes its start alone. -/
@[simp] theorem leaveHoldover_time (s : State) : s.leaveHoldover.time =
    { s.time with holdoverStart := if s.time.expired = true then s.time.holdoverStart else none } := by
  unfold State.leaveHoldover
  split <;> rfl

/-- A counter that is aligned steps forward to the value at least, and nothing is left of the holdover or the election. -/
theorem align_effect (s : State) (v : Nat) : (s.align v).stitch = max s.stitch v ∧ (s.align v).time.unaligned = false ∧
    (s.align v).time.expired = false ∧ (s.align v).time.realign = false := by
  unfold State.align
  dsimp only
  split
  next => simp [Time.elected]
  next hstands =>
    simp only [Bool.or_eq_true, decide_eq_true_eq, not_or, Nat.not_lt] at hstands
    obtain ⟨-, hreached⟩ := hstands
    exact ⟨(Nat.max_eq_left hreached).symm, rfl, rfl, rfl⟩

/-- A correction stays within its limit. -/
theorem slewWithin_bounds {limit : Int} (h : 0 ≤ limit) (offset : Int) : -limit ≤ slewWithin limit offset ∧ slewWithin limit offset ≤ limit :=
  ⟨le_max_left _ _, max_le (by omega) (min_le_left _ _)⟩

/-- A counter that is disciplined does not step, and its correction is 1 ppm at most for a master that took over and 200 ppm for every other. -/
theorem discipline_effect (s : State) (offset : Int) : (s.discipline offset).stitch = s.stitch ∧
    -(if s.time.tookOver then 1000 else 200000) ≤ (s.discipline offset).time.slew ∧
    (s.discipline offset).time.slew ≤ (if s.time.tookOver then 1000 else 200000) :=
  ⟨rfl, slewWithin_bounds (by split <;> decide) offset⟩

section
variable {b : State} (v : Nat)

theorem follow_unaligned (h : b.time.unaligned = true) : b.follow v = b.align v := by
  simp only [State.follow, h, if_true]

/-- The state in which a member that is aligned follows. -/
def State.followed (b : State) : State := State.leaveHoldover { b with time := { b.time.elected with joining := false } }

@[simp] theorem followed_stitch (b : State) : b.followed.stitch = b.stitch := leaveHoldover_stitch _

@[simp] theorem followed_time (b : State) : b.followed.time = { b.time.elected with
    joining := false, holdoverStart := if b.time.expired = true then b.time.holdoverStart else none } := leaveHoldover_time _

theorem follow_joining (h : b.time.unaligned = false) (hjoining : b.time.joining = true) (hjobs : b.jobs = []) :
    b.follow v = b.followed.stepCounter v 1 := by
  simp only [State.follow, h, hjoining, hjobs, List.isEmpty_nil, Bool.and_self, Bool.false_eq_true, if_false, if_true, State.followed]

/-- A member follows without the step of one that joins. -/
theorem follow_joined (h : b.time.unaligned = false) (hjoined : b.time.joining = false ∨ b.jobs ≠ []) :
    b.follow v = if b.time.realign then b.followed.align v else b.followed.discipline b.time.offset := by
  have hjoins : (b.time.joining && b.jobs.isEmpty) = false := by
    rcases hjoined with hjoined | hjoined
    · rw [hjoined, Bool.false_and]
    · rw [List.isEmpty_eq_false_iff.mpr hjoined, Bool.and_false]
  simp only [State.follow, h, hjoins, Bool.false_eq_true, if_false, State.followed]

end

/-! ### Messages of time and of elections (04 R126 to R130; 10 R292, R303, R304) -/

section
variable {a : State} {k : Nat}

theorem delayMeasured_up (h : (a.link k).state = 2 ∨ (a.link k).state = 3) (t1 t2 t3 t4 : Nat) : a.delayMeasured k t1 t2 t3 t4 =
    State.sendControl ((a.updLink k Link.heardNext).updLink k (fun (l : Link) => { l with
      delayQ := (8 * (((t4 : Int) - t1) - ((t3 : Int) - t2))).toNat, uncInterval := 0, uncIntervalStart := a.stitch }))
        k 0x11 (a.link k).peerDevice (le 8 a.stitch) := if_pos h

theorem messageDue_iff (a : State) : a.messageDue = true ↔ ∀ at0 ∈ a.time.lastSent, at0 + 125000 ≤ a.stitch := by
  unfold State.messageDue
  cases a.time.lastSent <;> simp

theorem timeMessageSend_due (hrole : a.time.role = 1) (hdue : ∀ at0 ∈ a.time.lastSent, at0 + 125000 ≤ a.stitch) {b c : State}
    (hb : b = if a.time.unaligned || a.time.realign then a.align (a.time.greatest.getD 0) else a)
    (hc : c = { b with time := { b.time.elected with lastSent := some b.stitch } }) :
    a.timeMessageSend = c.timePorts.foldl (fun (x : State) p => x.sendControl p 0x20 0xFFFF (le 8 c.stitch)) c := by
  subst hb hc
  simp only [State.timeMessageSend, hrole, (messageDue_iff a).mpr hdue, decide_true, Bool.and_self, if_true]

theorem timeMessageSend_early {at0 : Nat} (hsent : a.time.lastSent = some at0) (hearly : a.stitch < at0 + 125000) : a.timeMessageSend = a := by
  have hnot : a.messageDue = false := by simp [State.messageDue, hsent, hearly]
  simp only [State.timeMessageSend, hnot, Bool.and_false, Bool.false_eq_true, if_false]

/-- A message on a link of another than the parent tells that the master lives. -/
theorem timeMessage_elsewhere (hparent : a.skein.parent ≠ some k) (hlink : (a.link k).state = 2) (counter : Nat) : a.timeMessage k counter =
    { a.updLink k Link.heardNext with time := { a.time with lastMaster := a.stitch } } :=
  (if_pos (bne_iff_ne.mpr hparent)).trans (if_pos hlink)

/-- The parent's message is followed and forwarded. -/
theorem timeMessage_parent (hparent : a.skein.parent = some k) (counter : Nat) {h b d : State} (hh : h = a.updLink k Link.heardNext)
    (hb : b = State.follow { h with time := { h.time with offset := (16 * (counter : Int) + (a.link k).delayQ) - 16 * a.stitch } }
      (counter + (a.link k).delayQ / 16)) (hd : d = { b with time := { b.time with lastMaster := b.stitch } }) :
    a.timeMessage k counter = (d.timePorts.filter (fun p => p != k && d.isChild p)).foldl
      (fun (x : State) p => x.sendControl p 0x20 0xFFFF (le 8 (counter + (a.link k).delayQ / 16))) d := by
  subst hh hb hd
  exact if_neg (by simp [hparent])

theorem electionMessage_seen {m : ElectionMsg} (hlink : (a.link k).state = 2) (hseen : a.skein.seen.contains (m.source, m.sequence) = true) :
    a.electionMessage k m = a.updLink k Link.heardNext := (if_neg (by simp [hlink])).trans (if_pos hseen)

theorem electionMessage_first {m : ElectionMsg} (hlink : (a.link k).state = 2) (hseen : a.skein.seen.contains (m.source, m.sequence) = false)
    {infos : List MemberInfo} {h b : State}
    (hinfos : infos = mergeInfos (mergeInfos a.skein.infos m.members) (if a.skein.member then [a.ownInfo] else []))
    (hh : h = a.updLink k Link.heardNext)
    (hb : b = State.floodElection { h with skein := { h.skein with seen := (m.source, m.sequence) :: h.skein.seen, infos := infos } } (some k) m) :
    a.electionMessage k m = match m.announce with
      | some d => b.newMaster d
      | none => if b.skein.member then b.elect infos (m.members ++ [a.ownInfo]) else b := by
  subst hinfos hh hb
  exact (if_neg (by simp [hlink])).trans (if_neg (Bool.eq_false_iff.mp hseen))

end

section
variable {s a : State} {t : Stitch} (h : s.Reached t a)
include h

theorem exec_delayMeasurement (k t1 t2 t3 t4 : Nat) : exec (.delayMeasurement t k t1 t2 t3 t4) s = .next (a.delayMeasured k t1 t2 t3 t4) :=
  act_reached (f := (·.delayMeasured k t1 t2 t3 t4)) h

theorem exec_timeMessageSend : exec (.timeMessageSend t) s = .next a.timeMessageSend := act_reached (f := State.timeMessageSend) h

theorem exec_timeMessageReceived (k counter : Nat) : exec (.timeMessageReceived t k counter) s = .next (a.timeMessage k counter) :=
  act_reached (f := (·.timeMessage k counter)) h

theorem exec_electionMessageReceived (k : Nat) (m : ElectionMsg) : exec (.electionMessageReceived t k m) s = .next (a.electionMessage k m) :=
  act_reached (f := (·.electionMessage k m)) h

end

/-- Settles O38: each message by who sent it and whether it came before, and how a counter follows by whether it is unaligned, joins or is
re-aligned. -/
theorem timeKept : Obligations.TimeKept := by
  unfold Obligations.TimeKept
  intro s a t h
  refine ⟨?delay, ?send, ?sentEarly, ?elsewhere, ?parent, fun b v => ⟨?unaligned, ?joining, ?realign, ?slews⟩, ?seen, ?first⟩
  case delay =>
    intro k t1 t2 t3 t4 hlink
    rw [exec_delayMeasurement h, delayMeasured_up hlink]
  case send =>
    intro b c hrole hdue hb hc
    rw [exec_timeMessageSend h, timeMessageSend_due hrole hdue hb hc]
  case sentEarly =>
    intro at0 hsent hearly
    rw [exec_timeMessageSend h, timeMessageSend_early hsent hearly]
  case elsewhere =>
    intro k c hparent hlink
    rw [exec_timeMessageReceived h, timeMessage_elsewhere hparent hlink]
  case parent =>
    intro k c x b d hparent hx hb hd
    rw [exec_timeMessageReceived h, timeMessage_parent hparent c hx hb hd]
  case unaligned =>
    intro hun
    obtain ⟨hstitch, haligned, hexpired, -⟩ := align_effect b v
    rw [follow_unaligned v hun]
    exact ⟨hstitch, haligned, hexpired⟩
  case joining =>
    intro hun hjoining hjobs
    simp [follow_joining v hun hjoining hjobs]
  case realign =>
    intro hun hjoined hrealign
    obtain ⟨hstitch, -, -, hrealigned⟩ := align_effect b.followed v
    rw [follow_joined v hun hjoined, if_pos hrealign]
    exact ⟨followed_stitch b ▸ hstitch, hrealigned⟩
  case slews =>
    intro hun hjoined hrealign
    have hslews := discipline_effect b.followed b.time.offset
    rw [followed_stitch, followed_time] at hslews
    rw [follow_joined v hun hjoined, if_neg (Bool.eq_false_iff.mp hrealign)]
    exact hslews
  case seen =>
    intro k m hlink hseen
    rw [exec_electionMessageReceived h, electionMessage_seen hlink hseen]
  case first =>
    intro k m infos x b hseen hlink hinfos hx hb
    exact (exec_electionMessageReceived h k m).trans (congrArg Host.Outcome.next (electionMessage_first hlink hseen hinfos hx hb))

/-! ### Holdover (04 R128 to R130) -/

section
variable {a : State}

theorem holdoverEntry_due (hmember : a.skein.member = true) (hrole : a.time.role ≠ 1) (htime : a.time.lastMaster + 3000000 ≤ a.stitch) :
    a.holdoverEntry = a.enterHoldover := by
  simp only [State.holdoverEntry, hmember, bne_iff_ne.mpr hrole, htime, decide_true, Bool.and_self, if_true]

theorem holdoverEntry_early (htime : a.stitch < a.time.lastMaster + 3000000) : a.holdoverEntry = a := by
  simp only [State.holdoverEntry, decide_eq_false (Nat.not_le.mpr htime), Bool.and_false, Bool.false_eq_true, if_false]

/-- A standby whose turn has come takes over and announces itself. -/
theorem masterTakeover_due {i : Nat} (hmember : a.skein.member = true) (hrole : a.time.role ≠ 1)
    (hstandby : a.time.standbys.findIdx? (· == a.skein.device) = some i) (htime : a.time.lastMaster + 8000000 * (i + 1) ≤ a.stitch) :
    a.masterTakeover = (a.enterHoldover.newMaster a.skein.device).sendElection (some a.skein.device) := by
  have hfirst : ¬ a.stitch < a.time.lastMaster + 8000000 := by omega
  simp only [State.masterTakeover, hmember, hrole, hfirst, hstandby, htime, Bool.not_true, decide_false, Bool.or_self, Bool.false_eq_true,
    if_false, if_true]

theorem masterTakeover_early (htime : a.stitch < a.time.lastMaster + 8000000) : a.masterTakeover = a := by
  simp only [State.masterTakeover, htime, decide_true, Bool.or_true, if_true]

theorem holdoverExpiry_due {start : Nat} (hstart : a.time.holdoverStart = some start) (htime : start + 10000000000 ≤ a.stitch)
    (hexpired : a.time.expired = false) : a.holdoverExpiry = State.traceTime (State.timingError (State.raiseTiming
      { a with time := { a.time with expired := true, unaligned := true } } 2) 2 sevRecoverable) a.stitch a.stitch 4 := by
  simp only [State.holdoverExpiry, hstart, htime, hexpired, decide_true, Bool.not_false, Bool.and_self, if_true]

theorem holdoverExpiry_early {start : Nat} (hstart : a.time.holdoverStart = some start) (htime : a.stitch < start + 10000000000) :
    a.holdoverExpiry = a := by
  simp only [State.holdoverExpiry, hstart, decide_eq_false (Nat.not_le.mpr htime), Bool.false_and, Bool.false_eq_true, if_false]

variable {s : State} {t : Stitch} (h : s.Reached t a)
include h

theorem exec_holdoverEntry : exec (.holdoverEntry t) s = .next a.holdoverEntry := act_reached (f := State.holdoverEntry) h

theorem exec_masterTakeover : exec (.masterTakeover t) s = .next a.masterTakeover := act_reached (f := State.masterTakeover) h

theorem exec_holdoverExpiry : exec (.holdoverExpiry t) s = .next a.holdoverExpiry := act_reached (f := State.holdoverExpiry) h

end

/-- Settles O39: each of the three by whether its time has come. -/
theorem holdover : Obligations.Holdover := by
  unfold Obligations.Holdover
  intro s a t h
  refine ⟨?entry, ?entryEarly, ?takeover, ?announces, ?takeoverEarly, ?expiry, ?expiryEarly⟩
  case entry =>
    intro hmember hrole htime
    rw [exec_holdoverEntry h, holdoverEntry_due hmember hrole htime]
  case entryEarly =>
    intro htime
    rw [exec_holdoverEntry h, holdoverEntry_early htime]
  case takeover =>
    intro i hmember hrole hstandby htime
    rw [exec_masterTakeover h, masterTakeover_due hmember hrole hstandby htime]
  case announces =>
    rintro b d m rfl
    rfl
  case takeoverEarly =>
    intro htime
    rw [exec_masterTakeover h, masterTakeover_early htime]
  case expiry =>
    intro start hstart htime hexpired
    rw [exec_holdoverExpiry h, holdoverExpiry_due hstart htime hexpired]
  case expiryEarly =>
    intro start hstart htime
    rw [exec_holdoverExpiry h, holdoverExpiry_early hstart htime]

/-! ### References and pulses (04 R122 to R124, R129; 16 R447 to R451) -/

/-- The good edges in a row, counting one at the present stitch after one at `p`. -/
def State.goodEdges (a : State) (p : Nat) : Nat :=
  if 999999900 ≤ a.stitch - p ∧ a.stitch - p ≤ 1000000100 then a.time.ppsGood + 1 else 1

/-- The state in which an edge of PPS_IN is counted. -/
def State.edgeCounted (a : State) (good : Nat) : State := { a with time := { a.time with lastPps := some a.stitch, ppsGood := good } }

section
variable {a : State} {p held : Nat} (hlast : a.time.lastPps = some p)
include hlast

theorem ppsInEdge_counts (h : a.goodEdges p < 4 ∨ held < 1000000000) : a.ppsInEdge held = a.edgeCounted (a.goodEdges p) := by
  have hnot : ¬ (4 ≤ a.goodEdges p ∧ 1000000000 ≤ held) := by omega
  unfold State.ppsInEdge
  rw [hlast]
  exact if_neg hnot

/-- The edge after which the reference is valid. -/
theorem ppsInEdge_valid (hgood : 4 ≤ a.goodEdges p) (hheld : 1000000000 ≤ held) {b : State}
    (hb : b = { a.edgeCounted (a.goodEdges p) with time := { (a.edgeCounted (a.goodEdges p)).time with refValid := true } }) :
    a.ppsInEdge held = if a.cfg.castTimeSource = 0 then
        let c := b.locked (if a.time.firstLock then (a.stitch + 500000000) / 1000000000 * 1000000000 else a.stitch / 1000000000 * 1000000000)
        { c with time := { c.time with lastPps := some c.stitch } }
      else b := by
  subst hb
  unfold State.ppsInEdge
  rw [hlast]
  exact if_pos ⟨hgood, hheld⟩

theorem refLoss_pps (h : p + 3000000000 ≤ a.stitch) : a.refLoss .pps = a.unlock := by
  simp only [State.refLoss, hlast, h, if_true]

theorem refLoss_ppsEarly (h : a.stitch < p + 3000000000) : a.refLoss .pps = a := by
  simp only [State.refLoss, hlast, Nat.not_le.mpr h, if_false]

end

section
variable {b : State} (v : Nat)

theorem ownTime_iff (tm : Time) : tm.ownTime = true ↔ tm.role = 1 ∨ tm.role = 3 := by simp [Time.ownTime]

/-- The first lock of a module that keeps its own time, with no job open, steps the counter. -/
theorem locked_steps (hown : b.time.role = 1 ∨ b.time.role = 3) (hfirst : b.time.firstLock = false) (hjobs : b.jobs = []) :
    b.locked v = State.stepCounter { b with time := { b.time with firstLock := true } } v 1 := by
  simp [State.locked, (ownTime_iff _).mpr hown, hfirst, hjobs]

/-- Every other lock leaves the counter, and is a correction at most. -/
theorem locked_stands (h : b.time.firstLock = true ∨ b.jobs ≠ [] ∨ (b.time.role ≠ 1 ∧ b.time.role ≠ 3)) :
    b.locked v = { b with time := { b.time with firstLock := true } } ∨
      b.locked v = State.discipline { b with time := { b.time with firstLock := true } } (16 * ((v : Int) - b.stitch)) := by
  by_cases hown : b.time.ownTime = true
  · have hsteps : (!b.time.firstLock && b.jobs.isEmpty) = false := by
      rcases h with h | h | ⟨h, h'⟩
      · rw [h, Bool.not_true, Bool.false_and]
      · rw [List.isEmpty_eq_false_iff.mpr h, Bool.and_false]
      · rcases (ownTime_iff _).mp hown with hrole | hrole
        · exact absurd hrole h
        · exact absurd hrole h'
    exact .inr (by simp [State.locked, hown, hsteps])
  · exact .inl (by simp [State.locked, hown])

/-- A reference that locks has locked once. -/
theorem locked_firstLock (b : State) : (b.locked v).time.firstLock = true := by
  unfold State.locked
  dsimp only
  split
  · rfl
  · split
    · rw [stepCounter_time]
    · rfl

end

section
variable {a : State}

theorem ppsOutPulse_due (henable : a.time.outputControl.getLsbD 0 = true) (hsecond : a.time.lastPulse / 1000000000 < a.stitch / 1000000000) :
    a.ppsOutPulse = State.emit { a with time := { a.time with lastPulse := a.stitch } } (.ppsOut (a.stitch / 1000000000 * 1000000000)) := by
  simp only [State.ppsOutPulse, henable, hsecond, decide_true, Bool.and_self, if_true]

variable {s : State} {t : Stitch} (h : s.Reached t a)
include h

theorem exec_ppsInEdge (held : Nat) : exec (.ppsInEdge ⟨t, held⟩) s = .next (a.ppsInEdge held) := act_reached (f := (·.ppsInEdge held)) h

theorem exec_refLossTimeout (what : RefLoss) : exec (.refLossTimeout t what) s = .next (a.refLoss what) := act_reached (f := (·.refLoss what)) h

theorem exec_ppsOutPulse : exec (.ppsOutPulse t) s = .next a.ppsOutPulse := act_reached (f := State.ppsOutPulse) h

theorem exec_ptpMessage (m : Nat) : exec (.ptpMessage t m) s = .next (a.ptpMessage m) := act_reached (f := (·.ptpMessage m)) h

theorem exec_cycDetChange (c : Bool) : exec (.cycDetChange t c) s = .next (a.cycDetChange c) := act_reached (f := (·.cycDetChange c)) h

end

/-- Settles O40: an edge by whether it makes the reference valid, a lock by whether it steps the counter, and the other forms by whether their
time has come. -/
theorem references : Obligations.References := by
  unfold Obligations.References
  intro s a t h
  refine ⟨?edge, ?lockingEdge, fun b v => ⟨locked_firstLock v b, ?steps, ?stands⟩, ?loss, ?lossEarly, exec_refLossTimeout h .refIn, ?pulse, ?ptp,
    ?ptpElsewhere, exec_cycDetChange h⟩
  case edge =>
    rintro p good held hlast rfl
    rw [exec_ppsInEdge h]
    refine ⟨fun hnot => ?_, fun hgood hheld hsource => ?_⟩
    · rw [ppsInEdge_counts hlast hnot]
      rfl
    · rw [ppsInEdge_valid hlast hgood hheld rfl, if_neg hsource]
      rfl
  case lockingEdge =>
    rintro p v held b hlast hlow hhigh hthree hsource hheld rfl rfl
    have hedges : a.goodEdges p = a.time.ppsGood + 1 := if_pos ⟨hlow, hhigh⟩
    rw [exec_ppsInEdge h, ppsInEdge_valid hlast (by omega) hheld rfl, if_pos hsource, hedges]
    rfl
  case steps =>
    intro hown hfirst hjobs
    rw [locked_steps v hown hfirst hjobs, stepCounter_stitch]
  case stands =>
    intro hother
    rcases locked_stands v hother with hlocked | hlocked
    · rw [hlocked]
    · rw [hlocked, State.discipline]
  case loss =>
    intro p hlast htime
    rw [exec_refLossTimeout h, refLoss_pps hlast htime, State.unlock]
  case lossEarly =>
    intro p hlast htime
    rw [exec_refLossTimeout h, refLoss_ppsEarly hlast htime]
  case pulse =>
    intro henable hsecond
    rw [exec_ppsOutPulse h, ppsOutPulse_due henable hsecond]
  case ptp =>
    intro m hsource
    rw [exec_ptpMessage h, State.ptpMessage, if_pos hsource]
  case ptpElsewhere =>
    intro m hsource
    rw [exec_ptpMessage h, State.ptpMessage, if_neg hsource]

end Sys2Proof.Machine
end

section
/-! SUPPORT. The gauge: the equations of its edges, counts, records, pulses and set-up, case by case, and the statement GaugeMeasures, settled by
them. -/

namespace Sys2Proof.Machine

/-! ### Edges (04 R125, R137; 16 R448) -/

theorem cycInDelay_bounds : 230 ≤ cycInDelay ∧ cycInDelay ≤ 270 := by
  have hpath : Config.cycInPath % 41 < 41 := Nat.mod_lt _ (by decide)
  unfold cycInDelay
  omega

section
variable {a : State} {falling : Bool} {hold : Nat}

/-- The first edge of an interval shorter than 1 µs is ignored. -/
theorem cycInEdge_short (hhold : hold < 1000) (hbounce : a.gauge.bounce ≠ some falling) :
    a.cycInEdge falling hold = { a with gauge := { a.gauge with bounce := some (!falling) } } :=
  (if_neg hbounce).trans (if_pos hhold)

/-- And so is the edge that ends it. -/
theorem cycInEdge_shortEnd (hbounce : a.gauge.bounce = some falling) :
    a.cycInEdge falling hold = { a with gauge := { a.gauge with bounce := none } } := if_pos hbounce

/-- A state without a short interval is not changed by its end. -/
theorem withoutBounce_eq (hbounce : a.gauge.bounce = none) : { a with gauge := { a.gauge with bounce := none } } = a := by rw [← hbounce]

/-- An edge of the other sense changes nothing. -/
theorem cycInEdge_otherSense (hbounce : a.gauge.bounce = none) (hhold : 1000 ≤ hold) : a.cycInEdge (!gaugeFalling a.gauge.control) hold = a := by
  simp [State.cycInEdge, hbounce, Nat.not_lt.mpr hhold, withoutBounce_eq hbounce]

/-- An edge of the selected sense is stamped and taken. -/
theorem cycInEdge_taken (hsource : gaugeSource a.gauge.control ≠ 0) (hmode : gaugeMode a.gauge.control ≠ 0) (hpin : a.gauge.cycDet = true)
    (hbounce : a.gauge.bounce = none) (hhold : 1000 ≤ hold) : a.cycInEdge (gaugeFalling a.gauge.control) hold =
      a.takeEdge (((a.stitch + cycInDelay : Nat) : Int) - signed 32 a.gauge.delay.toNat) := by
  unfold State.cycInEdge
  dsimp only
  rw [withoutBounce_eq hbounce]
  simp [hbounce, Nat.not_lt.mpr hhold, hsource, hmode, hpin]

variable {stamp e : Int}

theorem takeEdge_first (hlast : a.gauge.lastEdge = none) :
    a.takeEdge stamp = { a with gauge := { a.gauge.edgeQuad stamp.toNat with lastEdge := some stamp } } := by
  simp only [State.takeEdge, hlast]

theorem takeEdge_glitch (hlast : a.gauge.lastEdge = some e) (hglitch : a.gauge.glitch (stamp - e) = true) (hstate : a.gauge.state = 2) :
    a.takeEdge stamp = a := by
  simp [State.takeEdge, hlast, hglitch, hstate]

/-- An edge that is no glitch enters the intervals while acquiring, and else numbers a cycle. -/
theorem takeEdge_real (hlast : a.gauge.lastEdge = some e) (hglitch : a.gauge.glitch (stamp - e) = false) : a.takeEdge stamp =
    if a.gauge.state = 1 then a.acquiringEdge stamp.toNat (acceptedPeriod (gaugeMode a.gauge.control) (stamp - e)) (stamp - e).toNat
    else a.numberedEdge stamp.toNat (acceptedPeriod (gaugeMode a.gauge.control) (stamp - e)) (stamp - e).toNat := by
  simp only [State.takeEdge, hlast, hglitch, Bool.false_eq_true, if_false]

end

/-! ### Counts and coasted records (04 R137, R138; logs 105, 106) -/

section
variable {a : State}

theorem quadCounted_on (hquad : gaugeQuad a.gauge.control = true) (hsource : gaugeSource a.gauge.control ≠ 0) {n unit high reached : Int}
    {most : Nat → Nat} (hreached : reached = (a.stitch : Int) - signed 32 a.gauge.delay.toNat)
    (hunit : unit = (gaugeCounts a.gauge.control / 16 : Nat)) (hhigh : high = max a.gauge.quadHigh (a.gauge.quadCount + n))
    (hmost : most = fun n => if a.gauge.state = 3 then n else min 15 n) :
    a.quadCounted n = State.subRecords { a with gauge := { a.gauge with quadCount := a.gauge.quadCount + n, quadHigh := high } } reached.toNat
      (most (high / unit).toNat - most (a.gauge.quadHigh / unit).toNat) (most (a.gauge.quadHigh / unit).toNat + 1) := by
  subst hreached hunit hhigh hmost
  exact if_neg (by simp [hquad, hsource])

/-- A record that is due after 1.5 periods without an edge is coasted. -/
theorem gaugeCoasted_due {e due : Int} (hlast : a.gauge.lastEdge = some e) (hstate : a.gauge.state = 2 ∨ a.gauge.state = 3 ∨ a.gauge.state = 5)
    (hperiod : a.gauge.periodQ ≠ 0) (hcoasted : a.gauge.coasted < 63) (hk : due = e + (((a.gauge.coasted + 1) * a.gauge.periodQ / 65536 : Nat) : Int))
    (hdue : due ≤ a.stitch) (hlate : 3 * a.gauge.periodQ < ((a.stitch : Int) - e) * 131072) : a.gaugeCoasted =
      State.edgeRecord (State.setGaugeState { a with gauge := { a.gauge with coasted := a.gauge.coasted + 1, cycle := a.gauge.cycle + 1 } } 3)
        due.toNat 2 := by
  subst hk
  have hnumbers : (!(a.gauge.state == 2 || a.gauge.state == 3 || a.gauge.state == 5)) = false := by
    rcases hstate with h | h | h <;> rw [h] <;> rfl
  have hnot : ¬ ((a.stitch : Int) < e + (((a.gauge.coasted + 1) * a.gauge.periodQ / 65536 : Nat) : Int) ∨
      ((a.stitch : Int) - e) * 131072 ≤ 3 * a.gauge.periodQ) := by omega
  have hkept : a.gauge.coasted + 1 ≠ 64 := by omega
  simp only [State.gaugeCoasted, hlast, hnumbers, hperiod, hnot, hkept, decide_false, Bool.or_self, Bool.false_eq_true, if_false]

end

/-! ### Records received (04 R139, R141, R144; 10 R304) -/

section
variable {a : State} {k : Nat} {r : GaugeRec}

theorem gaugeReceived_down (hlink : (a.link k).state ≠ 2) : a.gaugeReceived k r = a := if_pos (bne_iff_ne.mpr hlink)

theorem gaugeReceived_seen (hlink : (a.link k).state = 2) (hseen : a.skein.gaugeSeen.contains (r.source, r.sequence) = true) :
    a.gaugeReceived k r = a.updLink k Link.heardNext := (if_neg (by simp [hlink])).trans (if_pos hseen)

theorem keep_control (g : Gauge) (r : GaugeRec) : (g.keep r).control = g.control := by
  unfold Gauge.keep
  split
  · split <;> rfl
  · rfl

/-- The first copy where no active source can clash. -/
theorem gaugeReceived_first (hlink : (a.link k).state = 2) (hseen : a.skein.gaugeSeen.contains (r.source, r.sequence) = false)
    (hsource : gaugeSource a.gauge.control ≠ 1) : a.gaugeReceived k r = State.flood (State.bindAll { a.updLink k Link.heardNext with
      gauge := a.gauge.keep r, skein := { a.skein with gaugeSeen := (r.source, r.sequence) :: a.skein.gaugeSeen } }) 0x21 (some k) (gaugeBytes r) := by
  have hclash : (gaugeSource (a.gauge.keep r).control == 1) = false := by rw [keep_control, beq_eq_false_iff_ne.mpr hsource]
  have hlinkUp : ((a.link k).state != 2) = false := by simp [hlink]
  simp only [State.gaugeReceived, hlinkUp, hseen, hclash, Bool.false_and, Bool.or_false, Bool.not_false, Bool.and_true, Bool.false_eq_true, if_false]
  rfl

/-- What is kept of a record: it is the latest, the kept ones stay 64 at most, and one below the latest restarts them. -/
theorem keep_effect (g : Gauge) (r : GaugeRec) : (g.keep r).records.head? = some r ∧ (g.records.length ≤ 64 → (g.keep r).records.length ≤ 64) ∧
    ∀ l, g.latest = some l → r.value.toNat < l.value.toNat → g.keep r = { g with records := [r], readout := 0, lastPulse := none } := by
  unfold Gauge.keep
  cases hlatest : g.latest with
  | none => simp
  | some l =>
    by_cases hbelow : r.value.toNat < l.value.toNat
    · simp [hbelow]
    · simp only [hbelow, if_false]
      refine ⟨rfl, fun _ => List.length_take_le _ _, ?_⟩
      rintro _ ⟨⟩ h
      exact absurd h hbelow

end

/-! ### CYC_OUT (04 R124) -/

section
variable {a : State}

theorem cycOutPulse_due {c : Nat} (hlive : a.cycOutLive = true) (hlast : a.gauge.lastPulse = some c) (h : c < a.gauge.readAt a.stitch / 2 ^ 32) :
    a.cycOutPulse = State.emit { a with gauge := { a.gauge with lastPulse := some (a.gauge.readAt a.stitch / 2 ^ 32) } } (.cycOut a.stitch) := by
  simp only [State.cycOutPulse, hlive, hlast, h, decide_true, Bool.and_self, if_true]

theorem cycOutPulse_same {c : Nat} (hlast : a.gauge.lastPulse = some c) (h : a.gauge.readAt a.stitch / 2 ^ 32 ≤ c) : a.cycOutPulse = a := by
  simp only [State.cycOutPulse, hlast, decide_eq_false (Nat.not_lt.mpr h), Bool.and_false, Bool.false_eq_true, if_false]

variable {s : State} {t : Stitch} (h : s.Reached t a)
include h

theorem exec_cycInEdge (falling : Bool) (hold : Nat) : exec (.cycInEdge t ⟨falling, hold⟩) s = .next (a.cycInEdge falling hold) :=
  act_reached (f := (·.cycInEdge falling hold)) h

theorem exec_quadCount (n : Int) : exec (.quadCount t n) s = .next (a.quadCounted n) := act_reached (f := (·.quadCounted n)) h

theorem exec_gaugeCoastedRecord : exec (.gaugeCoastedRecord t) s = .next a.gaugeCoasted := act_reached (f := State.gaugeCoasted) h

theorem exec_gaugeRecordReceived (k : Nat) (r : GaugeRec) : exec (.gaugeRecordReceived t k r) s = .next (a.gaugeReceived k r) :=
  act_reached (f := (·.gaugeReceived k r)) h

theorem exec_cycOutPulse : exec (.cycOutPulse t) s = .next a.cycOutPulse := act_reached (f := State.cycOutPulse) h

end

/-- Settles O41: an edge by its interval and by the state of the gauge, and the other forms by what they find. -/
theorem gaugeMeasures : Obligations.GaugeMeasures := by
  unfold Obligations.GaugeMeasures
  rintro s a t g stamp h rfl rfl
  refine ⟨cycInDelay_bounds, ?short, ?shortEnd, fun hold hsource hmode hpin hbounce hhold => ?edge, ?quad, ?coasted, ?seen, ?down, ?first,
    keep_effect _, ?pulse, ?samePulse, ?delay, ?control⟩
  case short =>
    intro hold f hhold hbounce
    rw [exec_cycInEdge h, cycInEdge_short hhold hbounce]
  case shortEnd =>
    intro hold f hbounce
    rw [exec_cycInEdge h, cycInEdge_shortEnd hbounce]
  case edge =>
    have htaken := (exec_cycInEdge h _ hold).trans (congrArg _ (cycInEdge_taken hsource hmode hpin hbounce hhold))
    rw [htaken]
    refine ⟨?begins, ?glitch, ?acquires, ?numbers, ?other⟩
    case begins =>
      intro hlast
      rw [takeEdge_first hlast]
    case glitch =>
      intro e hlast hglitch hstate
      rw [takeEdge_glitch hlast hglitch hstate]
    case acquires =>
      intro e hlast hglitch hstate
      rw [takeEdge_real hlast hglitch, if_pos hstate]
    case numbers =>
      intro e hlast hglitch hstate
      rw [takeEdge_real hlast hglitch, if_neg hstate]
    case other => rw [exec_cycInEdge h, cycInEdge_otherSense hbounce hhold]
  case quad =>
    intro n unit high reached hreached hquad hsource hunit hhigh most hmost
    rw [exec_quadCount h, quadCounted_on hquad hsource hreached hunit hhigh hmost]
  case coasted =>
    intro e due hlast hstate hperiod hcoasted hk hdue hlate
    rw [exec_gaugeCoastedRecord h, gaugeCoasted_due hlast hstate hperiod hcoasted hk hdue hlate]
  case seen =>
    intro k r hlink hseen
    rw [exec_gaugeRecordReceived h, gaugeReceived_seen hlink hseen]
  case down =>
    intro k r hlink
    rw [exec_gaugeRecordReceived h, gaugeReceived_down hlink]
  case first =>
    intro k r hlink hseen hsource
    rw [exec_gaugeRecordReceived h, gaugeReceived_first hlink hseen hsource]
  case pulse =>
    intro c hlive hlast hcycle
    rw [exec_cycOutPulse h, cycOutPulse_due hlive hlast hcycle]
  case samePulse =>
    intro c hlast hcycle
    rw [exec_cycOutPulse h, cycOutPulse_same hlast hcycle]
  case delay =>
    intro w hjobs
    rw [exec_timeGaugeDelayWrite h, gaugeDelayWrite_noJob hjobs]
  case control =>
    intro w _ htaken
    rw [exec_timeGaugeControlWrite h, gaugeControlWrite_taken htaken]

end Sys2Proof.Machine
end

section
/-! SUPPORT. The job scale state at a step's outcome: what appending makes of one history, the gradient scale and the counts of a commit by its
clean steps, and the statement ScaleKept, settled by them. -/

namespace Sys2Proof.Machine

/-! ### The histories (08 R236) -/

section
variable {x : Scale} {ms : List (Word × Word)} {i : Nat} {h : Hist}

/-- A tensor without an attempt maximum keeps its history. -/
theorem append_hist_missing (step : Nat) (activationOnly : Bool) (hi : x.hists[i]? = some h) (hm : ms.lookup h.tensorId = none) :
    (x.append ms step activationOnly).hists[i]? = some h := by
  simp only [Scale.append, List.getElem?_map, hi, Option.map_some, hm]

/-- A history takes its tensor's maximum, unless only activations take maxima and it is of another kind. -/
theorem append_hist_found {m : Word} (step : Nat) (activationOnly : Bool) (hi : x.hists[i]? = some h) (hm : ms.lookup h.tensorId = some m) :
    (x.append ms step activationOnly).hists[i]? = some (if activationOnly && h.kind != 3 then h else h.append m step) := by
  simp only [Scale.append, List.getElem?_map, hi, Option.map_some, hm]

/-- Where only activations take maxima, a history of kind 3 takes its tensor's and any other stays. -/
theorem append_hist_activations {m : Word} (step : Nat) (hi : x.hists[i]? = some h) (hm : ms.lookup h.tensorId = some m) :
    (x.append ms step true).hists[i]? = some (if h.kind = 3 then h.append m step else h) := by
  rw [append_hist_found step true hi hm]
  by_cases hk : h.kind = 3 <;> simp [hk]

end

theorem commit_hists (x : Scale) (ms : List (Word × Word)) (step : Nat) : (x.commit ms step).hists = (x.append ms step false).hists := rfl

theorem skip_hists (x : Scale) (ms : List (Word × Word)) (step : Nat) : (x.skip ms step).hists = (x.append ms step true).hists := rfl

/-! ### The gradient scale and the clean steps of a commit (08 R230) -/

section
variable {x : Scale} (ms : List (Word × Word)) (step : Nat)

/-- Before its thousandth clean step a commit only counts. -/
theorem commit_counts (hc : x.clean + 1 < 1000) : (x.commit ms step).clean = x.clean + 1 ∧ (x.commit ms step).g = x.g := by
  have hfull : ¬ 1000 ≤ x.clean + 1 := Nat.not_le.mpr hc
  simp [Scale.commit, hfull]

/-- The thousandth clean step doubles a scale below 1 and starts the count again. -/
theorem commit_doubles (hc : 1000 ≤ x.clean + 1) :
    (x.commit ms step).clean = 0 ∧ (x.commit ms step).g = if x.g < 0 then x.g + 1 else x.g := by
  simp [Scale.commit, hc]

end

theorem outcome_scale (j : Job) (p : Step) (skip : Bool) :
    (j.outcome p skip).scale = if skip then j.scale.skip p.maxima p.number else j.scale.commit p.maxima p.number := rfl

/-- Settles O53: each history by whether its tensor has a maximum, and the count of a commit by whether it is full. -/
theorem scaleKept : Obligations.ScaleKept := by
  unfold Obligations.ScaleKept
  refine ⟨fun j p => ⟨outcome_scale j p false, outcome_scale j p true⟩, fun x ms step i h hi =>
    ⟨?commit, ?skip, rfl, rfl, rfl, rfl, commit_counts ms step, commit_doubles ms step⟩⟩
  case commit =>
    rw [commit_hists]
    cases hm : ms.lookup h.tensorId with
    | none => exact append_hist_missing step false hi hm
    | some m => exact append_hist_found step false hi hm
  case skip =>
    rw [skip_hists]
    cases hm : ms.lookup h.tensorId with
    | none => exact append_hist_missing step true hi hm
    | some m => exact append_hist_activations step hi hm

end Sys2Proof.Machine
end

section
/-! SUPPORT. Structures and the cable engines: the equations of STRUCTURE_LOAD and DELTA_UPDATE where the checks pass, and of the starts, cut-offs,
deadlines, ends and losses of engines, case by case, and the statements StructuresKept and EnginesRun, settled by them. -/

namespace Sys2Proof.Machine

/-- Checks in order of which none holds find no failure (00 R459). -/
theorem inOrder_none {checks : List (Bool × Nat)} (h : ∀ c ∈ checks, c.1 = false) : inOrder checks = none := by
  have hnone : checks.find? (·.1) = none := List.find?_eq_none.mpr fun c hc => by rw [h c hc]; exact Bool.false_ne_true
  rw [inOrder, hnone, Option.map_none]

/-! ### STRUCTURE_LOAD (09 R255 to R259) -/

section
variable {b : State} {c : Cmd} {j : Job} (hj : b.openJob? c.tag.jobId = some j) (hl : c.badLayout = false) (hr : c.zero 41 3 = true)
  (hz : c.zero 49 15 = true)
include hj hl hr hz

/-- A STRUCTURE_LOAD of action 0 loads. -/
theorem structureLoad_in (ha : c.op 40 1 = 0) (hh : c.op 44 4 = 0) (hm : c.op 48 1 = 0) : b.structureLoad c = b.structureIn c j := by
  simp [State.structureLoad, hj, hl, hr, hz, ha, hh, hm]

/-- A STRUCTURE_LOAD of action 1 releases. -/
theorem structureLoad_out (ha : c.op 40 1 = 1) (hm : c.op 48 1 = 0) : b.structureLoad c = b.structureChange c j true (c.op 44 4) 0 := by
  simp [State.structureLoad, hj, hl, hr, hz, ha, hm]

/-- A STRUCTURE_LOAD of action 2 moves. -/
theorem structureLoad_move (ha : c.op 40 1 = 2) : b.structureLoad c = b.structureChange c j false (c.op 44 4) (c.op 48 1) := by
  simp [State.structureLoad, hj, hl, hr, hz, ha]

end

section
variable {b : State} {c : Cmd} {j : Job}

/-- A checked image is kept under the next handle, and its report answers. -/
theorem structureIn_sound (hp : c.badPayload 64 = false) (himage : b.structFailure j c.data c.payloadLen = none) :
    b.structureIn c j = State.reportStructure (b.updJob j.id (fun (k : Job) =>
      { k with structures := k.structures ++ [structOf c.data j.nextStructure], nextStructure := k.nextStructure + 1 })) c
        (structOf c.data j.nextStructure) := by
  simp only [State.structureIn, hp, himage, Bool.false_eq_true, if_false]

variable {x : Structure} {h : Nat} (hx : j.structures.find? (·.handle == h) = some x) (hidle : b.structureBusy j x = false)
include hx hidle

/-- A structure that nothing uses is released. -/
theorem structureChange_release (mask : Nat) : b.structureChange c j true h mask = State.finish (State.serveDeferred (b.updJob j.id
    (fun (k : Job) => { k with structures := k.structures.filter (·.handle != h) }))) c.tag [0] 0 := by
  simp only [State.structureChange, hx, hidle, Bool.not_true, Bool.false_and, Bool.or_self, Bool.false_eq_true, if_false, if_true]

/-- A structure that nothing uses moves to engines that are all usable. -/
theorem structureChange_move {mask : Nat} (hmask : mask ≠ 0) (hup : b.engineOut mask = false) :
    b.structureChange c j false h mask = State.reportStructure (b.updJob j.id (fun (k : Job) => { k with
      structures := k.structures.map (fun z => if z.handle = h then Structure.settled { x with mask := BitVec.ofNat 8 mask } else z) }))
        c (Structure.settled { x with mask := BitVec.ofNat 8 mask }) := by
  simp only [State.structureChange, hx, hidle, hup, beq_eq_false_iff_ne.mpr hmask, Bool.and_false, Bool.or_self, Bool.false_eq_true, if_false]

end

/-! ### DELTA_UPDATE (09 R263) -/

/-- A sound DELTA_UPDATE of a structure that no step keeps is taken. -/
theorem deltaUpdate_sound {b : State} {c : Cmd} {j : Job} {x : Structure} (hj : b.openJob? c.tag.jobId = some j) (hl : c.badLayout = false)
    (hz : c.zero 40 24 = true) (hp : c.badPayload 16 = false) (hx : j.structures.find? (·.handle == field c.data 4 4) = some x)
    (hgood : badDelta c.data c.payloadLen x = false) (hcrc : crc32c (c.data.drop 16) = field c.data 12 4)
    (hfree : (x.stepWritten && (j.opened.isSome || j.committing.isSome)) = false) : b.deltaUpdate c = b.takeDelta c j x := by
  have hchecks : ∀ refuses : Bool, inOrder [(badDelta c.data c.payloadLen x, stBadField),
      (crc32c (c.data.drop 16) != field c.data 12 4, stBlockCheckFail),
      (x.stepWritten && refuses && (j.opened.isSome || j.committing.isSome), stBadField),
      (x.stepWritten && (j.opened.isSome || j.committing.isSome), stNoResource)] = none := by
    intro refuses
    have hheld : (x.stepWritten && refuses && (j.opened.isSome || j.committing.isSome)) = false := by
      rw [Bool.and_right_comm, hfree, Bool.false_and]
    exact inOrder_none (by rw [hgood, hcrc, hheld, hfree]; simp)
  simp only [State.deltaUpdate, hj, hl, hz, hp, hx, hchecks, Bool.not_true, Bool.or_self, Bool.false_eq_true, if_false]

section
variable {s : State} {t : Stitch} {src : Src} {io : HostIo} {f : Fetched}

theorem exec_structureLoad (h : (s.advance t).hookTakes src 0x0040 f) :
    exec (.structureLoad t src io) s = .next ((s.popped t src).structureLoad (s.given t src io f)) := host_takes h

theorem exec_deltaUpdate (h : (s.advance t).hookTakes src 0x0041 f) :
    exec (.deltaUpdate t src io) s = .next ((s.popped t src).deltaUpdate (s.given t src io f)) := host_takes h

end

/-- Settles O11: each action by its operation, whose checks pass. -/
theorem structuresKept : Obligations.StructuresKept := by
  unfold Obligations.StructuresKept
  rintro s b t src io f c j rfl rfl hj hl
  refine ⟨fun h ha hh hm hr hz hp himage => ?load, fun x h ha hm hr hz hx hidle => ?release,
    fun x h ha hmask hr hz hx hidle hup => ?move, fun x h hz hp hx hgood hcrc hfree => ?delta⟩
  case load => rw [exec_structureLoad h, structureLoad_in hj hl hr hz ha hh hm, structureIn_sound hp himage]
  case release => rw [exec_structureLoad h, structureLoad_out hj hl hr hz ha hm, structureChange_release hx hidle]
  case move => rw [exec_structureLoad h, structureLoad_move hj hl hr hz ha, structureChange_move hx hidle hmask hup]
  case delta => rw [exec_deltaUpdate h, deltaUpdate_sound hj hl hz hp hx hgood hcrc hfree]

/-! ### ENGINE_OPERATION_START (09 R262, R289) -/

section
variable {a : State} {e : Nat} {c : Course}

/-- An engine whose queue is empty starts nothing. -/
theorem engineStart_noHead (h : a.headCourse (.engine e) = none) : a.engineStart e = a := by
  simp only [State.engineStart, h]

/-- The head of a queue that may not launch stays where it is. -/
theorem engineStart_waits (h : a.headCourse (.engine e) = some c) (hm : a.mayLaunch c (.engine e) = false) : a.engineStart e = a := by
  simp only [State.engineStart, h, hm, Bool.not_false, if_true]

/-- The head of a queue that may launch starts, or is abandoned where an engine of its mask is lost. -/
theorem engineStart_head (h : a.headCourse (.engine e) = some c) (hm : a.mayLaunch c (.engine e) = true) :
    a.engineStart e = if c.engines.any (fun k => !((a.engines[k]?).map (·.up)).getD false) then a.abandonAtLaunch c
      else (a.start c c.units).startRun c.id 0 := by
  simp only [State.engineStart, h, hm, Bool.not_true, Bool.false_eq_true, if_false]

end

/-! ### Cut-off, deadline and end of an operation (09 R260, R279, R280, R283 to R285) -/

section
variable {a : State} {id : Nat} {c : Course} (hc : a.course? id = some c)
include hc

/-- An operation that makes a new factor gives it up once no more than its reserve is left before its deadline. -/
theorem factorCutoff_running {j : Job} {x : Structure} {q : SolveSpec} {r : SolveRun} {d : Nat}
    (hr : a.running? c = some (j, x, q, r)) (hd : r.deadline = some d) (hf : bitOf q.phases 1 = true) :
    a.factorCutoff id = if cutoffPast d (x.reserve (q.limit j)) a.stitch = true then
      a.updCourse id (fun (k : Course) => { k with run := some { r with factorCut := true } }) else a := by
  simp only [State.factorCutoff, hc, hr, hd, hf, Bool.true_and]

/-- At its deadline an operation is cut, once. -/
theorem solveDeadlineReached_due {r : SolveRun} {d : Nat} (hr : c.run = some r) (hd : r.deadline = some d) (hdue : d ≤ a.stitch)
    (hfirst : r.deadlineCut = none) : a.solveDeadlineReached id =
      a.free.2.updCourse id (fun (k : Course) => { k with run := some { r with deadlineCut := some (a.free.1.toNat % 9) } }) := by
  have hcut : d ≤ a.stitch ∧ r.deadlineCut.isNone = true := ⟨hdue, by rw [hfirst]; rfl⟩
  simp only [State.solveDeadlineReached, hc, hr, hd, if_pos hcut]

/-- Before its deadline an operation runs on. -/
theorem solveDeadlineReached_early {r : SolveRun} {d : Nat} (hr : c.run = some r) (hd : r.deadline = some d) (hearly : a.stitch < d) :
    a.solveDeadlineReached id = a := by
  have hcut : ¬ (d ≤ a.stitch ∧ r.deadlineCut.isNone = true) := fun h => Nat.not_le.mpr hearly h.1
  simp only [State.solveDeadlineReached, hc, hr, hd, if_neg hcut]

/-- An operation that ends takes its results to its course where the pool has the pages that they add, and otherwise leaves its course waiting
for them with those that the pool still has. -/
theorem operationEnd_launched {j : Job} {x : Structure} {q : SolveSpec} {r : SolveRun} {v0 : SVersion} {v : SolveRes} {o : OpOut}
    {d : Done} {b : State} (hr : a.running? c = some (j, x, q, r)) (h0 : j.startVersion c q.handle = some v0) (hs : c.status = .launched)
    (hv : v = x.operate j.tauLog2 (a.solveReq c j x q r) v0 (x.factorGen + ((c.progress.filter (·.handle == q.handle)).map (·.made)).sum))
    (ho : o = a.solveOut c j x q v) (hd : d = o.writes.foldl Done.put (a.doneOf c)) (hb : b = { a with freeCtr := a.freeCtr + launchDraws }) :
    a.operationEnd id = if a.poolServes j ((d.view.ovs.headD Overlay.empty).added c.staging) then
        if c.kind = .solve then (b.endRecord c j q r v { d with flags := d.flags ++ o.flags }).endSolve id v
        else b.endRecord c j q r v { d with flags := d.flags ++ o.flags }
      else b.updCourse id (fun (k : Course) => { k with
        staging := ((b.poolGives j [] ((d.view.ovs.headD Overlay.empty).added c.staging).pages).foldl View.touch (b.courseView c)).ovs.headD k.staging
        status := .waitPages, stalled := [.engine (k.engines.headD 0)] }) := by
  have hlaunched : (c.status != .launched) = false := by rw [hs]; rfl
  subst hb hd ho hv
  simp only [State.operationEnd, hc, hr, h0, hlaunched, Bool.not_eq_true', Bool.false_eq_true, if_false]
  cases hpool : a.poolServes j _ <;> rfl

end

/-! ### CABLE_ENGINE_LOST (09 R289) -/

section
variable {a b : State} {e : Nat} (h : ((a.engines[e]?).map (·.up)).getD false = true)
  (hb : b = (State.cper { a with engines := a.engines.modify e (fun x => { x with up := false }) }
    { cls := 9, sev := sevRecoverable, unit := 144 + e, detail := [BitVec.ofNat 8 e] }).raiseFault 0)
include h hb

/-- An engine that is lost while nothing runs on it is only reported. -/
theorem engineLost_idle (hidle : b.onUnit (.engine e) = none) : a.engineLost e = b := by
  simp only [State.engineLost, if_pos h, ← hb, hidle]

/-- An engine that is lost while an operation runs on it is reported, and the operation aborts for good. -/
theorem engineLost_running {c : Course} (hc : b.onUnit (.engine e) = some c) : a.engineLost e = b.faultCourse c (144 + e) 7 none true := by
  simp only [State.engineLost, if_pos h, ← hb, hc]

end

/-- An engine that is lost already, or that the module does not have, changes nothing. -/
theorem engineLost_down {a : State} {e : Nat} (h : ((a.engines[e]?).map (·.up)).getD false = false) : a.engineLost e = a := by
  rw [State.engineLost, if_neg (Bool.eq_false_iff.mp h)]

section
variable {s a : State} {t : Stitch} (h : s.Reached t a)
include h

theorem exec_engineOperationStart (e : Nat) : exec (.engineOperationStart t e) s = .next (a.engineStart e) :=
  act_reached (f := (·.engineStart e)) h

theorem exec_solveFactorCutoff (id : Nat) : exec (.solveFactorCutoff t id) s = .next (a.factorCutoff id) :=
  act_reached (f := (·.factorCutoff id)) h

theorem exec_solveDeadlineReached (id : Nat) : exec (.solveDeadlineReached t id) s = .next (a.solveDeadlineReached id) :=
  act_reached (f := (·.solveDeadlineReached id)) h

theorem exec_solveOperationEnd (id : Nat) : exec (.solveOperationEnd t id) s = .next (a.operationEnd id) :=
  act_reached (f := (·.operationEnd id)) h

theorem exec_cableEngineLost (e : Nat) : exec (.cableEngineLost t e) s = .next (a.engineLost e) :=
  act_reached (f := (·.engineLost e)) h

end

/-- Settles O48: a start by the head of the queue and the engines of its mask, cut-off and deadline by whether they are past, an end by the pages
of the pool, and a loss by the engine and what it runs. -/
theorem enginesRun : Obligations.EnginesRun := by
  unfold Obligations.EnginesRun
  intro s a t h
  have hstart := exec_engineOperationStart h
  have hlost := exec_cableEngineLost h
  refine ⟨fun e hnone => ?noHead, fun e c hc hm => ?waits, fun e c hc hm => ?head, fun id d c j x q r hc hr hd hf => ?cutoff,
    fun id d c r hc hr hd => ⟨fun hdue hfirst => ?due, fun hearly => ?early⟩,
    fun id c j x q r v0 v o d b u hc hr h0 hs hv ho hd hb hu => ?ends, fun e b hup hb => ?lost, fun e hdown => ?down⟩
  case noHead => rw [hstart, engineStart_noHead hnone]
  case waits => rw [hstart, engineStart_waits hc hm]
  case head =>
    rw [hstart, engineStart_head hc hm]
    exact ⟨fun hall => by rw [hall]; rfl, fun hsome => by rw [hsome]; rfl⟩
  case cutoff => rw [exec_solveFactorCutoff h, factorCutoff_running hc hr hd hf]
  case due => rw [exec_solveDeadlineReached h, solveDeadlineReached_due hc hr hd hdue hfirst]
  case early => rw [exec_solveDeadlineReached h, solveDeadlineReached_early hc hr hd hearly]
  case ends =>
    rw [exec_solveOperationEnd h, operationEnd_launched hc hr h0 hs hv ho hd hb, ← hu]
    refine ⟨fun hpool => ?served, fun got hpool hgot => ?short⟩
    case served => rw [if_pos hpool]
    case short => rw [if_neg (Bool.eq_false_iff.mp hpool), hgot]
  case lost =>
    exact ⟨fun hidle => by rw [hlost, engineLost_idle hup hb hidle], fun c hc => by rw [hlost, engineLost_running hup hb hc]⟩
  case down => rw [hlost, engineLost_down hdown]

end Sys2Proof.Machine
end

section
/-! SUPPORT. Links: what the updates of a link, its training and its loss write and leave alone, and the statement LinkStates, settled by
them. -/

namespace Sys2Proof.Machine

/-! ### A link after an update -/

theorem updLink_same {s : State} {k : Nat} (f : Link → Link) (h : k < s.links.length) : (s.updLink k f).link k = f (s.link k) := by
  simp [State.updLink, State.link, List.getD_eq_getElem?_getD, h]

@[simp] theorem updLink_length (s : State) (k : Nat) (f : Link → Link) : (s.updLink k f).links.length = s.links.length :=
  List.length_modify ..

/-- What an update leaves of every link, it leaves of each link of the module, the updated one among them. -/
theorem updLink_keeps {β : Type} {p : Link → β} {f : Link → Link} (h : ∀ l, p (f l) = p l) (s : State) (k i : Nat) :
    p ((s.updLink k f).link i) = p (s.link i) := by
  simp only [State.updLink, State.link, List.getD_eq_getElem?_getD, List.getElem?_modify]
  cases s.links[i]? with
  | none => rfl
  | some l => by_cases hk : k = i <;> simp [hk, h]

/-- What the ending of a command leaves of every state, two states have in common that are equal but for it. -/
theorem eq_of_sans {β : Type} {p : State → β} (hp : ∀ x : State, p x.sansEnds = p x) {x y : State} (h : x.sansEnds = y.sansEnds) : p x = p y := by
  rw [← hp x, h, hp y]

@[simp] theorem raiseFault_links (s : State) (bit : Nat) : (s.raiseFault bit).links = s.links :=
  eq_of_sans (p := State.links) (fun _ => rfl) (raise_sans _ _)

@[simp] theorem cper_links (s : State) (e : ErrEvent) : (s.cper e).links = s.links :=
  eq_of_sans (p := State.links) (fun _ => rfl) (cper_sans _ _)

@[simp] theorem cper_skein (s : State) (e : ErrEvent) : (s.cper e).skein = s.skein :=
  eq_of_sans (p := State.skein) (fun _ => rfl) (cper_sans _ _)

@[simp] theorem cper_time (s : State) (e : ErrEvent) : (s.cper e).time = s.time :=
  eq_of_sans (p := State.time) (fun _ => rfl) (cper_sans _ _)

/-- Regrouping names the port, the peer and the direction of a link again, and nothing else of it. -/
theorem regroup_link {s : State} {k : Nat} (h : k < s.links.length) : s.regroup.link k =
    { s.link k with port := (portOf s.links k).1, width := (portOf s.links k).2, peerDevice := s.skein.deviceOf (s.link k)
                    direction := s.skein.directionOf (s.link k) k } := by
  simp [State.regroup, State.link, List.getD_eq_getElem?_getD, h]

/-! ### Training and loss (10 R291, R292, R308) -/

/-- A link that starts to train is in training and has counted the retrain. -/
theorem linkTrain_link {s : State} {k : Nat} (h : k < s.links.length) :
    (s.linkTrain k).link k = { s.link k with state := 1, rate := 0, retrains := satAdd 16 (s.link k).retrains 1, ackDue := false } := by
  unfold State.linkTrain State.sendUnnumbered
  dsimp only
  rw [State.emit_link, updLink_same _ (by rwa [updLink_length]), updLink_same _ h]

@[simp] theorem recut_length (s : State) (k : Nat) : (s.recut k).links.length = s.links.length := by
  unfold State.recut
  split <;> simp

@[simp] theorem recut_out (s : State) (k : Nat) : (s.recut k).out = s.out := by
  unfold State.recut
  split <;> rfl

@[simp] theorem giveCredits_links (s : State) (rs : List Replay) : (rs.foldl State.giveCredit s).links = s.links :=
  foldl_keeps (p := State.links) (f := State.giveCredit) (fun _ _ => rfl) rs s

@[simp] theorem giveCredits_out (s : State) (rs : List Replay) : (rs.foldl State.giveCredit s).out = s.out :=
  foldl_keeps (p := State.out) (f := State.giveCredit) (fun _ _ => rfl) rs s

/-- A link as it is lost in the state `s`: down since its stitch, with nothing to send or to send again. -/
def State.lostLink (s : State) (attempts : Nat) (l : Link) : Link :=
  { (l.takeBack l.replay s.stitch) with
    state := 0, rate := 0, attempts := attempts, replay := [], resend := [], waiting := [], uncInterval := 0, triedAt := s.stitch
    displaced := satAdd 32 l.displaced (l.lostPlanned s.stitch), cutMoved := l.cutMoved || (l.state == 2 && s.cutStops) }

/-- The state in which a link is lost, before its ports are chosen again: what it has not sent is not sent. -/
def State.linkLost (s : State) (k attempts : Nat) : State :=
  let l := s.link k
  let x := ((l.resend ++ l.replay).foldl State.giveCredit (s.recut k)).updLink k (s.lostLink attempts)
  { x with txq := x.txq ++ l.leftOver k s.stitch, out := x.out.filter (fun e => !e.beyond k s.stitch) }

/-- A link goes down: it is lost, ports and the parent are chosen again, and the loss is reported. -/
theorem linkDown_eq (s : State) (k attempts : Nat) : s.linkDown k attempts =
    ((s.linkLost k attempts).regroup.reparent.raiseFault 3).cper
      { cls := 7, sev := sevRecoverable, unit := 152 + k, detail := [BitVec.ofNat 8 k, 0, 0, 0, 0, 0, 0, 0] ++ le 8 (s.link k).peerSerial.toNat } := rfl

theorem linkLost_out (s : State) (k attempts : Nat) : (s.linkLost k attempts).out = s.out.filter (fun e => !e.beyond k s.stitch) := by
  unfold State.linkLost
  dsimp only
  rw [State.updLink_out, giveCredits_out, recut_out]

/-- A link that goes down ends as a lost one, but for its port and its peer. -/
theorem linkDown_link {s : State} {k : Nat} (h : k < s.links.length) (attempts : Nat) : ((s.linkDown k attempts).link k).state = 0 ∧
    ((s.linkDown k attempts).link k).triedAt = s.stitch ∧ ((s.linkDown k attempts).link k).replay = [] := by
  have hlength : k < (((s.link k).resend ++ (s.link k).replay).foldl State.giveCredit (s.recut k)).links.length := by
    rwa [giveCredits_links, recut_length]
  have hlost : (s.linkLost k attempts).link k = s.lostLink attempts _ := updLink_same (s.lostLink attempts) hlength
  have hdown : (s.linkDown k attempts).link k = (s.linkLost k attempts).regroup.link k := by
    rw [linkDown_eq, State.link, cper_links, raiseFault_links]
    rfl
  rw [hdown, regroup_link ((updLink_length _ k _).symm ▸ hlength), hlost]
  exact ⟨rfl, rfl, rfl⟩

/-- A link that goes down takes back nothing but its own frames whose frame times are to come. -/
theorem mem_linkDown_out {s : State} {k : Nat} {e : Emission} (he : e ∈ s.out)
    (hleft : ∀ leaves f even odd, e = .frame k leaves f even odd → leaves ≤ s.stitch) (attempts : Nat) : e ∈ (s.linkDown k attempts).out := by
  have hkept : e.beyond k s.stitch = false := by
    unfold Emission.beyond
    split
    next i leaves f even odd =>
      by_cases hi : i = k
      · simp [hi, hleft leaves f even odd (by rw [hi])]
      · simp [hi]
    next => rfl
  have hlost : e ∈ (s.linkLost k attempts).out := by
    rw [linkLost_out]
    exact List.mem_filter.mpr ⟨he, by rw [hkept]; rfl⟩
  rw [linkDown_eq, cper_out]
  exact (raise_out (List.prefix_refl _) _).subset hlost

/-! ### Events of a link, by its state (10 R291, R292, R308) -/

/-- Links on which nothing waits have no frame times to settle. -/
theorem sweep_noneOwed {s : State} (hq : s.txq = []) (hr : ∀ l ∈ s.links, l.resend = []) : s.sweep = s :=
  if_pos (by simpa [hq] using hr)

section
variable {s : State} {k : Nat}

theorem linkTraining_trains (h : (s.link k).state = 0) (hfew : (s.link k).attempts < 3) (cable : Option Cable) :
    s.linkTraining k cable = (s.linkTrain k).updLink k (fun (l : Link) => { l with cable := cable }) := if_pos ⟨h, hfew⟩

theorem linkTraining_waits (hmany : 3 ≤ (s.link k).attempts) (cable : Option Cable) : s.linkTraining k cable = s :=
  if_neg fun hgo => Nat.not_lt.mpr hmany hgo.2

theorem linkRetry_due (h : (s.link k).state = 0) (hmany : 3 ≤ (s.link k).attempts) (htime : (s.link k).triedAt + 1000000000 ≤ s.stitch) :
    s.linkRetry k = s.linkTrain k := if_pos ⟨h, hmany, htime⟩

theorem linkRetry_early (hwaits : (s.link k).attempts < 3 ∨ s.stitch < (s.link k).triedAt + 1000000000) : s.linkRetry k = s :=
  if_neg fun ⟨_, hmany, htime⟩ => hwaits.elim (Nat.not_lt.mpr hmany) (Nat.not_lt.mpr htime)

theorem linkUp_ended (h : (s.link k).state ≠ 1) (r : TrainResult) : s.linkUp k r = s := if_pos (bne_iff_ne.mpr h)

theorem linkUp_failed (h : (s.link k).state = 1) : s.linkUp k .failed = s.linkDown k (min 3 ((s.link k).attempts + 1)) :=
  if_neg (by simp [h])

theorem linkUp_palrix (h : (s.link k).state = 1) (rate : Nat) : s.linkUp k (.palrix rate) =
    (s.updLink k (fun l => l.trained 2 (if rate = 4 then 4 else 2) s.stitch counterMax)).regroup.reparent := if_neg (by simp [h])

theorem linkUp_forerunner (h : (s.link k).state = 1) :
    s.linkUp k .forerunner = (s.updLink k (fun l => l.trained 3 2 s.stitch counterMax)).regroup := if_neg (by simp [h])

theorem linkLoss_up (h : (s.link k).up = true) : s.linkLoss k = s.linkDown k 0 := if_pos h

theorem linkLoss_down (h : (s.link k).up = false) : s.linkLoss k = s := if_neg (Bool.eq_false_iff.mp h)

theorem linkRejoin_due (h : (s.link k).state = 2) (htime : (s.link k).upSince + 1000000 ≤ s.stitch) :
    s.linkRejoin k = s.updLink k (fun (l : Link) => { l with planFrom := min l.planFrom s.stitch }) := if_pos ⟨h, htime⟩

theorem linkRejoin_early (htime : s.stitch < (s.link k).upSince + 1000000) : s.linkRejoin k = s :=
  if_neg fun hgo => Nat.not_lt.mpr hgo.2 htime

end

section
variable {s a : State} {t : Stitch} (h : s.Reached t a) (k : Nat)
include h

/-- An event on the links runs between the settling of the frame times before it and of what it leaves to be sent. -/
theorem act_onLinks (f : State → State) : s.act t (·.onLinks f) = .next (f a.sweep).settleLinks := act_reached h

theorem exec_linkTraining (cable : Option Cable) : exec (.linkTraining t ⟨k, cable⟩) s = .next (a.linkTraining k cable) :=
  act_reached (f := (·.linkTraining k cable)) h

theorem exec_linkRetryTimer : exec (.linkRetryTimer t k) s = .next (a.linkRetry k) := act_reached (f := (·.linkRetry k)) h

theorem exec_linkUp (r : TrainResult) : exec (.linkUp t k r) s = .next (a.sweep.linkUp k r).settleLinks := act_onLinks h _

theorem exec_linkLossOfLock : exec (.linkLossOfLock t k) s = .next (a.sweep.linkLoss k).settleLinks := act_onLinks h _

theorem exec_linkPlanRejoin : exec (.linkPlanRejoin t k) s = .next (a.linkRejoin k) := act_reached (f := (·.linkRejoin k)) h

end

/-- Settles O42: training, retry and rejoining by the state of the link and its time, the end of training by its result, and a loss by what it
clears and takes back. -/
theorem linkStates : Obligations.LinkStates := by
  unfold Obligations.LinkStates
  rintro s a b t k cable h rfl
  have htraining := exec_linkTraining h k cable
  have hretry := exec_linkRetryTimer h k
  have hloss := exec_linkLossOfLock h k
  have hrejoin := exec_linkPlanRejoin h k
  refine ⟨fun hdown hfew => ⟨?trains, ?notRetried⟩, fun hdown hmany => ⟨?waits, fun hdue => ?retries, fun hearly => ?early⟩,
    fun hlink => ?fields, sweep_noneOwed, fun htrains => ?ended, fun hother r => ?notTraining, fun hup => ?lost, fun hnot => ?wasDown,
    fun hup htime => ?rejoins, fun htime => ?tooSoon⟩
  case trains => rw [htraining, linkTraining_trains hdown hfew]
  case notRetried => rw [hretry, linkRetry_early (.inl hfew)]
  case waits => rw [htraining, linkTraining_waits hmany]
  case retries => rw [hretry, linkRetry_due hdown hmany hdue]
  case early => rw [hretry, linkRetry_early (.inr hearly)]
  case fields =>
    obtain ⟨hstate, htried, hreplay⟩ := linkDown_link hlink 0
    rw [linkTrain_link hlink]
    exact ⟨rfl, rfl, hstate, htried, hreplay, fun e he hleft => mem_linkDown_out he hleft 0⟩
  case ended =>
    simp only [exec_linkUp h]
    rw [linkUp_failed htrains, linkUp_palrix htrains, linkUp_palrix htrains, linkUp_forerunner htrains]
    exact ⟨rfl, rfl, rfl, rfl⟩
  case notTraining => rw [exec_linkUp h, linkUp_ended hother]
  case lost => rw [hloss, linkLoss_up hup]
  case wasDown => rw [hloss, linkLoss_down hnot]
  case rejoins => rw [hrejoin, linkRejoin_due hup htime]
  case tooSoon => rw [hrejoin, linkRejoin_early htime]

end Sys2Proof.Machine
end

section
/-! SUPPORT. Skeins: what a skein that forms, and one that does not, leave of this module, and the statement SkeinForms, settled by them. -/

namespace Sys2Proof.Machine

/-! ### Forming a skein (10 R299 to R301) -/

/-- Alone, this module is in no skein, and an error record does not change that. -/
theorem noSkein_alone (s : State) (ws : List Wire) (ms : List Dword) :
    (s.noSkein ws ms).skein = Skein.none ∧ (s.noSkein ws ms).time.role = 3 := by
  unfold State.noSkein
  dsimp only
  rw [cper_skein, cper_time]
  exact ⟨rfl, rfl⟩

section
variable {a : State} {ws vs : List Wire} {ms : List MemberInfo}

theorem skeinFormation_jobOpen (hjobs : a.jobs.any (·.skein) = true) : a.skeinFormation ws ms = a := if_pos hjobs

variable (hvs : vs = ws.filter (fun w => ms.any (fun i => i.serial == w.fromSerial) && ms.any (fun i => i.serial == w.toSerial)))
  (hjobs : a.jobs.any (·.skein) = false)
include hvs hjobs

theorem skeinFormation_noTopology (hnone : topologyOf vs (ms.map (·.serial)) = none) :
    a.skeinFormation ws ms = a.noSkein vs (ms.map (·.serial)) := by
  subst hvs
  simp only [State.skeinFormation, hjobs, hnone, Bool.false_eq_true, if_false]

variable {p : Topology} (hsome : topologyOf vs (ms.map (·.serial)) = some p)
include hsome

theorem skeinFormation_notMember (hplace : p.order.findIdx? (· == a.dev.serial) = none) :
    a.skeinFormation ws ms = a.noSkein vs (ms.map (·.serial)) := by
  subst hvs
  simp only [State.skeinFormation, hjobs, hsome, hplace, Bool.false_eq_true, if_false]

theorem skeinFormation_member {place : Nat} (hplace : p.order.findIdx? (· == a.dev.serial) = some place) {b d : State}
    (hb : b = a.joinSkein p place) (hd : d = State.elect { b with
      skein := { b.skein with infos := numberMembers p ms }, time := b.time.elected } (numberMembers p ms) (numberMembers p ms)) :
    a.skeinFormation ws ms = State.sendElection { d with time := { d.time with
      joining := d.time.role != 1 && a.jobs.isEmpty, lastMaster := a.stitch } } none := by
  subst hvs hb hd
  simp only [State.skeinFormation, hjobs, hsome, hplace, Bool.false_eq_true, if_false]

end

theorem exec_skeinFormation {s a : State} {t : Stitch} (h : s.Reached t a) (ws : List Wire) (ms : List MemberInfo) :
    exec (.skeinFormation t ws ms) s = .next (a.skeinFormation ws ms) := act_reached (f := (·.skeinFormation ws ms)) h

/-- Settles O43: a forming by whether a skein job is open, whether the wiring matches a topology, and whether this module is in it. -/
theorem skeinForms : Obligations.SkeinForms := by
  unfold Obligations.SkeinForms
  intro s a t ws vs ms h hvs
  rw [exec_skeinFormation h]
  refine ⟨fun hjobs => ?jobOpen, fun hjobs hnone => ?noTopology, fun p hjobs hsome hplace => ?notMember,
    fun p place b d hjobs hsome hplace hb hd => ?member, ?alone, fun p place => ⟨rfl, rfl, rfl⟩⟩
  case jobOpen => rw [skeinFormation_jobOpen hjobs]
  case noTopology => rw [skeinFormation_noTopology hvs hjobs hnone]
  case notMember => rw [skeinFormation_notMember hvs hjobs hsome hplace]
  case member => rw [skeinFormation_member hvs hjobs hsome hplace hb hd]
  case alone =>
    obtain ⟨hskein, hrole⟩ := noSkein_alone a vs (ms.map (·.serial))
    exact ⟨congrArg Skein.member hskein, hrole⟩

end Sys2Proof.Machine
end

section
/-! SUPPORT. Acknowledgement and retry: what an acknowledgement, a NAK, a silence and an uncorrectable frame make of the frames that a link keeps,
and the statement FramesAcknowledged, settled by them. -/

namespace Sys2Proof.Machine

/-! ### Frames that a link keeps (10 R292, R295) -/

section
variable {b : State} {k : Nat}

/-- An idle frame frees what its ack field passes. -/
theorem idleReceived_up (h : (b.link k).up = true) (ack : BitVec 16) :
    b.idleReceived k ack = b.ackFrames k (fun r => decide ((ack - 1 - r.frame.seq).toNat < 32768)) := if_pos h

theorem ackReceived_up (h : (b.link k).up = true) (acks naks : List (BitVec 16)) : b.ackReceived k acks naks =
    naks.foldl (fun (x : State) q => x.resendFrame k q) ((b.updLink k Link.heardNext).ackFrames k (fun r => acks.contains r.frame.seq)) :=
  if_pos h

theorem resendTimeout_due {seq : BitVec 16}
    (h : (b.link k).replay.any (fun r => r.frame.seq == seq && decide (r.sentAt + 2048 ≤ b.stitch)) = true) :
    b.resendTimeout k seq = b.resendFrame k seq := if_pos h

theorem resendTimeout_early {seq : BitVec 16}
    (h : (b.link k).replay.any (fun r => r.frame.seq == seq && decide (r.sentAt + 2048 ≤ b.stitch)) = false) :
    b.resendTimeout k seq = b := if_neg (Bool.eq_false_iff.mp h)

section
variable {seq : BitVec 16} {r : Replay} (hkept : (b.link k).replay.find? (fun r => r.frame.seq == seq) = some r)
include hkept

theorem resendFrame_failed (htries : 8 ≤ r.tries) : b.resendFrame k seq = b.linkDown k 0 := by
  simp only [State.resendFrame, hkept, if_pos htries]

theorem resendFrame_again (htries : r.tries < 8) : b.resendFrame k seq = b.updLink k (fun (l : Link) => { l with
    replay := l.replay.filter (fun x => x.frame.seq != seq)
    resend := l.resend ++ [{ r with frame := Frame.again r.frame, sentAt := b.stitch }] }) := by
  simp only [State.resendFrame, hkept, if_neg (Nat.not_le.mpr htries)]

end

theorem uncorrectableFrame_up (h : (b.link k).up = true) (seq : BitVec 16) {d : State} (hd : d = b.updLink k (fun (l : Link) => { l with
      uncorrectable := satAdd 16 l.uncorrectable 1, uncInterval := l.uncInterval + 1 })) :
    b.uncorrectableFrame k seq = if 16 < (d.link k).uncInterval then d.linkDown k 0
      else (d.updLink k (fun (l : Link) => l.received seq)).sendAckList k [seq] := by
  subst hd
  exact if_neg (by simp [h])

end

section
variable {s a : State} {t : Stitch} (h : s.Reached t a) (k : Nat)
include h

theorem exec_idleFrameReceived (ack : BitVec 16) : exec (.idleFrameReceived t k ack) s = .next (a.sweep.idleReceived k ack).settleLinks :=
  act_onLinks h _

theorem exec_ackFrameReceived (acks naks : List (BitVec 16)) :
    exec (.ackFrameReceived t k acks naks) s = .next (a.sweep.ackReceived k acks naks).settleLinks := act_onLinks h _

theorem exec_retransmitTimeout (seq : BitVec 16) : exec (.retransmitTimeout t k seq) s = .next (a.sweep.resendTimeout k seq).settleLinks :=
  act_onLinks h _

theorem exec_uncorrectableFrame (seq : BitVec 16) :
    exec (.uncorrectableFrame t k seq) s = .next (a.sweep.uncorrectableFrame k seq).settleLinks := act_onLinks h _

end

/-- Settles O44: acknowledgements by what they name, a silence by whether it has lasted, a frame to be sent again by its tries, and an
uncorrectable one by the count of its interval. -/
theorem framesAcknowledged : Obligations.FramesAcknowledged := by
  unfold Obligations.FramesAcknowledged
  rintro s a b t k h rfl hup
  refine ⟨fun ack => ?idle, fun acks naks => ?acks, fun seq hdue => ?due, fun seq hearly => ?early,
    fun d seq r hkept => ⟨resendFrame_failed hkept, resendFrame_again hkept⟩, fun seq d hd => ?uncorrectable⟩
  case idle => rw [exec_idleFrameReceived h, idleReceived_up hup]
  case acks => rw [exec_ackFrameReceived h, ackReceived_up hup]
  case due => rw [exec_retransmitTimeout h, resendTimeout_due hdue]
  case early => rw [exec_retransmitTimeout h, resendTimeout_early hearly]
  case uncorrectable => rw [exec_uncorrectableFrame h, uncorrectableFrame_up hup seq hd]

end Sys2Proof.Machine
end

section
/-! SUPPORT. Frames that arrive: what hearing one leaves of its link, where a frame for this member goes, and the statement FramesArrive, settled by
them. -/

namespace Sys2Proof.Machine

/-! ### What hearing a frame leaves (10 R293, R295) -/

/-- What a link tells of its other end: whether it is up to a Palrix or to a forerunner, and the serial number there. -/
def Link.far (l : Link) : Nat × Dword := (l.state, l.peerSerial)

/-- Whether a link leads to a forerunner is told by its other end and the members of the skein. -/
theorem toForerunner_eq {x y : State} {k : Nat} (hfar : (x.link k).far = (y.link k).far) (hskein : x.skein = y.skein) :
    x.toForerunner k = y.toForerunner k := by
  obtain ⟨hstate, hserial⟩ := Prod.mk.inj hfar
  rw [State.toForerunner, State.toForerunner, hstate, hserial, hskein]

theorem passHeld_far (n : Nat) (l : Link) : (Link.passHeld n l).far = l.far := by
  induction n generalizing l with
  | zero => rfl
  | succ n ih =>
    unfold Link.passHeld
    dsimp only
    split
    · exact ih _
    · rfl

theorem received_far (seq : BitVec 16) (l : Link) : (l.received seq).far = l.far := by
  unfold Link.received
  split
  · rfl
  · dsimp only
    rw [passHeld_far]
    split <;> rfl

/-- Freed frames are gone from the link's buffer; their courses and credits are no part of the links. -/
theorem ackFrames_links (s : State) (k : Nat) (p : Replay → Bool) :
    (s.ackFrames k p).links = (s.updLink k (fun l => { l with replay := l.replay.filter (fun r => !p r) })).links := by
  refine foldl_keeps (p := State.links) (fun x r => ?_) _ _
  cases r.course with
  | none => rfl
  | some c => dsimp only; split <;> rfl

/-- Freeing frames leaves every link's other end what it is. -/
theorem ackFrames_far (s : State) (k i : Nat) (p : Replay → Bool) : ((s.ackFrames k p).link i).far = (s.link i).far := by
  rw [State.link, ackFrames_links]
  exact updLink_keeps (p := Link.far) (f := fun l => { l with replay := l.replay.filter (fun r => !p r) }) (fun _ => rfl) s k i

theorem ackFrames_skein (s : State) (k : Nat) (p : Replay → Bool) : (s.ackFrames k p).skein = s.skein := by
  refine foldl_keeps (p := State.skein) (fun x r => ?_) _ _
  cases r.course with
  | none => rfl
  | some c => dsimp only; split <;> rfl

@[simp] theorem frameHeard_skein (s : State) (k : Nat) (f : Frame) : (s.frameHeard k f).skein = s.skein := ackFrames_skein s k _

/-- A frame that is heard leaves the other end of its link what it is. -/
theorem frameHeard_toForerunner (s : State) (k : Nat) (f : Frame) : (s.frameHeard k f).toForerunner k = s.toForerunner k := by
  have hfar : ((s.frameHeard k f).link k).far = (s.link k).far :=
    (updLink_keeps (received_far f.seq) (s.ackUpTo k f.ack) k k).trans (ackFrames_far s k k _)
  exact toForerunner_eq hfar (frameHeard_skein s k f)

/-! ### Frames of the links, by their state and type (10 R294, R302, R310 to R312) -/

section
variable {s : State} {k : Nat}

theorem delayFrame_up (h : (s.link k).up = true) (t1 t2 : Nat) : s.delayFrame k t1 t2 = State.sendControl
    ((s.updLink k Link.heardNext).updLink k (fun (l : Link) => { l with stamp1 := t1, stamp2 := t2 })) k 0x11 (s.link k).peerDevice
    (le 8 t1 ++ le 8 t2 ++ le 8 s.stitch) := if_pos h

theorem trainingFrame_down (h : (s.link k).state = 0) (serial : Dword) (peer die gen : Nat) : s.trainingFrame k serial peer die gen = s :=
  if_pos h

section
variable {serial : Dword} {peer die gen : Nat} {d : State} (hd : d = State.regroup (s.updLink k (fun (l : Link) =>
  { l with peerSerial := serial, peerLink := peer, peerDie := die, peerGen := gen })))
include hd

theorem trainingFrame_training (h : (s.link k).state = 1) :
    s.trainingFrame k serial peer die gen = d.sendUnnumbered k (d.identityFrame k) := by
  subst hd
  exact (if_neg (by simp [h])).trans (if_pos h)

theorem trainingFrame_up (h : 2 ≤ (s.link k).state) : s.trainingFrame k serial peer die gen = d.reparent := by
  subst hd
  exact (if_neg (by omega)).trans (if_neg (by omega))

end

theorem cutFrame_up (h : (s.link k).state = 2) (cut : Nat) (seq : BitVec 16) : s.cutFrame k cut seq =
    (s.updLink k Link.heardNext).updLink k (fun (l : Link) => { l with cutNeed := some seq, cutHeard := l.cutHeard + 1 }) := if_pos h

theorem unknownFrame_up {ty : Byte} (h : (s.link k).up = true) (hunknown : knownTypes.contains ty = false) :
    s.unknownFrame k ty = s.count 11 1 := if_pos (by rw [h, hunknown]; rfl)

theorem unknownFrame_known {ty : Byte} (hknown : knownTypes.contains ty = true) : s.unknownFrame k ty = s :=
  if_neg (by rw [hknown, Bool.not_true, Bool.and_false]; exact Bool.false_ne_true)

variable {f : Frame}

theorem dataFrame_up (h : (s.link k).state = 2) (htype : f.frameType = 0x30) :
    s.dataFrame k f = ((s.frameHeard k f).wakeModule).takeFrame k f := if_pos ⟨h, htype⟩

theorem dataFrame_other (htype : f.frameType ≠ 0x30) : s.dataFrame k f = s := if_neg fun hgo => htype hgo.2

/-- An unscheduled frame of a Palrix for this member is taken here. -/
theorem unscheduledFrame_here {d : State} (hd : d = s.frameHeard k f) (h : (s.link k).up = true) (htype : f.frameType = 0x40)
    (hpalrix : d.toForerunner k = false) (hdest : f.dest = d.skein.device) :
    s.unscheduledFrame k f = (d.wakeModule).takeFrame k f := by
  subst hd
  rw [frameHeard_toForerunner] at hpalrix
  rw [frameHeard_skein] at hdest
  simp only [State.unscheduledFrame, h, htype, hpalrix, hdest, Bool.not_true, bne_self_eq_false, Bool.or_self, Bool.false_eq_true, true_or,
    if_false, if_true]

/-! ### Where a frame for this member goes (11 R332, 13 R379) -/

section
variable (hstays : f.flags.getLsbD 2 = false) (hpalrix : s.toForerunner k = false)
include hstays hpalrix

theorem takeFrame_noJob (hnone : s.jobs.find? (fun j => j.skein && j.linkIndex == f.stream.toNat / 0x100000) = none) :
    s.takeFrame k f = s.count 12 1 := by
  simp only [State.takeFrame, hstays, hpalrix, hnone, Option.isNone_none, Bool.not_false, Bool.and_self, Bool.false_eq_true, if_false, if_true]

variable {j : Job} (hjob : s.jobs.find? (fun j => j.skein && j.linkIndex == f.stream.toNat / 0x100000) = some j)
include hjob

theorem takeFrame_unexpected (hnone : (s.courses.filter (fun c => c.target == 4 && c.running && c.kind == .course)).findSome?
    (fun c => (s.expectOf c k f).map (fun e => (c, e))) = none) : s.takeFrame k f = s.count 14 1 := by
  simp only [State.takeFrame, hstays, hpalrix, hjob, hnone, Option.isNone_some, Bool.and_false, Bool.false_eq_true, if_false]

variable {c : Course} {x : Coll} {p : Part} {i : Nat}
  (hhit : (s.courses.filter (fun c => c.target == 4 && c.running && c.kind == .course)).findSome?
    (fun c => (s.expectOf c k f).map (fun e => (c, e))) = some (c, x, p, i))
include hhit

/-- An expected frame of an open job is placed but for the window after an abandonment. -/
theorem takeFrame_expected : s.takeFrame k f =
    if j.dropUntil.any (fun u => decide (s.stitch < u)) = true then s else s.placeFrame c k f x p i := by
  simp only [State.takeFrame, hstays, hpalrix, hjob, hhit, Option.isNone_some, Bool.not_false, Bool.and_false, Bool.true_and, Bool.false_eq_true,
    if_false, Option.bind_some]
  cases j.dropUntil <;> rfl

theorem takeFrame_placed (hopen : ∀ u, j.dropUntil = some u → u ≤ s.stitch) : s.takeFrame k f = s.placeFrame c k f x p i := by
  rw [takeFrame_expected hstays hpalrix hjob hhit, if_neg]
  cases hu : j.dropUntil with
  | none => exact Bool.false_ne_true
  | some u => simpa using hopen u hu

theorem takeFrame_barred {u : Nat} (hu : j.dropUntil = some u) (htime : s.stitch < u) : s.takeFrame k f = s := by
  rw [takeFrame_expected hstays hpalrix hjob hhit, if_pos]
  simpa [hu] using htime

end

theorem placeFrame_again {c : Course} (h : c.rx.any (fun r => r.1 == f.stream && r.2.1 == f.offset) = true) (x : Coll) (p : Part) (i : Nat) :
    s.placeFrame c k f x p i = s.count 13 1 := if_pos h

end

section
variable {s a : State} {t : Stitch} (h : s.Reached t a) (k : Nat)
include h

theorem exec_delayFrameReceived (t1 t2 : Nat) : exec (.delayFrameReceived t k t1 t2) s = .next (a.delayFrame k t1 t2) :=
  act_reached (f := (·.delayFrame k t1 t2)) h

theorem exec_trainingFrameReceived (serial : Dword) (peer die gen : Nat) :
    exec (.trainingFrameReceived t k serial peer die gen) s = .next (a.trainingFrame k serial peer die gen) :=
  act_reached (f := (·.trainingFrame k serial peer die gen)) h

theorem exec_cutFrameReceived (cut : Nat) (seq : BitVec 16) : exec (.cutFrameReceived t k cut seq) s = .next (a.cutFrame k cut seq) :=
  act_reached (f := (·.cutFrame k cut seq)) h

theorem exec_unknownFrameDropped (ty : Byte) : exec (.unknownFrameDropped t k ty) s = .next (a.unknownFrame k ty) :=
  act_reached (f := (·.unknownFrame k ty)) h

theorem exec_dataFrameReceived (f : Frame) : exec (.dataFrameReceived t k f) s = .next (a.sweep.dataFrame k f).settleLinks := act_onLinks h _

theorem exec_unscheduledFrameReceived (f : Frame) :
    exec (.unscheduledFrameReceived t k f) s = .next (a.sweep.unscheduledFrame k f).settleLinks := act_onLinks h _

end

/-- Settles O45: each frame by its type and the state of its link, and one for this member by its job, the course that expects it, and whether it
has come before. -/
theorem framesArrive : Obligations.FramesArrive := by
  unfold Obligations.FramesArrive
  rintro s a b t k h rfl
  refine ⟨fun t1 t2 hup => ?delay, fun serial peer die gen d hd => ⟨fun hdown => ?trainingDown, fun htrains => ?training, fun hup => ?trainingUp⟩,
    fun c seq hup => ?cut, fun f hup htype => ?data, fun f htype => ?otherData, fun f d hd hup htype hpalrix hdest => ?unscheduled,
    fun ty hup hunknown => ?unknown, fun ty hknown => ?known, fun f j hstays hpalrix => ⟨takeFrame_noJob hstays hpalrix, fun hjob =>
      ⟨fun c x p i hhit => ⟨takeFrame_placed hstays hpalrix hjob hhit, fun u => takeFrame_barred hstays hpalrix hjob hhit⟩,
        takeFrame_unexpected hstays hpalrix hjob⟩, fun c x p i hagain => placeFrame_again hagain x p i⟩⟩
  case delay => rw [exec_delayFrameReceived h, delayFrame_up hup]
  case trainingDown => rw [exec_trainingFrameReceived h, trainingFrame_down hdown]
  case training => rw [exec_trainingFrameReceived h, trainingFrame_training hd htrains]
  case trainingUp => rw [exec_trainingFrameReceived h, trainingFrame_up hd hup]
  case cut => rw [exec_cutFrameReceived h, cutFrame_up hup]
  case data => rw [exec_dataFrameReceived h, dataFrame_up hup htype]
  case otherData => rw [exec_dataFrameReceived h, dataFrame_other htype]
  case unscheduled => rw [exec_unscheduledFrameReceived h, unscheduledFrame_here hd hup htype hpalrix hdest]
  case unknown => rw [exec_unknownFrameDropped h, unknownFrame_up hup hunknown]
  case known => rw [exec_unknownFrameDropped h, unknownFrame_known hknown]

end Sys2Proof.Machine
end

section
/-! SUPPORT. Slots: what a slot boundary sends and in which order, and the statement SlotsSend, settled by it. -/

namespace Sys2Proof.Machine

/-! ### A slot boundary (10 R296, R297, R306 to R308) -/

theorem slotBoundary_between {b : State} (h : b.stitch % 2048 ≠ 0) : b.slotBoundary = b := if_pos (bne_iff_ne.mpr h)

/-- At a slot boundary the plans come first, then what waits for reserved frame times, retransmissions, displaced frames and
acknowledgements. -/
theorem slotBoundary_begins {b w0 w1 w2 w3 : State} (h : b.stitch % 2048 = 0)
    (h0 : w0 = b.linkCourses.foldl State.prefetch { b with links := b.links.map (fun (l : Link) => l.inSlot b.stitch) })
    (h1 : w1 = (b.linkCourses.foldl State.plan (w0, [])).1)
    (h2 : w2 = (List.range 32).foldl State.resendOn ((List.range 32).foldl State.sendHeld w1))
    (h3 : w3 = (w2.txq.filter TxFrame.again).foldl (State.directed [.reserve, .data]) w2) :
    b.slotBoundary = (List.range 32).foldl State.acknowledge (w3.displacedQueue.foldl (State.directed [.data]) w3) := by
  have hstart : ¬ (b.stitch % 2048 != 0) = true := by simp [h]
  rw [State.slotBoundary, if_neg hstart]
  dsimp only
  rw [← h0, ← h1, ← h2, ← h3]

theorem exec_slotBoundary {s a : State} {t : Stitch} (h : s.Reached t a) :
    exec (.slotBoundary t) s = .next a.sweep.slotBoundary.settleLinks := act_onLinks h _

/-! ### Frame times that pass, and what an event leaves (10 R295 to R297, R310) -/

theorem passTimes_order {x y z : State} {a b : Nat} (hy : y = (List.range 32).foldl (State.resendPassed a b) x)
    (hz : z = ((y.txq.filter TxFrame.again) ++ y.displacedQueue).foldl (State.againPassed a b) y) :
    x.passTimes (a, b) = (let w := (z.txq.filter TxFrame.forwarded).foldl (State.hopPassed a b) z
      (w.txq.filter TxFrame.own).foldl (State.hopPassed a b) w) := by
  rw [State.passTimes, ← hy, ← hz]

theorem settleLinks_order {x y z : State} (hy : y = (List.range 32).foldl State.resendOn x)
    (hz : z = (y.txq.filter (·.planned.isSome)).foldl State.fillPlanned y) : x.settleLinks =
    x.linkCourses.foldl State.noteSend ((List.range 32).foldl State.sendCut (x.linkCourses.foldl State.originate z)) := by
  rw [State.settleLinks, ← hy, ← hz]

/-- Settles O46: a stitch is a slot boundary or none, and the orders of sending are those of the frame times that pass and of what an event
leaves. -/
theorem slotsSend : Obligations.SlotsSend := by
  unfold Obligations.SlotsSend
  refine ⟨?boundary, fun x y z from_ upTo => passTimes_order, fun x y z => settleLinks_order⟩
  rintro s a b t w0 w1 w2 w3 h rfl h0 h1 h2 h3
  refine ⟨fun hbegins => ?begins, fun hbetween => ?between⟩
  case begins => rw [exec_slotBoundary h, slotBoundary_begins hbegins h0 h1 h2 h3]
  case between => rw [exec_slotBoundary h, slotBoundary_between hbetween]

end Sys2Proof.Machine
end

section
/-! SUPPORT. Admin commands and checkpoints: the equations of FW_BLOCK, FW_ACTIVATE, DARN_LOAD, SET_LATENCY_TOLERANCE, CHECKPOINT and RESTORE where
the checks pass, and the statements AdminCommandsTaken and CheckpointsQueued, settled by them. -/

namespace Sys2Proof.Machine

section
variable {s : State} {t : Stitch} {src : Src} {io : HostIo} {f : Fetched}

theorem exec_setLatencyTolerance (h : (s.advance t).hookTakes src 0x0004 f) :
    exec (.setLatencyTolerance t src io) s = .next ((s.popped t src).setLatencyTolerance (s.given t src io f)) := host_takes h

theorem exec_fwBlock (h : (s.advance t).hookTakes src 0x0010 f) :
    exec (.fwBlock t src io) s = .next ((s.popped t src).fwBlock (s.given t src io f)) := host_takes h

theorem exec_fwActivate (h : (s.advance t).hookTakes src 0x0011 f) :
    exec (.fwActivate t src io) s = .next ((s.popped t src).fwActivate (s.given t src io f)) := host_takes h

theorem exec_darnLoad (h : (s.advance t).hookTakes src 0x0013 f) :
    exec (.darnLoad t src io) s = .next ((s.popped t src).darnLoad (s.given t src io f)) := host_takes h

theorem exec_checkpoint (h : (s.advance t).hookTakes src 0x0050 f) :
    exec (.checkpoint t src io) s = .next ((s.popped t src).checkpointCmd (s.given t src io f)) := host_takes h

theorem exec_restore (h : (s.advance t).hookTakes src 0x0051 f) (ok : Bool) :
    exec (.restore t src io ok) s = .next (State.restoreCmd ok (s.popped t src) (s.given t src io f)) := host_takes h

end

/-! ### FW_BLOCK (14 R410) -/

/-- A block that passes its checks and continues the staging joins it, and the bank it goes to is no longer valid. -/
theorem fwBlock_continues {b : State} {c : Cmd} {x y : Staging} {block : List Byte} (hl : c.badLayout = false) (ho : c.noOperands = true)
    (hp : c.badPayload 64 = false) (hhead : blockHeaderOk c c.data = true) (hstash : b.stashOk = true)
    (hblock : block = (c.data.drop 64).take (field c.data 24 4)) (hcrc : crc32c block = field c.data 28 4) (hcont : field c.data 6 2 ≠ 1)
    (hx : b.fw.staging = some x) (htag : x.tag.toNat = field c.data 8 8) (hlen : x.length = field c.data 16 4)
    (hy : y = { x with blocks := (field c.data 20 4, block) :: x.blocks }) :
    b.fwBlock c = State.finish (State.wear { b with
      fw := { b.fw.setBank b.stagingB { b.fw.bank b.stagingB with valid := false } with staging := some y, otherOverwritten := true }
      stash := { b.stash with bytesWritten := b.stash.bytesWritten + block.length } }) c.tag [0] y.count := by
  have hsame : ¬ (x.tag.toNat ≠ field c.data 8 8 ∨ x.length ≠ field c.data 16 4) := by simp [htag, hlen]
  have hold : (if field c.data 6 2 == 1 then some (Staging.mk (BitVec.ofNat 64 (field c.data 8 8)) (field c.data 16 4) [])
      else b.fw.staging) = some x := by
    rw [beq_eq_false_iff_ne.mpr hcont, ← hx]
    rfl
  subst hblock hy
  simp only [State.fwBlock, hl, ho, hp, hhead, hstash, hcrc, hold, if_neg hsame, ne_eq, not_true, Bool.not_true, Bool.or_self,
    Bool.false_eq_true, if_false]

/-! ### FW_ACTIVATE of the other bank (14 R411, R412) -/

section
variable {b : State} {c : Cmd} (hl : c.badLayout = false) (ha : c.op 40 1 = 2) (hz : c.zero 41 23 = true) (hstash : b.stashOk = true)
  (hnone : b.fw.activation = none) (hreload : b.fw.reload = []) (hhib : b.hibernating = false) (hkept : b.fw.otherOverwritten = false)
  (hvalid : (b.fw.bank b.stagingB).valid = true) (hfloor : b.fw.floor ≤ (b.fw.bank b.stagingB).security)
include hl ha hz hstash hnone hreload hhib hkept hvalid hfloor

/-- Of the checks of an accepted entry only that of the signature of a bank kept whole is left. -/
theorem fwActivate_checks : firstFailure ((c.badLayout || decide (2 < c.op 40 1) || !c.zero 41 23, stBadField) :: (!b.stashOk, stDeviceFault) ::
      (b.fw.activation.isSome || !b.fw.reload.isEmpty || b.hibernating, stNoResource) :: b.otherChecks) =
    if (b.fw.bank b.stagingB).signed then none else some 0x0500 := by
  have hchecks : b.otherChecks = [(false, stBadField), (!(b.fw.bank b.stagingB).signed, stSignatureFail)] := by
    simp [State.otherChecks, hkept, hvalid, hfloor]
  rw [hchecks, hl, ha, hz, hstash, hnone, hreload, hhib]
  cases (b.fw.bank b.stagingB).signed <;> rfl

theorem fwActivate_unsigned (hsigned : (b.fw.bank b.stagingB).signed = false) : b.fwActivate c = b.finish c.tag [0x0500] 0 := by
  have hchecks := fwActivate_checks hl ha hz hstash hnone hreload hhib hkept hvalid hfloor
  simp only [State.fwActivate, if_pos ha, hchecks, hsigned, Bool.false_eq_true, if_false]

theorem fwActivate_unreadable (hsigned : (b.fw.bank b.stagingB).signed = true) (hbad : c.stashBad = true) :
    b.fwActivate c = b.lostPage.finish c.tag [0x0501] 0 := by
  have hchecks := fwActivate_checks hl ha hz hstash hnone hreload hhib hkept hvalid hfloor
  simp only [State.fwActivate, if_pos ha, hchecks, hsigned, hbad, if_true]

theorem fwActivate_activates (hsigned : (b.fw.bank b.stagingB).signed = true) (hgood : c.stashBad = false) : b.fwActivate c = b.activate c 2 := by
  have hchecks := fwActivate_checks hl ha hz hstash hnone hreload hhib hkept hvalid hfloor
  simp only [State.fwActivate, if_pos ha, hchecks, hsigned, hgood, Bool.false_eq_true, if_false, if_true]
  rw [if_neg (by rw [ha]; decide), ha]

end

/-- Outside recovery the other bank becomes active and on trial, and the handover is awaited. -/
theorem activate_other {b : State} (hp : b.dev.castOnPhase ≠ 0xFE) (c : Cmd) :
    b.activate c 2 = { b.wear with fw := { b.fw with activeB := b.stagingB, trial := true, activation := some (c.tag, 2) } } := by
  have hrun : ¬ b.wear.dev.castOnPhase = 0xFE := hp
  rw [State.activate, if_neg hrun]
  cases hx : b.wear.fw.staging <;> rfl

/-! ### DARN_LOAD and SET_LATENCY_TOLERANCE (13 R383; 14 R396) -/

/-- A loaded pack that no test uses is deleted. -/
theorem darnLoad_deletes {b : State} {c : Cmd} (hl : c.badLayout = false) (ha : c.op 40 1 = 1) (hz : c.zero 41 3 = true) (hz' : c.zero 48 16 = true)
    (hstash : b.stashOk = true) (hidle : b.packInUse (BitVec.ofNat 32 (c.op 44 4)) = false)
    (hknown : b.stash.packs.any (fun p => p.id == BitVec.ofNat 32 (c.op 44 4)) = true) :
    b.darnLoad c = State.finish (State.wear { b with
      stash := { b.stash with packs := b.stash.packs.filter (fun p => p.id != BitVec.ofNat 32 (c.op 44 4)) } }) c.tag [0] 0 := by
  have hout : b.darnLoad c = b.packOut c := by
    rw [State.darnLoad, if_neg (by rw [ha]; decide), if_pos ha]
  have hchecks : firstFailure [(c.badLayout || !c.zero 41 3 || !c.zero 48 16 ||
      !(b.stash.packs.any (fun p => p.id == BitVec.ofNat 32 (c.op 44 4))), stBadField),
      (b.packInUse (BitVec.ofNat 32 (c.op 44 4)), stNoResource), (!b.stashOk, stDeviceFault)] = none :=
    firstFailure_none (by rw [hl, hz, hz', hknown, hidle, hstash]; simp)
  rw [hout]
  simp only [State.packOut, hchecks]

/-- A tolerance with sound operands is kept; the units that rest too deep wake, and the command ends once none does. -/
theorem setLatencyTolerance_sound {b : State} {c : Cmd} (hl : c.badLayout = false) (hhib : c.op 44 1 < 2) (hz : c.zero 45 19 = true) :
    b.setLatencyTolerance c = (State.exitDeeper { b with
      pw := { b.pw with tolerance := c.op 40 4, allowHib := c.op 44 1 == 1, tolWait := some c.tag } }).settleTolerance := by
  rw [State.setLatencyTolerance, if_neg (by simp [hl, hz, hhib])]

/-- Settles O5: each command by its operation, whose checks pass but for the one that the clause names. -/
theorem adminCommandsTaken : Obligations.AdminCommandsTaken := by
  unfold Obligations.AdminCommandsTaken
  rintro s b t src io f c rfl rfl hl
  refine ⟨fun x block h ho hp hhead hstash hblock hcrc hcont hx htag hlen => ?block,
    fun h ha hz hstash hphase hnone hreload hhib hkept hvalid hfloor =>
      ⟨fun hsigned => ?unsigned, fun hsigned hbad => ?unreadable, fun hsigned hgood => ?activates⟩,
    fun h ha hz hz' hstash hidle hknown => ?deletes, ?tolerance⟩
  case block => rw [exec_fwBlock h, fwBlock_continues hl ho hp hhead hstash hblock hcrc hcont hx htag hlen rfl]
  case unsigned => rw [exec_fwActivate h, fwActivate_unsigned hl ha hz hstash hnone hreload hhib hkept hvalid hfloor hsigned]
  case unreadable => rw [exec_fwActivate h, fwActivate_unreadable hl ha hz hstash hnone hreload hhib hkept hvalid hfloor hsigned hbad]
  case activates =>
    rw [exec_fwActivate h, fwActivate_activates hl ha hz hstash hnone hreload hhib hkept hvalid hfloor hsigned hgood, activate_other hphase]
  case deletes => rw [exec_darnLoad h, darnLoad_deletes hl ha hz hz' hstash hidle hknown]
  case tolerance =>
    rintro u h hhib hz rfl
    rw [exec_setLatencyTolerance h, setLatencyTolerance_sound hl hhib hz]
    rfl

/-! ### CHECKPOINT (12 R353, R358, R361) -/

section
variable {b : State} {c : Cmd} (hl : c.badLayout = false) (hz : (c.rev1 || c.zero 44 20) = true)
include hl hz

/-- Operands that keep to the layout of their action are not refused. -/
theorem ckptOperands_sound (ha : c.ckptAction ≤ 2) (hlist : c.ckptAction = 1 → c.ckptSet = 0)
    (hset : c.ckptAction ≠ 1 → c.ckptSet ≠ 0 ∧ c.ckptSet ≤ 4095) (hflags : c.ckptAction = 0 → c.ckptFlags < 2) :
    (c.badLayout || (!c.rev1 && !c.zero 44 20) || decide (2 < c.ckptAction) || (c.ckptAction == 1 && c.ckptSet != 0) ||
      (c.ckptAction != 1 && (c.ckptSet == 0 || decide (4095 < c.ckptSet))) || (c.ckptAction == 0 && decide (2 ≤ c.ckptFlags))) = false := by
  have hz0 : (!c.rev1 && !c.zero 44 20) = false := by rw [← Bool.not_or, hz]; rfl
  rw [hl, hz0]
  by_cases h1 : c.ckptAction = 1
  · simp [h1, hlist h1]
  · obtain ⟨hsome, hfew⟩ := hset h1
    simpa [h1, hsome, hfew, ha] using hflags

/-- With the content that it takes, a CHECKPOINT of action 0 that may begin waits its turn. -/
theorem checkpointCmd_writes {j : Job} {k : Ckpt} (ha : c.ckptAction = 0) (hflags : c.ckptFlags < 2) (hset : c.ckptSet ≠ 0)
    (hset' : c.ckptSet ≤ 4095) (hj : b.openJob? c.tag.jobId = some j) (hk : k = b.newCkpt j c.ckptSet c.ckptFlags)
    (hgood : b.ckptFault k = none) : b.checkpointCmd c = State.nextRun { b with stash := { b.stash with runs := b.stash.runs ++
      [{ tag := c.tag, restore := false, set := c.ckptSet, slot := 0, job := j.id, started := false, image := some k, imageOk := true
         poisonHeld := b.sectionPoisoned k 2, poisonFree := b.sectionPoisoned k 3, poisonTables := b.tablePoison k }] } } := by
  subst hk
  have hsound := ckptOperands_sound hl hz (by omega) (by omega) (fun _ => ⟨hset, hset'⟩) fun _ => hflags
  have hlist : ¬ c.ckptAction = 1 := by rw [ha]; decide
  simp only [State.checkpointCmd, hsound, if_neg hlist, if_pos ha, hj, State.takeCkpt, hgood, Bool.false_eq_true, if_false]

/-- Action 1 answers the list of the slots where the Stash can rebuild it. -/
theorem checkpointCmd_lists (ha : c.ckptAction = 1) (hset : c.ckptSet = 0) (hstash : b.stashOk = true) :
    b.checkpointCmd c = if c.stashBad then b.lostPage.finish c.tag [0x0501] 0 else b.finishData c.tag [0] b.ckptList := by
  have hsound := ckptOperands_sound hl hz (by omega) (fun _ => hset) (by omega) (by omega)
  simp only [State.checkpointCmd, hsound, if_pos ha, hstash, Bool.not_true, Bool.false_eq_true, if_false]

/-- Action 2 empties a set that no run uses. -/
theorem checkpointCmd_deletes {j : Job} (ha : c.ckptAction = 2) (hset : c.ckptSet ≠ 0) (hset' : c.ckptSet ≤ 4095) (hstash : b.stashOk = true)
    (hj : b.openJob? c.tag.jobId = some j) (hidle : b.stash.runs.any (·.set == c.ckptSet) = false) :
    b.checkpointCmd c = State.finish
      (State.wear { b with stash := { b.stash with ckpts := b.stash.ckpts.filter (·.set != c.ckptSet) } }) c.tag [0] 0 := by
  have hsound := ckptOperands_sound hl hz (by omega) (by omega) (fun _ => ⟨hset, hset'⟩) (by omega)
  have hlist : ¬ c.ckptAction = 1 := by rw [ha]; decide
  have hwrite : ¬ c.ckptAction = 0 := by rw [ha]; decide
  have hchecks : firstFailure [(b.stash.runs.any (·.set == c.ckptSet), stNoResource), (!b.stashOk, stDeviceFault)] = none :=
    firstFailure_none (by rw [hidle, hstash]; simp)
  simp only [State.checkpointCmd, hsound, if_neg hlist, if_neg hwrite, hj, State.deleteSet, hchecks, Bool.false_eq_true, if_false]

end

/-! ### RESTORE (12 R362) -/

/-- A RESTORE that may begin waits its turn. -/
theorem restoreCmd_queues {b : State} {c : Cmd} {j : Job} (hl : c.badLayout = false)
    (hz : (if c.rev1 then decide (c.restoreSet ≤ 4095) else c.zero 43 21) = true) (hslot : c.restoreSlot ≤ 1)
    (hj : b.openJob? c.tag.jobId = some j) (hgood : b.restoreFault j c.restoreSet c.restoreSlot = none) (ok : Bool) :
    State.restoreCmd ok b c = State.nextRun { b with stash := { b.stash with runs := b.stash.runs ++
      [{ tag := c.tag, restore := true, set := c.restoreSet, slot := c.restoreSlot, job := j.id, started := false, image := none
         imageOk := ok, poisonHeld := false, poisonFree := false, poisonTables := [] }] } } := by
  have hz' : (if c.rev1 then decide (4095 < c.restoreSet) else !c.zero 43 21) = false := by
    cases hrev : c.rev1 <;> simpa [hrev] using hz
  have hsound : (c.badLayout || (if c.rev1 then decide (4095 < c.restoreSet) else !c.zero 43 21) || decide (1 < c.restoreSlot)) = false := by
    simp [hl, hz', hslot]
  simp only [State.restoreCmd, hsound, hj, hgood, Bool.false_eq_true, if_false]

/-- Settles O12: each action by its operation, whose checks pass. -/
theorem checkpointsQueued : Obligations.CheckpointsQueued := by
  unfold Obligations.CheckpointsQueued
  rintro s b t src io f c rfl rfl hl
  refine ⟨?write, fun h hz ha hset hstash => ?list, fun j h hz ha hset hset' hstash hj hidle => ?delete, ?restore⟩
  case write =>
    rintro j x h hz ha hflags hset hset' hj hgood rfl
    rw [exec_checkpoint h, checkpointCmd_writes hl hz ha hflags hset hset' hj rfl hgood]
  case list => rw [exec_checkpoint h, checkpointCmd_lists hl hz ha hset hstash]
  case delete => rw [exec_checkpoint h, checkpointCmd_deletes hl hz ha hset hset' hstash hj hidle]
  case restore =>
    rintro j ok x h hz hslot hj hgood rfl
    rw [exec_restore h, restoreCmd_queues hl hz hslot hj hgood]

end Sys2Proof.Machine
end

section
/-! SUPPORT. Stacked memory: what its reports leave, scrubs, repairs, retirements, retrains and temperatures, case by case, and the statement
MemoryErrors, settled by them. -/

namespace Sys2Proof.Machine

/-! ### What reports leave (12 R350; 13 R384) -/

@[simp] theorem raiseFault_mem (s : State) (bit : Nat) : (s.raiseFault bit).mem = s.mem :=
  eq_of_sans (p := State.mem) (fun _ => rfl) (raise_sans _ _)

@[simp] theorem cper_mem (s : State) (e : ErrEvent) : (s.cper e).mem = s.mem := eq_of_sans (p := State.mem) (fun _ => rfl) (cper_sans _ _)

/-- An event joins those that memory keeps, and memory is otherwise as it was. -/
theorem memEvent_mem (s : State) (kind stack device hole detail : Nat) :
    ∃ evs, (s.memEvent kind stack device hole detail).mem = { s.mem with events := evs } := ⟨_, cper_mem _ _⟩

/-- An event changes nothing but the events, and what an error record changes. -/
theorem memEvent_sans (s : State) (kind stack device hole detail : Nat) :
    ∃ evs, (s.memEvent kind stack device hole detail).sansEnds = ({ s with mem := { s.mem with events := evs } } : State).sansEnds :=
  ⟨_, cper_sans _ _⟩

@[simp] theorem memEvent_jobs (s : State) (kind stack device hole detail : Nat) :
    (s.memEvent kind stack device hole detail).jobs = s.jobs := by
  obtain ⟨evs, hsans⟩ := memEvent_sans s kind stack device hole detail
  exact (eq_of_sans (p := State.jobs) (fun _ => rfl) hsans :)

@[simp] theorem raiseFault_jobs (s : State) (bit : Nat) : (s.raiseFault bit).jobs = s.jobs :=
  eq_of_sans (p := State.jobs) (fun _ => rfl) (raise_sans _ _)

/-! ### A stack in the table -/

theorem stackTab_getD {a : State} {k : Nat} {y : Stack} (hy : a.mem.stackTab[k]? = some y) : a.mem.stackTab.getD k Stack.reset = y := by
  rw [List.getD_eq_getElem?_getD, hy, Option.getD_some]

theorem updStack_same {a : State} {k : Nat} {y : Stack} (hy : a.mem.stackTab[k]? = some y) (f : Stack → Stack) :
    (a.updStack k f).mem.stackTab[k]? = some (f y) := by
  simp [State.updStack, hy]

/-- What an update leaves of every stack, it leaves of each stack of the table, the updated one among them. -/
theorem updStack_keeps {β : Type} {p : Stack → β} {f : Stack → Stack} (h : ∀ y, p (f y) = p y) (s : State) (k i : Nat) :
    p ((s.updStack k f).mem.stackTab.getD i Stack.reset) = p (s.mem.stackTab.getD i Stack.reset) := by
  simp only [State.updStack, List.getD_eq_getElem?_getD, List.getElem?_modify]
  cases s.mem.stackTab[i]? with
  | none => rfl
  | some y => by_cases hk : k = i <;> simp [hk, h]

/-! ### PATROL_SCRUB (12 R340, R342, R348) -/

/-- Correcting an error poisons nothing. -/
theorem corrected_poisonedAt (a : State) (x y : Nat) : (a.corrected x).poisonedAt y = a.poisonedAt y := by
  have hstate := updStack_keeps (p := Stack.state) (f := fun (k : Stack) => { k with corrected := satAdd 32 k.corrected 1 }) (fun _ => rfl) a
    (a.homeStack (pageOf x)) (a.homeStack (pageOf y))
  exact congrArg (fun n => a.mem.poison.contains (y / granuleBytes) || (a.dev.stackLost && n == 2)) hstate

/-- An uncorrectable error is kept for its row. -/
theorem uncorrected_row (a : State) (x : Nat) : a.physOf (pageOf x) ∈ (a.uncorrected x).mem.uncorr := by
  have hpoison : ∀ (s : State) (y : Nat), (s.poisonGranule y).mem.uncorr = s.mem.uncorr := by
    intro s y
    unfold State.poisonGranule
    dsimp only
    split
    · rfl
    · obtain ⟨evs, hmem⟩ := memEvent_mem { s with mem := { s.mem with poison := y / granuleBytes :: s.mem.poison } } 3
        (s.homeStack (pageOf y)) (pageOf y * pageBytes) 0 1
      rw [hmem]
  rw [State.uncorrected, hpoison]
  dsimp only
  split
  · next hfound => exact List.contains_iff_mem.mp hfound
  · exact List.mem_cons_self

theorem patrolScrub_hot {a : State} {x : Nat} (h : 4 ≤ (a.mem.stackTab.getD (a.homeStack (pageOf x)) Stack.reset).step) (c u : Bool) :
    a.patrolScrub x c u = a := if_pos (.inl h)

section
variable {a : State} {x : Nat} (hcool : (a.mem.stackTab.getD (a.homeStack (pageOf x)) Stack.reset).step < 4) (hin : x < deviceBytes)
include hcool hin

theorem patrol_goes : ¬ (4 ≤ (a.mem.stackTab.getD (a.homeStack (pageOf x)) Stack.reset).step ∨ deviceBytes ≤ x) := by omega

theorem patrolScrub_clean (hp : a.poisonedAt x = false) (u : Bool) : a.patrolScrub x false u = if u then a.uncorrected x else a := by
  simp only [State.patrolScrub, if_neg (patrol_goes hcool hin), hp, Bool.false_eq_true, if_false]

theorem patrolScrub_corrects (hp : a.poisonedAt x = false) : a.patrolScrub x true false = a.corrected x := by
  simp only [State.patrolScrub, if_neg (patrol_goes hcool hin), corrected_poisonedAt, hp, Bool.false_eq_true, if_false, if_true]

theorem patrolScrub_poisoned (hp : a.poisonedAt x = true) (u : Bool) : a.patrolScrub x false u =
    a.updStack (a.homeStack (pageOf x)) (fun (y : Stack) => { y with uncorrectable := satAdd 32 y.uncorrectable 1 }) := by
  simp only [State.patrolScrub, if_neg (patrol_goes hcool hin), hp, Bool.false_eq_true, if_false, if_true]

end

/-! ### ROW_REPAIR (12 R344) -/

theorem repairable_iff (a : State) (p : Nat) : a.repairable p = true ↔ a.repairsOf p < 2 ∧ a.sparesUsed p < 4 := by
  rw [State.repairable, Bool.and_eq_true, decide_eq_true_iff, decide_eq_true_iff]

theorem rowFails_iff (a : State) (p : Nat) : a.rowFails p false = true ↔ a.physOf p ∈ a.mem.uncorr ∨
    8 ≤ (a.mem.corrected.filter (fun e => e.1 == a.physOf p && decide (a.stitch ≤ e.2 + 86400000000000))).length := by
  rw [State.rowFails, Bool.false_or, Bool.or_eq_true, List.contains_iff_mem, decide_eq_true_iff]
  rfl

/-- An error that is not reported again changes nothing. -/
theorem rowError_known (a : State) (x : Nat) : a.rowError x false = a := rfl

section
variable {a : State} {x : Nat} {u : Bool}

/-- A row that meets no condition is not repaired. -/
theorem rowRepair_sound (h : a.rowFails (pageOf x) u = false) : a.rowRepair x u = a := if_pos (by simp [h])

/-- A row that has no repair left is not repaired. -/
theorem rowRepair_spent (h : a.repairable (pageOf x) = false) : a.rowRepair x u = a := if_pos (by simp [h])

/-- A row that meets no condition keeps its page. -/
theorem pageRetirement_sound (h : a.rowFails (pageOf x) u = false) : a.pageRetirement x u = a := if_pos (by simp [h])

end

section
variable {a : State} {x p : Nat} (hp : p = pageOf x) (hhole : a.isHole p = false) (hfails : a.rowFails p false = true)
include hp hhole hfails

/-- A spare row takes the place of a failing one. -/
theorem rowRepair_repairs (hspare : a.repairable p = true) {b : State} (hb : b = a.updStack (a.homeStack p) (fun (y : Stack) =>
      { y with repairs := satAdd 32 y.repairs 1, spareRowsLeft := y.spareRowsLeft - 1 })) :
    a.rowRepair x false = State.memEvent { b with mem := { b.mem with
      repairs := (a.physOf p, a.repairsOf p + 1) :: b.mem.repairs.filter (·.1 != a.physOf p)
      bankSpares := (a.bankOfPage p, a.sparesUsed p + 1) :: b.mem.bankSpares.filter (·.1 != a.bankOfPage p)
      corrected := b.mem.corrected.filter (·.1 != a.physOf p)
      uncorr := b.mem.uncorr.filter (· != a.physOf p) } } 1 (a.homeStack p) (p * pageBytes) 0 (a.repairsOf p + 1) := by
  subst hp hb
  have hgo : ¬ (a.isHole (pageOf x) || !a.rowFails (pageOf x) false || !a.repairable (pageOf x)) = true := by simp [hhole, hfails, hspare]
  rw [State.rowRepair, if_neg hgo, rowError_known]

/-- The page of a failing row that has no repair left is retired. -/
theorem pageRetirement_retires (hspent : a.repairable p = false) : a.pageRetirement x false = a.retirePage p := by
  subst hp
  have hgo : ¬ (a.isHole (pageOf x) || !a.rowFails (pageOf x) false || a.repairable (pageOf x)) = true := by simp [hhole, hfails, hspent]
  rw [State.pageRetirement, if_neg hgo, rowError_known]

end

/-! ### PAGE_RETIREMENT (12 R345, R346) -/

section
variable {a : State} {p : Nat}

theorem retirePage_first {h : Nat} (h1 : a.source1 = some h) : a.retirePage p = a.retired p h := by
  simp only [State.retirePage, h1]

theorem retirePage_second {id : Word} {h k : Nat} (h1 : a.source1 = none) (h2 : a.source2 p = some (id, h, k)) :
    a.retirePage p = State.memEvent ((a.updJob id (fun (j : Job) => { j with pool := j.pool.modify k (· - 1) })).retired p h) 8
      (a.homeStack h) (p * pageBytes) (h * pageBytes) 0 := by
  simp only [State.retirePage, h1, h2]

theorem retirePage_deferred (h1 : a.source1 = none) (h2 : a.source2 p = none) :
    a.retirePage p = { a with mem := { a.mem with deferred := a.mem.deferred.filter (· != p) ++ [p] } } := by
  simp only [State.retirePage, h1, h2]

end

/-- What a retirement makes of memory. -/
theorem retired_mem (a : State) (p h : Nat) : ∃ evs, (a.retired p h).mem = { a.mem with
    events := evs
    stackTab := a.mem.stackTab.modify (a.homeStack p) (fun x => { x with retired := x.retired + 1 })
    holes := h :: a.mem.holes
    pageMap := if a.physOf h = p ∨ p = h then a.mem.pageMap.filter (fun e => e.1 != p && e.1 != h)
      else (p, a.physOf h) :: a.mem.pageMap.filter (fun e => e.1 != p && e.1 != h)
    physRetired := (a.physOf p, a.homeStack p) :: a.mem.physRetired
    uncorr := a.mem.uncorr.filter (· != a.physOf p)
    poison := a.mem.poison.filter (fun g => g / pageGranules != h) } := by
  obtain ⟨evs, hmem⟩ := memEvent_mem (State.raiseFault { a.updStack (a.homeStack p) (fun x => { x with retired := x.retired + 1 }) with
    mem := { (a.updStack (a.homeStack p) (fun x => { x with retired := x.retired + 1 })).mem with
      holes := h :: a.mem.holes
      pageMap := if a.physOf h = p ∨ p = h then a.mem.pageMap.filter (fun e => e.1 != p && e.1 != h)
        else (p, a.physOf h) :: a.mem.pageMap.filter (fun e => e.1 != p && e.1 != h)
      physRetired := (a.physOf p, a.homeStack p) :: a.mem.physRetired
      uncorr := a.mem.uncorr.filter (· != a.physOf p)
      poison := a.mem.poison.filter (fun g => g / pageGranules != h) }
    dev := { a.dev with usablePages := a.dev.usablePages - 1, retiredPages := a.dev.retiredPages + 1 } } 2) 2 (a.homeStack p) (p * pageBytes)
    (h * pageBytes) 0
  exact ⟨evs, hmem.trans (by rw [raiseFault_mem]; rfl)⟩

/-- A retired page has the physical page that was behind its replacement. -/
theorem retired_physOf (a : State) {p h : Nat} (hne : p ≠ h) : (a.retired p h).physOf p = a.physOf h := by
  have hrest : (a.mem.pageMap.filter (fun e => e.1 != p && e.1 != h)).lookup p = none := by
    rw [List.lookup_eq_none_iff]
    intro e he
    obtain ⟨-, he⟩ := List.mem_filter.mp he
    obtain ⟨he, -⟩ := Bool.and_eq_true_iff.mp he
    exact bne_iff_ne.mpr (Ne.symm (bne_iff_ne.mp he))
  obtain ⟨evs, hmem⟩ := retired_mem a p h
  rw [State.physOf, hmem]
  dsimp only
  by_cases hown : a.physOf h = p
  · rw [if_pos (.inl hown), hrest, hown]
    rfl
  · rw [if_neg (not_or.mpr ⟨hown, hne⟩), List.lookup_cons_self]
    rfl

/-- The replacement becomes a hole, without poison of its own; the counts of pages follow, and contents and jobs stay. -/
theorem retired_effect (a : State) (p h : Nat) : (a.retired p h).isHole h = true ∧ (a.retired p h).dev.retiredPages = a.dev.retiredPages + 1 ∧
    (a.retired p h).dev.usablePages = a.dev.usablePages - 1 ∧ (a.retired p h).mem.cells = a.mem.cells ∧
    (∀ g, g ∈ (a.retired p h).mem.poison ↔ g ∈ a.mem.poison ∧ g / 32 ≠ h) ∧ (a.retired p h).jobs = a.jobs := by
  obtain ⟨evs, hmem⟩ := retired_mem a p h
  refine ⟨?hole, ?retiredPages, ?usablePages, by rw [hmem], fun g => ?poison, ?jobs⟩
  case hole => rw [State.isHole, hmem]; simp
  case retiredPages => simp [State.retired]
  case usablePages => simp [State.retired]
  case poison => rw [hmem]; simp [pageGranules]
  case jobs => simp [State.retired]

/-! ### STACK_INTERFACE_RETRAIN (12 R341) -/

section
variable {a : State} {k : Nat} {y : Stack} (hy : a.mem.stackTab[k]? = some y)
include hy

theorem stackRetrain_begins (h1 : y.state ≠ 1) (h2 : y.state ≠ 2) (ok : Bool) : a.stackRetrain k ok = a.beginRetrain k := by
  simp only [State.stackRetrain, stackTab_getD hy, if_neg h1, if_neg h2]

theorem stackRetrain_ends (h1 : y.state = 1) (ok : Bool) : a.stackRetrain k ok =
    if !ok || decide (y.recentRetrains.headD 0 + 400000 < a.stitch) || decide (3 ≤ y.recentRetrains.length) then
      (a.loseStack k).serveBar2.drainSpill
    else ((a.updStack k (fun z => { z with state := 0 })).memEvent 5 k 0 0 0).serveBar2.drainSpill := by
  have h2 : ¬ y.state = 2 := by rw [h1]; decide
  simp only [State.stackRetrain, State.endRetrain, stackTab_getD hy, if_neg h2, if_pos h1]
  rfl

theorem stackRetrain_lost (h2 : y.state = 2) (ok : Bool) : a.stackRetrain k ok = a := by
  simp only [State.stackRetrain, stackTab_getD hy, if_pos h2]

end

/-! ### The thermal steps (12 R347) -/

/-- A step is entered at its threshold and held down to 3 °C below it, so none is kept that lies farther above the temperature. -/
theorem thermalStep_le {now temp n : Nat} (h : ∀ k ∈ [5, 4, 3, 2, 1], n < k → temp + 3 ≤ thermalAt k) : thermalStep now temp ≤ n := by
  unfold thermalStep
  cases hk : [5, 4, 3, 2, 1].find? (fun k => decide (thermalAt k ≤ temp) || (decide (k ≤ now) && decide (thermalAt k < temp + 3))) with
  | none => exact Nat.zero_le n
  | some k =>
    have hwarm := List.find?_some hk
    have hfar := h k (List.mem_of_find?_eq_some hk)
    simp only [Bool.or_eq_true, Bool.and_eq_true, decide_eq_true_eq] at hwarm
    rw [Option.getD_some]
    omega

theorem thermalStep_cold {now temp : Nat} (h : temp < 82) : thermalStep now temp = 0 :=
  Nat.le_zero.mp (thermalStep_le (by simp [thermalAt]; omega))

theorem thermalStep_below_hot {now temp : Nat} (h : temp < 92) : thermalStep now temp < 4 :=
  Nat.lt_succ_of_le (thermalStep_le (by simp [thermalAt]; omega))

theorem thermalStep_hottest {now temp : Nat} (h : 100 ≤ temp) : thermalStep now temp = 5 := by
  have hfive : (decide (thermalAt 5 ≤ temp) || (decide (5 ≤ now) && decide (thermalAt 5 < temp + 3))) = true := by
    rw [decide_eq_true (show thermalAt 5 ≤ temp from h), Bool.true_or]
  rw [thermalStep, List.find?_cons, hfive]
  rfl

theorem thermalStep_hot {now temp : Nat} (h : 95 ≤ temp) : 4 ≤ thermalStep now temp := by
  have hfour : (decide (thermalAt 4 ≤ temp) || (decide (4 ≤ now) && decide (thermalAt 4 < temp + 3))) = true := by
    rw [decide_eq_true (show thermalAt 4 ≤ temp from h), Bool.true_or]
  rw [thermalStep, List.find?_cons, List.find?_cons, hfour]
  split
  · decide
  · rfl

/-! ### STACK_TEMPERATURE_SAMPLE (12 R347, R348) -/

/-- The step of a stack. -/
def State.stepOf (s : State) (k : Nat) : Nat := (s.mem.stackTab.getD k Stack.reset).step

/-- A stack takes its temperature and the step that it sets. -/
def Stack.sampled (temp : Nat) (y : Stack) (old : Nat) : Stack :=
  { y with temp := temp, step := thermalStep old temp
           stepEntries := if old = 0 ∧ 1 ≤ thermalStep old temp then satAdd 32 y.stepEntries 1 else y.stepEntries }

/-- A change of step is reported. -/
def State.reportStep (s : State) (k old new : Nat) : State := if old = new then s else (s.raiseFault 6).memEvent 6 k 0 0 new

/-- A stack at step 4 or above holds the launches, until every stack is cool. -/
def State.thermalHeld (s : State) : State :=
  { s with pw := { s.pw with thermalHold := s.mem.stackTab.any (fun x => decide (4 ≤ x.step)) ||
    (s.pw.thermalHold && !s.mem.stackTab.all (fun x => decide (x.temp < 92))) } }

/-- What a temperature does itself, before accesses and spill writes that waited for it are looked at. -/
def State.heated (s : State) (k temp : Nat) : State :=
  let w := ((s.updStack k (fun y => y.sampled temp (s.stepOf k))).reportStep k (s.stepOf k) (thermalStep (s.stepOf k) temp)).thermalHeld
  if 4 ≤ thermalStep (s.stepOf k) temp ∧ w.pw.module = 3 then w.wakeModule else w

/-- The state without what `heated` changes, and without what the ending of a command may change. -/
def State.sansHeat (s : State) : State :=
  { s.sansEnds with mem := { s.mem with stackTab := [], events := [] }, pw := State.reset.pw
                    stash := { s.sansEnds.stash with hibernate := none } }

/-- What `heated` and the ending of a command leave of every state, two states have in common that are equal but for those. -/
theorem eq_of_sansHeat {β : Type} {p : State → β} (hp : ∀ x : State, p x.sansHeat = p x) {x y : State} (h : x.sansHeat = y.sansHeat) :
    p x = p y := by
  rw [← hp x, h, hp y]

theorem sansHeat_of_sans {x y : State} (h : x.sansEnds = y.sansEnds) : x.sansHeat = y.sansHeat :=
  eq_of_sans (p := State.sansHeat) (fun _ => rfl) h

theorem wakeModule_sansHeat (s : State) : s.wakeModule.sansHeat = s.sansHeat := by
  unfold State.wakeModule; split <;> rfl

theorem reportStep_sansHeat (s : State) (k old new : Nat) : (s.reportStep k old new).sansHeat = s.sansHeat := by
  unfold State.reportStep
  split
  · rfl
  · obtain ⟨evs, hsans⟩ := memEvent_sans (s.raiseFault 6) 6 k 0 0 new
    have hraised : (s.raiseFault 6).sansHeat = s.sansHeat := sansHeat_of_sans (raise_sans s _)
    exact (sansHeat_of_sans hsans).trans hraised

/-- A temperature changes only its stack, the events, the power block, an image that hibernation drops, and what reports change. -/
theorem heated_sansHeat (s : State) (k temp : Nat) : (s.heated k temp).sansHeat = s.sansHeat := by
  have hreport := reportStep_sansHeat (s.updStack k (fun y => y.sampled temp (s.stepOf k))) k (s.stepOf k) (thermalStep (s.stepOf k) temp)
  unfold State.heated
  dsimp only
  split
  · exact (wakeModule_sansHeat _).trans hreport
  · exact hreport

/-- Where a module is woken or not, what waking leaves stays. -/
theorem ite_wakeModule {β : Type} {p : State → β} (h : ∀ s : State, p s.wakeModule = p s) (c : Prop) [Decidable c] (s : State) :
    p (if c then s.wakeModule else s) = p s := by
  split
  · exact h s
  · rfl

@[simp] theorem wakeModule_mem (s : State) : s.wakeModule.mem = s.mem := by unfold State.wakeModule; split <;> rfl

@[simp] theorem wakeModule_rings (s : State) : s.wakeModule.rings = s.rings := by unfold State.wakeModule; split <;> rfl

@[simp] theorem wakeModule_intr (s : State) : s.wakeModule.intr = s.intr := by unfold State.wakeModule; split <;> rfl

@[simp] theorem wakeModule_cperLog (s : State) : s.wakeModule.stash.cper = s.stash.cper := by unfold State.wakeModule; split <;> rfl

@[simp] theorem wakeModule_thermalHold (s : State) : s.wakeModule.pw.thermalHold = s.pw.thermalHold := by
  unfold State.wakeModule; split <;> rfl

theorem reportStep_stackTab (s : State) (k old new : Nat) : (s.reportStep k old new).mem.stackTab = s.mem.stackTab := by
  unfold State.reportStep
  split
  · rfl
  · obtain ⟨evs, hmem⟩ := memEvent_mem (s.raiseFault 6) 6 k 0 0 new
    rw [hmem, raiseFault_mem]

theorem reportStep_rings (s : State) (k old new : Nat) : (s.reportStep k old new).rings = s.rings := by
  unfold State.reportStep
  split
  · rfl
  · exact (cper_rings _ _).1.trans (raise_rings _ _)

section
variable {a : State} {k : Nat} {y : Stack} (hy : a.mem.stackTab[k]? = some y) (temp : Nat)

include hy in
theorem stepOf_eq : a.stepOf k = y.step := congrArg Stack.step (stackTab_getD hy)

include hy in
/-- The stack that was sampled. -/
theorem heated_stack : (a.heated k temp).mem.stackTab[k]? = some (y.sampled temp y.step) := by
  unfold State.heated
  dsimp only
  rw [ite_wakeModule (p := fun s => s.mem.stackTab[k]?) fun s => by rw [wakeModule_mem]]
  exact (congrArg (·[k]?) (reportStep_stackTab _ _ _ _)).trans (by rw [updStack_same hy, stepOf_eq hy])

theorem heated_rings : (a.heated k temp).rings = a.rings := by
  unfold State.heated
  dsimp only
  rw [ite_wakeModule (p := State.rings) wakeModule_rings]
  exact reportStep_rings _ _ _ _

include hy in
/-- A temperature within the step reports nothing. -/
theorem heated_quiet (hsame : thermalStep y.step temp = y.step) :
    (a.heated k temp).intr = a.intr ∧ (a.heated k temp).stash.cper = a.stash.cper := by
  have hquiet : ∀ s : State, s.reportStep k (a.stepOf k) (thermalStep (a.stepOf k) temp) = s := fun s =>
    if_pos (by rw [stepOf_eq hy, hsame])
  unfold State.heated
  dsimp only
  rw [ite_wakeModule (p := State.intr) wakeModule_intr, ite_wakeModule (p := fun s => s.stash.cper) wakeModule_cperLog, hquiet]
  exact ⟨rfl, rfl⟩

include hy in
/-- At step 4 and above launches are held. -/
theorem heated_holds (hhot : 4 ≤ thermalStep y.step temp) : (a.heated k temp).pw.thermalHold = true := by
  have hstack := heated_stack hy temp
  unfold State.heated at hstack ⊢
  dsimp only at hstack ⊢
  rw [ite_wakeModule (p := fun s => s.mem.stackTab[k]?) fun s => by rw [wakeModule_mem]] at hstack
  rw [ite_wakeModule (p := fun s => s.pw.thermalHold) wakeModule_thermalHold]
  rw [State.thermalHeld, Bool.or_eq_true]
  exact .inl (List.any_eq_true.mpr ⟨_, List.mem_of_getElem? hstack, decide_eq_true (p := 4 ≤ (y.sampled temp y.step).step) hhot⟩)

end

/-- Where no access waits none is served. -/
theorem serveBar2_noneWaits {s : State} (h : s.bar2Wait = []) : s.serveBar2 = s := by
  have hsame : { s with bar2Wait := [] } = s := by rw [← h]
  rw [State.serveBar2, h]
  exact hsame

/-- Where no access waits none is aborted. -/
theorem abortOverdue_noneWaits {s : State} (h : s.bar2Wait = []) : s.abortOverdue = s := by
  rw [State.abortOverdue, h]
  rfl

/-- Where no spill write waits none is done. -/
theorem drainSpill_noneQueued {s : State} (h : ∀ j ∈ s.jobs, ∀ r, j.ring = some r → r.queued = []) : s.drainSpill = s := by
  refine (List.foldl_ext _ (fun x _ => x) s fun x j hj => ?_).trans (List.foldl_fixed s.jobs)
  cases hr : j.ring with
  | none => rfl
  | some r => exact if_pos (by rw [h j hj r hr, List.isEmpty_nil, Bool.true_or])

/-- Where nothing waits for a stack, a temperature does no more than what it does itself. -/
theorem stackTemperature_noneWaits {a : State} (hwait : a.bar2Wait = []) (hqueued : ∀ j ∈ a.jobs, ∀ r, j.ring = some r → r.queued = [])
    (k temp : Nat) : a.stackTemperature k temp = a.heated k temp := by
  have hsans := heated_sansHeat a k temp
  have hwait' : (a.heated k temp).bar2Wait = [] := (eq_of_sansHeat (p := State.bar2Wait) (fun _ => rfl) hsans).trans hwait
  have hjobs : (a.heated k temp).jobs = a.jobs := eq_of_sansHeat (p := State.jobs) (fun _ => rfl) hsans
  have hown : a.stackTemperature k temp = (a.heated k temp).serveBar2.drainSpill := by
    rw [State.stackTemperature, abortOverdue_noneWaits hwait]
    rfl
  rw [hown, serveBar2_noneWaits hwait', drainSpill_noneQueued (by rw [hjobs]; exact hqueued)]

section
variable {s a : State} {t : Stitch} (h : s.Reached t a)
include h

theorem exec_patrolScrub (x : Nat) (c u : Bool) : exec (.patrolScrub t x c u) s = .next (a.patrolScrub x c u) :=
  act_reached (f := (·.patrolScrub x c u)) h

theorem exec_rowRepair (x : Nat) (u : Bool) : exec (.rowRepair t x u) s = .next (a.rowRepair x u) := act_reached (f := (·.rowRepair x u)) h

theorem exec_pageRetirement (x : Nat) (u : Bool) : exec (.pageRetirement t x u) s = .next (a.pageRetirement x u) :=
  act_reached (f := (·.pageRetirement x u)) h

theorem exec_stackInterfaceRetrain (k : Nat) (ok : Bool) : exec (.stackInterfaceRetrain t k ok) s = .next (a.stackRetrain k ok) :=
  act_reached (f := (·.stackRetrain k ok)) h

theorem exec_stackTemperatureSample (k temp : Nat) : exec (.stackTemperatureSample t k temp) s = .next (a.stackTemperature k temp) :=
  act_reached (f := (·.stackTemperature k temp)) h

end

/-- Settles O49: a scrub by the step of the stack and the poison of the granule, a failing row by its repairs and spares, a retired page by the
first source there is, a retrain by the state of the stack, and a temperature by the thresholds. -/
theorem memoryErrors : Obligations.MemoryErrors := by
  unfold Obligations.MemoryErrors
  intro s a t h
  have hscrub := exec_patrolScrub h
  have hrepair := exec_rowRepair h
  have hretire := exec_pageRetirement h
  have hretrain := exec_stackInterfaceRetrain h
  refine ⟨?scrub, fun x c u hhot => ?hot, ?repair, repairable_iff a, rowFails_iff a, uncorrected_row a, fun x u hsound => ?sound,
    fun x p hp hhole hfails hspent => ⟨?spent, fun d h1 => ?first, fun id d k h1 h2 => ?second, fun h1 h2 => ?deferred⟩,
    fun p d => ?retired, fun k y hy => ⟨fun h1 h2 ok => ?begins, fun h1 hfew htime => ?serves, fun ok h1 hlost => ?loses, fun h2 ok => ?out⟩,
    fun k temp y hy hwait hqueued => ?temperature,
    fun now temp => ⟨thermalStep_cold, thermalStep_hottest, thermalStep_hot, thermalStep_below_hot⟩⟩
  case scrub =>
    rintro x k rfl hcool hin
    refine ⟨fun hclean => ⟨?none, ?corrects, ?poisons⟩, fun hpoison u => ?poisoned⟩
    case none => rw [hscrub, patrolScrub_clean hcool hin hclean]; rfl
    case corrects => rw [hscrub, patrolScrub_corrects hcool hin hclean]
    case poisons => rw [hscrub, patrolScrub_clean hcool hin hclean]; rfl
    case poisoned => rw [hscrub, patrolScrub_poisoned hcool hin hpoison]
  case hot => rw [hscrub, patrolScrub_hot hhot]
  case repair =>
    rintro x p k ph b hp rfl rfl hhole hfails hspare hb
    rw [hrepair, rowRepair_repairs hp hhole hfails hspare hb]
  case sound => exact ⟨by rw [hrepair, rowRepair_sound hsound], by rw [hretire, pageRetirement_sound hsound]⟩
  case spent => rw [hrepair, rowRepair_spent (hp ▸ hspent)]
  case first => rw [hretire, pageRetirement_retires hp hhole hfails hspent, retirePage_first h1]
  case second => rw [hretire, pageRetirement_retires hp hhole hfails hspent, retirePage_second h1 h2]
  case deferred => rw [hretire, pageRetirement_retires hp hhole hfails hspent, retirePage_deferred h1 h2]
  case retired =>
    obtain ⟨hhole, hretired, husable, hcells, hpoison, hjobs⟩ := retired_effect a p d
    exact ⟨hhole, hretired, husable, hcells, hpoison, hjobs, retired_physOf a⟩
  case begins => rw [hretrain, stackRetrain_begins hy h1 h2]; rfl
  case serves =>
    rw [hretrain, stackRetrain_ends hy h1, decide_eq_false (Nat.not_lt.mpr htime), decide_eq_false (Nat.not_le.mpr hfew)]
    rfl
  case loses =>
    rw [hretrain, stackRetrain_ends hy h1, if_pos]
    rcases hlost with rfl | hmany | hlate
    · rfl
    · rw [decide_eq_true hmany, Bool.or_true]
    · rw [decide_eq_true hlate, Bool.or_true, Bool.true_or]
  case out => rw [hretrain, stackRetrain_lost hy h2]
  case temperature =>
    have hsans := heated_sansHeat a k temp
    exact ⟨a.heated k temp, y.sampled temp y.step, by rw [exec_stackTemperatureSample h, stackTemperature_noneWaits hwait hqueued],
      heated_stack hy temp, rfl, rfl, heated_quiet hy temp, heated_holds hy temp, eq_of_sansHeat (p := fun x => x.mem.cells) (fun _ => rfl) hsans,
      eq_of_sansHeat (p := State.jobs) (fun _ => rfl) hsans, eq_of_sansHeat (p := State.courses) (fun _ => rfl) hsans, heated_rings temp⟩

end Sys2Proof.Machine
end

section
/-! SUPPORT. The work of the Stash: channels, scrubs of blocks, moves between blocks, and the ends of checkpoints and restores, case by case, and the
statement StashWork, settled by them. -/

namespace Sys2Proof.Machine

/-! ### STASH_CHANNEL_CHANGE (12 R351; 13 R386) -/

section
variable {a : State} {c : Nat} {bit : BitVec 16} {e : ErrEvent} (hc : c < 16) (hbit : bit = BitVec.ofNat 16 (2 ^ c))
  (he : e = { cls := 6, sev := sevCorrected, unit := 186, detail := [BitVec.ofNat 8 c] })

include hc hbit he

/-- A channel that fails is reported in the log of the Stash that it has served. -/
theorem stashChannel_fails (h : a.stash.channels.getLsbD c = true) {b : State} (hb : b = a.cper e) : a.stashChannel c false =
    State.raiseFault { b with stash := { b.stash with channels := b.stash.channels &&& ~~~bit } } 5 := by
  subst hbit he hb
  have hgo : ¬ (16 ≤ c ∨ a.stash.channels.getLsbD c = false) := by rw [h]; simp [hc]
  rw [State.stashChannel, if_neg hgo]
  rfl

/-- A channel that returns is reported in the log of the Stash that it serves again. -/
theorem stashChannel_returns (h : a.stash.channels.getLsbD c = false) {d : State}
    (hd : d = State.cper { a with stash := { a.stash with channels := a.stash.channels ||| bit } } e) :
    a.stashChannel c true = d.raiseFault 5 := by
  subst hbit he hd
  have hgo : ¬ (16 ≤ c ∨ a.stash.channels.getLsbD c = true) := by rw [h]; simp [hc]
  rw [State.stashChannel, if_neg hgo]
  rfl

end

/-! ### RETENTION_SCRUB and WEAR_LEVEL_MOVE (12 R355, R356) -/

section
variable {a : State} {b d : Nat}

/-- A block past its date is rewritten. -/
theorem retentionScrub_due (hdue : a.scrubDue b = true) (hcast : a.dev.castOnComplete = true) : a.retentionScrub b =
    State.flashWear { a.free.2 with stash := { a.stash with
      scrubbed := (b, (a.stitch : Int)) :: a.stash.scrubbed.filter (·.1 != b), bytesWritten := a.stash.bytesWritten + a.free.1.toNat } } := by
  rw [State.retentionScrub, if_neg (by simp [hdue, hcast])]
  rfl

/-- A block that is not past its date, or one before cast-on has completed, is left. -/
theorem retentionScrub_notDue (h : a.scrubDue b = false ∨ a.dev.castOnComplete = false) : a.retentionScrub b = a := by
  rw [State.retentionScrub, if_pos]
  rcases h with hdue | hcast
  · rw [hdue]; rfl
  · rw [hcast, Bool.not_false, Bool.or_true]

/-- The data of a block move to one of its area that is worn by more than 500 erases beyond it. -/
theorem wearMove_uneven (harea : b / 2 ^ 28 = d / 2 ^ 28) (hworn : a.erasesOf b + 500 < a.erasesOf d) : a.wearMove b d =
    State.flashWear { a with stash := { a.stash with
      erases := (b, a.erasesOf b + 1) :: a.stash.erases.filter (·.1 != b)
      scrubbed := (d, (a.stitch : Int)) :: a.stash.scrubbed.filter (fun e => e.1 != d && e.1 != b) } } := by
  have hgo : ¬ (areaOf b ≠ areaOf d ∨ a.erasesOf d ≤ a.erasesOf b + 500) := by
    rintro (hother | heven)
    · exact hother harea
    · omega
  rw [State.wearMove, if_neg hgo]

/-- Between blocks of different areas, or worn alike, nothing moves. -/
theorem wearMove_even (h : b / 2 ^ 28 ≠ d / 2 ^ 28 ∨ a.erasesOf d ≤ a.erasesOf b + 500) : a.wearMove b d = a := if_pos h

end

/-! ### CHECKPOINT_WRITE_DONE and RESTORE_DONE (12 R348, R359, R363) -/

theorem writeDone_noRun {a : State} (h : a.stash.runs = []) (ok : Bool) : a.writeDone ok = a := by
  simp only [State.writeDone, h]

theorem restoreDone_noRun {a : State} (h : a.stash.runs = []) (bad : Option Nat) : a.restoreDone bad = a := by
  simp only [State.restoreDone, h]

section
variable {a : State} {r : CkptRun} {k : Ckpt} {rest : List CkptRun} (hr : a.stash.runs = r :: rest) (hk : r.image = some k)

include hr hk in
/-- While the copy pauses it does not end. -/
theorem done_paused (hpaused : a.ckptPaused k = true) : (∀ ok, a.writeDone ok = a) ∧ ∀ bad, a.restoreDone bad = a := by
  constructor
  · intro ok
    simp only [State.writeDone, hr, hk, hpaused, Bool.or_true, if_true]
  · intro bad
    simp only [State.restoreDone, hr, hk, hpaused, Bool.or_true, if_true]

include hr hk in
/-- A RESTORE does not end as a CHECKPOINT does. -/
theorem writeDone_restore (hrestore : r.restore = true) (ok : Bool) : a.writeDone ok = a := by
  simp only [State.writeDone, hr, hk, hrestore, Bool.true_or, if_true]

variable (hs : r.started = true) (hgo : a.ckptPaused k = false)
include hr hk hs hgo

/-- A copy that has been written is committed where the Stash serves and the copy met no poison, and otherwise has failed. -/
theorem writeDone_copied (hwrite : r.restore = false) {p : Bool × State} (hp : p = a.copyPoisoned r k) (ok : Bool) : a.writeDone ok =
    if ok && p.2.stashOk && !p.1 then (p.2.flashWear.commitSlot r k).nextRun else (p.2.flashWear.failWrite r k).nextRun := by
  subst hp
  simp only [State.writeDone, hr, hk, hwrite, hs, hgo, Bool.not_true, Bool.or_self, Bool.false_eq_true, if_false]

variable (hrestore : r.restore = true)
include hrestore

/-- While the Stash serves, a RESTORE ends with its first bad section, whose data are lost, or well. -/
theorem restoreDone_served (hstash : a.stashOk = true) (bad : Option Nat) :
    a.restoreDone bad = (if bad.isSome then a.lostPage else a).flashWear.endRestore r k bad 0x0501 := by
  simp only [State.restoreDone, hr, hk, hrestore, hs, hgo, hstash, Bool.not_true, Bool.or_self, Bool.false_eq_true, if_false, if_true]

/-- A RESTORE fails with the Stash, after a free number of sections. -/
theorem restoreDone_failed (hstash : a.stashOk = false) (bad : Option Nat) : a.restoreDone bad =
    a.free.2.endRestore r k (some (a.free.1.toNat % (k.sections.length + 1))) 0x0600 := by
  simp only [State.restoreDone, hr, hk, hrestore, hs, hgo, hstash, Bool.not_true, Bool.or_self, Bool.false_eq_true, if_false]
  rfl

end

section
variable {s a : State} {t : Stitch} (h : s.Reached t a)
include h

theorem exec_stashChannelChange (c : Nat) (up : Bool) : exec (.stashChannelChange t c up) s = .next (a.stashChannel c up) :=
  act_reached (f := (·.stashChannel c up)) h

theorem exec_retentionScrub (b : Nat) : exec (.retentionScrub t b) s = .next (a.retentionScrub b) := act_reached (f := (·.retentionScrub b)) h

theorem exec_wearLevelMove (b d : Nat) : exec (.wearLevelMove t b d) s = .next (a.wearMove b d) := act_reached (f := (·.wearMove b d)) h

theorem exec_checkpointWriteDone (ok : Bool) : exec (.checkpointWriteDone t ok) s = .next (a.writeDone ok) := act_reached (f := (·.writeDone ok)) h

theorem exec_restoreDone (bad : Option Nat) : exec (.restoreDone t bad) s = .next (a.restoreDone bad) := act_reached (f := (·.restoreDone bad)) h

end

/-- Settles O50: a channel by whether it served, a block by its date and its erases, a copy by the stacks it needs, what it met and whether the Stash
serves. -/
theorem stashWork : Obligations.StashWork := by
  unfold Obligations.StashWork
  intro s a t h
  have hchannel := exec_stashChannelChange h
  have hscrub := exec_retentionScrub h
  have hmove := exec_wearLevelMove h
  have hwritten := exec_checkpointWriteDone h
  have hrestored := exec_restoreDone h
  refine ⟨fun c bit e b d hc hbit he hb hd => ⟨fun hup => ⟨?fails, ?serves⟩, fun hdown => ⟨?returns, ?out⟩⟩,
    fun b => ⟨fun hdue hcast => ?scrubbed, fun hnot => ?notDue⟩, fun b d => ⟨fun harea hworn => ?moved, fun heven => ?even⟩,
    fun r k rest p hr hk hs => ⟨fun hpaused => ?paused, fun hgo hwrite hp => ⟨fun hclean hstash => ?committed, fun hbad => ?unwritten, ?failed⟩,
      fun hgo hrestore => ⟨fun ok => ?waits, fun hstash => ?loaded, fun i hstash => ?partly, fun bad hstash => ?lost⟩⟩,
    fun hnone => ?noRun⟩
  case fails => rw [hchannel, stashChannel_fails hc hbit he hup hb]
  case serves => rw [hchannel, stashChannel_same hup]
  case returns => rw [hchannel, stashChannel_returns hc hbit he hdown hd]
  case out => rw [hchannel, stashChannel_same hdown]
  case scrubbed => rw [hscrub, retentionScrub_due hdue hcast]
  case notDue => rw [hscrub, retentionScrub_notDue hnot]
  case moved => rw [hmove, wearMove_uneven harea hworn]
  case even => rw [hmove, wearMove_even heven]
  case paused =>
    obtain ⟨hwrite, hrestore⟩ := done_paused hr hk hpaused
    exact ⟨fun ok => by rw [hwritten, hwrite], fun bad => by rw [hrestored, hrestore]⟩
  case committed => rw [hwritten, writeDone_copied hr hk hs hgo hwrite hp, hclean, hstash]; rfl
  case unwritten =>
    rw [hwritten, hwritten, writeDone_copied hr hk hs hgo hwrite hp, writeDone_copied hr hk hs hgo hwrite hp]
    rcases hbad with hpoison | hstash
    · rw [hpoison, Bool.not_true, Bool.and_false, Bool.and_false]
    · rw [hstash, Bool.and_false, Bool.and_false]
  case failed => rw [hwritten, writeDone_copied hr hk hs hgo hwrite hp]; rfl
  case waits => rw [hwritten, writeDone_restore hr hk hrestore]
  case loaded => rw [hrestored, restoreDone_served hr hk hs hgo hrestore hstash]; rfl
  case partly => rw [hrestored, restoreDone_served hr hk hs hgo hrestore hstash]; rfl
  case lost => rw [hrestored, restoreDone_failed hr hk hs hgo hrestore hstash]
  case noRun => exact ⟨fun ok => by rw [hwritten, writeDone_noRun hnone], fun bad => by rw [hrestored, restoreDone_noRun hnone]⟩

end Sys2Proof.Machine
end

section
/-! SUPPORT. Needles, swatches and test items: what a needle is after a change of it, what its retirement leaves, and the equations of the
operations on swatches and items, case by case; the statements SuspectNeedles, Swatches and TestItems, settled by them. -/

namespace Sys2Proof.Machine

/-! ### A needle and the others (13 R373, R374) -/

theorem needle_of_getElem? {s : State} {u : Nat} {n : Needle} (hn : s.needles[u]? = some n) : s.needle u = n := by
  rw [State.needle, List.getD_eq_getElem?_getD, hn, Option.getD_some]

theorem getElem?_updNeedle_same {s : State} {u : Nat} {n : Needle} (hn : s.needles[u]? = some n) (f : Needle → Needle) :
    (s.updNeedle u f).needles[u]? = some (f n) := by
  simp [State.updNeedle, hn]

theorem needle_updNeedle_same {s : State} {u : Nat} {n : Needle} (hn : s.needles[u]? = some n) (f : Needle → Needle) :
    (s.updNeedle u f).needle u = f n := needle_of_getElem? (getElem?_updNeedle_same hn f)

theorem needle_updNeedle_other (s : State) {u v : Nat} (hv : v ≠ u) (f : Needle → Needle) : (s.updNeedle u f).needle v = s.needle v := by
  simp [State.needle, State.updNeedle, List.getD_eq_getElem?_getD, Ne.symm hv]

/-- An update that leaves the count of clean tiles leaves it of every needle. -/
theorem updNeedle_clean {f : Needle → Needle} (h : ∀ n, (f n).clean = n.clean) (s : State) (u v : Nat) :
    ((s.updNeedle u f).needle v).clean = (s.needle v).clean := by
  by_cases hv : v = u
  · subst hv
    cases hn : s.needles[v]? with
    | none => simp [State.needle, State.updNeedle, List.getD_eq_getElem?_getD, hn]
    | some n => rw [needle_updNeedle_same hn, needle_of_getElem? hn, h]
  · rw [needle_updNeedle_other s hv]

/-! ### What a retirement leaves (01 R27; 13 R374) -/

theorem needle_congr {x y : State} (h : x.needles = y.needles) (v : Nat) : x.needle v = y.needle v := by rw [State.needle, State.needle, h]

@[simp] theorem raiseFault_needles (s : State) (bit : Nat) : (s.raiseFault bit).needles = s.needles :=
  eq_of_sans (p := State.needles) (fun _ => rfl) (raise_sans _ _)

@[simp] theorem cper_needles (s : State) (e : ErrEvent) : (s.cper e).needles = s.needles :=
  eq_of_sans (p := State.needles) (fun _ => rfl) (cper_sans _ _)

@[simp] theorem insertCourse_needles (s : State) (u : LUnit) (id : Nat) : (s.insertCourse u id).needles = s.needles := by
  unfold State.insertCourse
  dsimp only
  split
  · exact State.setQueue_needles _ _ _
  · rfl

/-- A course that follows its needle changes no needle. -/
@[simp] theorem followNeedle_needles (s : State) (l v u : Nat) (c : Course) : (s.followNeedle l v u c).needles = s.needles := by
  unfold State.followNeedle
  split
  · rfl
  · dsimp only
    split
    · rfl
    · split <;> split <;> simp [State.leaveQueue]

@[simp] theorem spareOf_needles (s : State) (u : Nat) : (s.spareOf u).2.needles = s.needles := by
  unfold State.spareOf
  dsimp only
  split
  · rfl
  · split <;> rfl

/-- A retirement, and the spare that takes over, leave every count of clean tiles. -/
@[simp] theorem retireNow_clean (s : State) (u reason v : Nat) : ((s.retireNow u reason).needle v).clean = (s.needle v).clean := by
  unfold State.retireNow
  extract_lets l pick sp s1 s2 s3
  have hfollow : ∀ (l w : Nat) (cs : List Course) (x : State),
      (cs.foldl (fun (x : State) c => x.followNeedle l w u c) x).needles = x.needles :=
    fun l w => foldl_keeps (p := State.needles) (fun x c => followNeedle_needles x l w u c)
  have hpick : pick.2.needles = s.needles := by
    rw [apply_ite Prod.snd, apply_ite State.needles, spareOf_needles, ite_self]
  have hretired : (s1.needle v).clean = (pick.2.needle v).clean := updNeedle_clean (by intro; rfl) _ _ _
  clear_value l sp s1
  have hmapped : s2.needles = s1.needles := by
    simp only [s2]
    split <;> rfl
  have hspare : (s3.needle v).clean = (s2.needle v).clean := by
    simp only [s3]
    split
    · rw [needle_congr (hfollow _ _ _ _), updNeedle_clean (by intro; rfl)]
    · rfl
  rw [needle_congr ((cper_needles _ _).trans (raiseFault_needles _ _)), hspare, needle_congr hmapped, hretired, needle_congr hpick]

@[simp] theorem retire_clean (s : State) (u reason v : Nat) : ((s.retire u reason).needle v).clean = (s.needle v).clean := by
  unfold State.retire
  split
  · rfl
  · split
    · exact updNeedle_clean (by intro; rfl) _ _ _
    · exact retireNow_clean _ _ _ _

/-! ### Suspicion (13 R371, R373, R374) -/

/-- A failed item makes its needle suspect and counts as one attributable mismatch, the third of which retires it. -/
theorem failedItem_eq (s : State) (u : Nat) : s.failedItem u =
    (let s1 := (s.updNeedle u (fun (x : Needle) => { x with failed := x.failed + 1 })).makeSuspect u
     let s2 := s1.updNeedle u (fun (x : Needle) => { x with attributable := x.attributable ++ [0] })
     if 3 ≤ (s2.needle u).attributable.length then s2.retire u 2 else s2) := rfl

section
variable {a : State} {u : Nat} {n : Needle} (hn : a.needles[u]? = some n)
include hn

/-- A needle that is not retired becomes suspect, and its tiles without incident begin anew. -/
theorem makeSuspect_needle (hstate : n.state ≠ .retired) :
    ((a.makeSuspect u).needle u).isSuspect = true ∧ ((a.makeSuspect u).needle u).clean = 0 := by
  rw [State.makeSuspect, needle_updNeedle_same hn]
  cases hcase : n.state with
  | retired => exact absurd hcase hstate
  | enabled => exact ⟨rfl, rfl⟩
  | suspect => exact ⟨by simp [Needle.isSuspect], rfl⟩
  | spare => exact ⟨Bool.or_true _, rfl⟩
  | pending => exact ⟨Bool.or_true _, rfl⟩

/-- A mismatch makes suspect the needle that takes part in it. -/
theorem mismatched_needle (hstate : n.state ≠ .retired) :
    ((a.mismatched u).needle u).isSuspect = true ∧ ((a.mismatched u).needle u).clean = 0 :=
  makeSuspect_needle (getElem?_updNeedle_same hn _) hstate

/-- A failed item ends a needle's tiles without incident, also where it is the third and retires the needle. -/
theorem failedItem_clean (hstate : n.state ≠ .retired) : ((a.failedItem u).needle u).clean = 0 := by
  rw [failedItem_eq]
  extract_lets s1 s2
  have hsuspect : (s1.needle u).clean = 0 := (makeSuspect_needle (getElem?_updNeedle_same hn _) hstate).2
  have hcounted : (s2.needle u).clean = 0 := (updNeedle_clean (by intro; rfl) _ _ _).trans hsuspect
  split
  · rw [retire_clean, hcounted]
  · exact hcounted

theorem clearSuspect_needle : ((a.clearSuspect u).needle u).isSuspect = false := by
  rw [State.clearSuspect, needle_updNeedle_same hn]
  by_cases hcase : n.state = .suspect
  · simp [Needle.isSuspect, if_pos hcase]
  · simp [Needle.isSuspect, hcase]

theorem suspectClear_due (hsuspect : n.isSuspect = true) (hclean : 1000000 ≤ n.clean) : a.suspectClear u = a.clearSuspect u := by
  rw [State.suspectClear, needle_of_getElem? hn, hsuspect, decide_eq_true hclean]
  rfl

theorem suspectClear_early (hclean : n.clean < 1000000) : a.suspectClear u = a := by
  rw [State.suspectClear, needle_of_getElem? hn, decide_eq_false (Nat.not_le.mpr hclean), Bool.and_false]
  rfl

/-- The sample counter of a suspect needle is loaded for n = 6. -/
theorem loadSample_suspect (hsuspect : n.isSuspect = true) : a.loadSample u =
    { (a.updNeedle u (fun (x : Needle) => { x with sample := Config.random a.freeCtr % 127 + 1 })) with freeCtr := a.freeCtr + 1 } := by
  rw [State.loadSample, needle_of_getElem? hn, hsuspect]
  rfl

/-- A suspect needle that is idle, under no test and in a panel that is awake with no timed course due, starts its next item. -/
theorem idleItem_starts {i : Word × Word} (hsuspect : n.isSuspect = true) (hretired : n.state ≠ .retired) (hpending : n.state ≠ .pending)
    (hitem : n.item = none) (hbusy : a.needleBusy u = false) (htest : a.underTest u = false) (hidle : n.idleSince + 100000 ≤ a.stitch)
    (hawake : a.awake (.panel (u / 12)) = true) (hdue : a.dueSoon (u / 12) = false)
    (hnext : (itemList false true a.stash.packs)[n.nextItem % max (itemList false true a.stash.packs).length 1]? = some i) :
    a.idleItem u = a.setItem u (some { pack := i.1, item := i.2, idle := true, start := a.stitch }) := by
  have hmay : (n.isSuspect && n.state != .retired && n.state != .pending && n.item.isNone && !a.needleBusy u && !a.underTest u &&
      decide (n.idleSince + 100000 ≤ a.stitch) && a.awake (.panel (u / 12)) && !a.dueSoon (u / 12)) = true := by
    simp [hsuspect, hretired, hpending, hitem, hbusy, htest, hidle, hawake, hdue]
  simp only [State.idleItem, needle_of_getElem? hn, hnext, hmay, if_true]

end

theorem mismatched_other (s : State) {u v : Nat} (hv : v ≠ u) : (s.mismatched u).needle v = s.needle v :=
  (needle_updNeedle_other _ hv _).trans (needle_updNeedle_other s hv _)

theorem clearSuspect_other (s : State) {u v : Nat} (hv : v ≠ u) : (s.clearSuspect u).needle v = s.needle v := needle_updNeedle_other s hv _

/-! ### Swatches (13 R368 to R372) -/

theorem gave_of {w : Swatch} {r : Recomputed} {got : List Byte} (h : (r = .correct ∧ got = w.correct) ∨ r = .other got) :
    w.gave r = some got := by
  rcases h with ⟨rfl, rfl⟩ | rfl
  · rfl
  · rfl

/-- A swatch found under an identifier has it. -/
theorem id_of_find? {l : List Swatch} {id : Nat} {p : Swatch → Bool} {w : Swatch}
    (h : l.find? (fun w => w.id == id && p w) = some w) : w.id = id := by
  have hfound := List.find?_some h
  simp only [Bool.and_eq_true, beq_iff_eq] at hfound
  exact hfound.1

/-- The tile that brings a needle's sample counter to 0 becomes a swatch. -/
theorem swatchSelect_due {a : State} {u id op tile : Nat} {c : Course} {x : TileRec} (hc : a.course? id = some c) (hx : c.tiles[tile]? = some x)
    (hsample : (a.needle u).sample ≠ 0) (hop : x.op = op)
    (hlast : ((a.uncounted u).drop ((a.needle u).sample - 1)).head? = some (id, tile)) (written : Option (List Byte)) :
    a.swatchSelect u id op tile written = (a.countTo u ((a.uncounted u).take (a.needle u).sample)).newSwatch u c tile x
      ((written.filter (fun b => b.length == x.bytes.length)).getD x.bytes) := by
  have htile : (a.course? id).bind (fun c => (c.tiles[tile]?).map (fun t => (c, t))) = some (c, x) := by
    rw [hc, Option.bind_some, hx, Option.map_some]
  have hgo : ¬ ((a.needle u).sample = 0 ∨ x.op ≠ op ∨ ((a.uncounted u).drop ((a.needle u).sample - 1)).head? ≠ some (id, tile)) := by
    simp [hsample, hop, hlast]
  simp only [State.swatchSelect, htile, if_neg hgo]

section
variable {a : State} {id u : Nat} {w : Swatch} (hw : a.swatches.find? (fun w => w.id == id && w.phase == .chosen) = some w)
  (hu : a.nextServing (w.lastTried.getD w.source) [w.source] = some u)
include hw hu

/-- The replica's result is kept until it is compared. -/
theorem replicaRun_gives {r : Recomputed} {got : List Byte} (hr : (r = .correct ∧ got = w.correct) ∨ r = .other got) :
    a.replicaRun id r = (a.recomputed u).updSwatch id (fun (w : Swatch) =>
      { w with replica := some u, replicaBits := got, phase := .replicated, lastTried := none
               doneAt := ((a.recomputed u).needle u).idleSince }) := by
  simp only [State.replicaRun, hw, State.recomputer, hu, gave_of hr]

/-- A replica that faults is noted, for the next qualifying needle. -/
theorem replicaRun_faults :
    a.replicaRun id .faults = (a.recompute u).updSwatch id (fun (w : Swatch) => { w with lastTried := some u }) := by
  simp only [State.replicaRun, hw, State.recomputer, hu, Swatch.gave, State.recomputeFault, id_of_find? hw]

end

section
variable {a : State} {id : Nat} {w : Swatch} (hw : a.swatches.find? (fun w => w.id == id && w.phase == .replicated) = some w)
include hw

theorem swatchCompare_early (htime : a.stitch < w.doneAt) : a.swatchCompare id = a := by
  simp only [State.swatchCompare, hw, if_pos htime]

/-- Once the replica has finished, and where it is not compared narrow against wide, the bits decide. -/
theorem swatchCompare_done (htime : w.doneAt ≤ a.stitch) (hwide : w.compareWide = false) : a.swatchCompare id =
    if w.replicaBits = w.sourceBits then a.endSwatch w
    else (a.updSwatch id (fun (w : Swatch) => { w with phase := .tiebreak })).count 8 1 := by
  have hnarrow : a.compareWide w = a := by
    unfold State.compareWide
    split
    · rw [hwide, if_neg Bool.false_ne_true]
    · rfl
  simp only [State.swatchCompare, hw, if_neg (Nat.not_lt.mpr htime), hnarrow]

end

/-- A tiebreak that gives a result takes effect. -/
theorem swatchTiebreak_gives {a : State} {id r k : Nat} {w : Swatch} {c : Course} {x : TileRec} {res : Recomputed} {got : List Byte}
    (hw : a.swatches.find? (fun w => w.id == id && w.phase == .tiebreak) = some w) (htile : a.tileOf w = some (c, x))
    (hr : w.replica = some r) (hk : a.nextServing (w.lastTried.getD r) [w.source, r] = some k)
    (hgot : (res = .correct ∧ got = w.correct) ∨ res = .other got) : a.swatchTiebreak id res = a.tiebreak w c x r k got := by
  simp only [State.swatchTiebreak, hw, htile, hr, State.recomputer, hk, gave_of hgot]

section
variable {s a : State} {t : Stitch} (h : s.Reached t a)
include h

theorem exec_swatchSelect (u id op tile : Nat) (written : Option (List Byte)) :
    exec (.swatchSelect t u id op tile written) s = .next (a.swatchSelect u id op tile written) :=
  act_reached (f := (·.swatchSelect u id op tile written)) h

theorem exec_swatchReplicaRun (id : Nat) (r : Recomputed) : exec (.swatchReplicaRun t id r) s = .next (a.replicaRun id r) :=
  act_reached (f := (·.replicaRun id r)) h

theorem exec_swatchCompare (id : Nat) : exec (.swatchCompare t id) s = .next (a.swatchCompare id) := act_reached (f := (·.swatchCompare id)) h

theorem exec_swatchTiebreak (id : Nat) (r : Recomputed) : exec (.swatchTiebreak t id r) s = .next (a.swatchTiebreak id r) :=
  act_reached (f := (·.swatchTiebreak id r)) h

theorem exec_suspectClear (u : Nat) : exec (.suspectClear t u) s = .next (a.suspectClear u) := act_reached (f := (·.suspectClear u)) h

theorem exec_idleTestItemStart (u : Nat) : exec (.idleTestItemStart t u) s = .next (a.idleItem u) := act_reached (f := (·.idleItem u)) h

end

/-- Settles O32: a needle's suspicion by what it took part in, its tiles since, and what it runs while idle; a retirement that a failed item
brings leaves the count of its tiles at 0. -/
theorem suspectNeedles : Obligations.SuspectNeedles := by
  unfold Obligations.SuspectNeedles
  intro s a t u n h hn
  refine ⟨fun hstate => ?mismatch, fun id r k w c x res got who b d hw htile hr hk hgot hwho hb hd => ?tiebreak,
    fun hsuspect hclean => ⟨?cleared, clearSuspect_needle hn, fun v hv => clearSuspect_other a hv⟩, fun hclean => ?early,
    fun k => ⟨rfl, rfl⟩, failedItem_clean hn, loadSample_suspect hn,
    fun i hsuspect hretired hpending hitem hbusy htest hidle hawake hdue hnext => ?item⟩
  case mismatch =>
    obtain ⟨hsuspect, hclean⟩ := mismatched_needle hn hstate
    exact ⟨hsuspect, hclean, fun v hv => mismatched_other a hv⟩
  case tiebreak =>
    rw [exec_swatchTiebreak h, swatchTiebreak_gives hw htile hr hk hgot]
    unfold State.tiebreak
    extract_lets source attributed s1 s2 s3 s4
    have hsource : (source = true) = (got = w.sourceBits) := by simp [source]
    have hattributed : attributed = who := by simp only [attributed, hsource, hwho]
    have hsuspects : s2 = b := by
      rw [hb]
      simp only [s2, hattributed]
      cases who <;> rfl
    have hrecorded : s4 = d := by
      rw [hd]
      cases who <;> simp only [s4, s3, hsuspects, hattributed]
    simp only [hsource, hattributed, hrecorded]
  case cleared => rw [exec_suspectClear h, suspectClear_due hn hsuspect hclean]
  case early => rw [exec_suspectClear h, suspectClear_early hn hclean]
  case item =>
    rw [exec_idleTestItemStart h, idleItem_starts hn hsuspect hretired hpending hitem hbusy htest hidle hawake hdue hnext]

/-- Settles O31: a selection by the tile that brings the counter to 0, a replica by what its needle gave, a comparison by its time and its
bits. -/
theorem swatches : Obligations.Swatches := by
  unfold Obligations.Swatches
  intro s a t h
  refine ⟨fun u id op tile written c x hc hx hsample hop hlast => ?select,
    fun id u w r hw hu => ⟨fun got hgot => ?replicated, fun hfault => ?faulted⟩,
    fun id w hw => ⟨fun htime => ?early, fun htime hwide => ⟨fun hsame => ?pass, fun hother => ?differ⟩⟩⟩
  case select => rw [exec_swatchSelect h, swatchSelect_due hc hx hsample hop hlast]
  case replicated => rw [exec_swatchReplicaRun h, replicaRun_gives hw hu hgot]
  case faulted => rw [hfault, exec_swatchReplicaRun h, replicaRun_faults hw hu]
  case early => rw [exec_swatchCompare h, swatchCompare_early hw htime]
  case pass => rw [exec_swatchCompare h, swatchCompare_done hw htime hwide, if_pos hsame]
  case differ => rw [exec_swatchCompare h, swatchCompare_done hw htime hwide, if_neg hother]

/-! ### Test items (13 R375, R380, R381) -/

/-- An item of an idle interval ends: its outcome is counted on its needle, and the next one of the list comes next. -/
theorem itemDone_idle {a b : State} {u : Nat} {x : TestItem} {ok pass : Bool} (hx : a.itemOn u = some x) (hidle : x.idle = true) (hu : u < 144)
    (hpass : pass = (ok && (x.pack == 0 || itemExpected a.stash.packs x))) (hb : b = (a.setItem u none).fillStores [u] [u / 12]) :
    a.itemDone u ok = State.updNeedle (if pass then b.updNeedle u (fun (n : Needle) => { n with passed := n.passed + 1 })
      else b.failedItem u) u (fun (n : Needle) => { n with nextItem := n.nextItem + 1 }) := by
  subst hpass hb
  simp only [State.itemDone, hx, hidle, if_true, if_pos hu]

section
variable {a : State} {u : Nat} {p : StTarget → Bool}

/-- A target at its course boundary is taken: an idle item gives way and the first item of its test starts. -/
theorem targetTaken_boundary {b : State} (htestable : a.testable u = true) (hboundary : a.atBoundary u = true)
    (hp : p = (fun t => t.unit == u && t.taken.isNone && t.released.isNone)) (hwaits : a.selfTests.any (fun r => r.targets.any p) = true)
    (hb : b = (if u < 144 then a.dropItem u else a)) : a.targetTaken u =
    State.goOn { b with selfTests := updTarget p (fun (t : StTarget) => { t with taken := some a.stitch }) b.selfTests } u true := by
  subst hp hb
  have hgo : (a.testable u && a.atBoundary u &&
      a.selfTests.any (fun r => r.targets.any (fun t => t.unit == u && t.taken.isNone && t.released.isNone))) = true := by
    rw [htestable, hboundary, hwaits]
    rfl
  simp only [State.targetTaken, if_pos hgo]

/-- A cable engine whose test has not begun is released with its outcome. -/
theorem targetReleased_engine {r : SelfTestRun} {x : StTarget} (hp : p = (fun t => t.unit == u && t.released.isNone))
    (hfound : a.selfTests.findSome? (fun r => (r.targets.find? p).map (fun t => (r, t))) = some (r, x)) (hmay : a.releasable r x = true)
    (htaken : x.taken = none) (hu : 144 ≤ u) : a.targetReleased u = State.endTests { a with
      selfTests := updTarget p (fun y => { y with released := some a.stitch, outcome := a.outcomeOf r y }) a.selfTests } := by
  subst hp
  simp only [State.targetReleased, hfound, if_pos hmay, htaken, Option.isSome_none, if_neg (Nat.not_lt.mpr hu), Bool.false_eq_true, if_false]

end

section
variable {s a : State} {t : Stitch} (h : s.Reached t a) (u : Nat)
include h

theorem exec_testItemComplete (ok : Bool) : exec (.testItemComplete t u ok) s = .next (a.itemDone u ok) :=
  act_reached (f := (·.itemDone u ok)) h

theorem exec_selfTestTargetTaken : exec (.selfTestTargetTaken t u) s = .next (a.targetTaken u) := act_reached (f := (·.targetTaken u)) h

theorem exec_selfTestTargetReleased : exec (.selfTestTargetReleased t u) s = .next (a.targetReleased u) :=
  act_reached (f := (·.targetReleased u)) h

end

/-- Settles O33: an item by its outcome, a taking by the boundary of its unit, a release by the target that is found. -/
theorem testItems : Obligations.TestItems := by
  unfold Obligations.TestItems
  intro s a t u h
  refine ⟨fun x ok pass b hx hidle hu hpass hb => ?ends, fun b p htestable hboundary hp hwaits hb => ?taken,
    fun r x p f hp hfound hmay htaken hu hf => ?released⟩
  case ends => rw [exec_testItemComplete h, itemDone_idle hx hidle hu hpass hb]
  case taken => rw [exec_selfTestTargetTaken h, targetTaken_boundary htestable hboundary hp hwaits hb]
  case released => rw [exec_selfTestTargetReleased h, targetReleased_engine hp hfound hmay htaken hu, hf]

end Sys2Proof.Machine
end

section
/-! SUPPORT. Cuts of operation and the restarts of steps: the equations of their operations, case by case, and the statements CutsRecorded,
StepsRestart and CutsRun, settled by them. -/

namespace Sys2Proof.Machine

/-! ### BIND_OFF and RESUME recorded (13 R387, R390) -/

/-- Without a cut no BIND_OFF can end. -/
theorem endBindOff_noCut {b : State} (h : b.cut = none) : b.endBindOff = b := by
  simp only [State.endBindOff, h]

/-- Two checks that pass find no failure. -/
theorem firstFailure_bothPass (m n : Nat) : firstFailure [(false, m), (false, n)] = none := firstFailure_none (by simp)

/-- A sound BIND_OFF of this module alone records its cut. -/
theorem bindOff_sound {b : State} {c : Cmd} (hl : c.badLayout = false) (hslot : b.badSlot (c.op 40 8) = false) (hflags : c.op 48 1 = 0)
    (hz : c.zero 49 15 = true) (hjob : c.tag.jobId = 0) (hcut : b.cut = none) : b.bindOff c = { b with
      cut := some { phase := .pending, tag := some c.tag, job := 0, skein := false
                    stitch := if c.op 40 8 = 0 then b.firstSlot else c.op 40 8
                    taken := 0, drained := 0, withdrawn := [], aborted := [], discarded := 0, reports := [], resume := none } } := by
  have hlocal : bitOf 0 0 = false := rfl
  simp [State.bindOff, firstFailure_bothPass, hl, hslot, hflags, hz, hjob, hcut, hlocal, endBindOff_noCut hcut]

/-- A sound RESUME of a cut that holds, with no other one waiting, is recorded for its stitch. -/
theorem resume_sound {b : State} {c : Cmd} {x : Cut} (hl : c.badLayout = false) (hslot : b.badSlot (c.op 40 8) = false)
    (hz : c.zero 48 16 = true) (hcut : b.cut = some x) (hheld : x.phase = .held) (hnone : x.resume = none) : b.resume c = { b with
      cut := some { x with resume := some (c.tag, if c.op 40 8 = 0 then b.firstSlot else c.op 40 8) } } := by
  simp [State.resume, firstFailure_bothPass, hl, hslot, hz, hcut, hheld, hnone]

section
variable {s : State} {t : Stitch} {src : Src} {io : HostIo} {f : Fetched}

theorem exec_bindOff (h : (s.advance t).hookTakes src 0x0030 f) :
    exec (.bindOff t src io) s = .next ((s.popped t src).bindOff (s.given t src io f)) := host_takes h

theorem exec_resume (h : (s.advance t).hookTakes src 0x0031 f) :
    exec (.resume t src io) s = .next ((s.popped t src).resume (s.given t src io f)) := host_takes h

end

/-- Settles O10: once the checks pass, the cut and the stitch of its end are recorded. -/
theorem cutsRecorded : Obligations.CutsRecorded := by
  unfold Obligations.CutsRecorded
  rintro s b t src io f c rfl rfl hl hslot
  refine ⟨fun k h hflags hz hjob hcut hk => ?bindOff, fun x k h hz hcut hheld hnone hk => ?resume⟩
  case bindOff =>
    rw [exec_bindOff h, bindOff_sound hl hslot hflags hz hjob hcut, hk]
    rfl
  case resume =>
    rw [exec_resume h, resume_sound hl hslot hz hcut hheld hnone, hk]
    rfl

/-! ### Restarts of steps (13 R377, R379) -/

section
variable {a : State} {job : Word} {j : Job} (hj : a.job? job = some j)
include hj

section
variable {p : Step} {r : Nat} (hp : j.oldest = some p) (hphase : p.phase = .restart r) (hdue : a.dueImplicit job = [])
include hp hphase hdue

/-- At its restart stitch a frogged step runs again, its courses in their queues. -/
theorem frogRestart_due {b : State} (htime : r ≤ a.stitch) (hcut : a.cutStops = false)
    (hb : b = (a.updJob job (fun (k : Job) => k.setOldest (fun (q : Step) => { q with phase := .running }))).startAttempt job false) :
    a.frogRestart job = (b.stepCourses job p.number).foldl State.reenter b := by
  subst hb
  simp only [State.frogRestart, hcut, hdue, hj, hp, hphase, Option.bind_some, List.foldl_nil, if_neg (Nat.not_lt.mpr htime),
    Bool.false_eq_true, if_false]

/-- Before that stitch it waits. -/
theorem frogRestart_early (htime : a.stitch < r) : a.frogRestart job = a := by
  simp only [State.frogRestart, hdue, hj, hp, hphase, Option.bind_some, List.foldl_nil, if_pos htime, ite_self]

end

section
variable {u : Nat} (hu : j.dropUntil = some u)
include hu

section
variable {b : State} (htime : u ≤ a.stitch) (hb : b = a.updJob job (fun (k : Job) => { k with dropUntil := none, beginWait := none }))
include htime hb

/-- The window of an abandonment ends at its stitch, and the STEP_BEGIN that waited for it completes. -/
theorem dropWindowEnd_begins {tag : CmdTag} (hwait : j.beginWait = some tag) : a.dropWindowEnd job = (b.finish tag [0] 0).tryClose job := by
  subst hb
  simp only [State.dropWindowEnd, hj, hu, hwait, Option.bind_some, if_neg (Nat.not_lt.mpr htime)]

/-- Where none waits the window ends alone. -/
theorem dropWindowEnd_alone (hnone : j.beginWait = none) : a.dropWindowEnd job = b := by
  subst hb
  simp only [State.dropWindowEnd, hj, hu, hnone, Option.bind_some, if_neg (Nat.not_lt.mpr htime)]

end

/-- Before that stitch it stays. -/
theorem dropWindowEnd_early (htime : a.stitch < u) : a.dropWindowEnd job = a := by
  simp only [State.dropWindowEnd, hj, hu, Option.bind_some, if_pos htime]

end

end

section
variable {s a : State} {t : Stitch} (h : s.Reached t a)
include h

theorem exec_frogRestart (job : Word) : exec (.frogRestart t job) s = .next (a.frogRestart job) := act_reached (f := (·.frogRestart job)) h

theorem exec_abandonDropWindowEnd (job : Word) : exec (.abandonDropWindowEnd t job) s = .next (a.dropWindowEnd job) :=
  act_reached (f := (·.dropWindowEnd job)) h

end

/-- Settles O36: a restart by its stitch, and the end of a window by its stitch and the STEP_BEGIN that waits. -/
theorem stepsRestart : Obligations.StepsRestart := by
  unfold Obligations.StepsRestart
  intro s a t job j h hj
  have hend := exec_abandonDropWindowEnd h job
  refine ⟨fun p r b hp hphase htime hcut hdue hb => ?restarts, fun p r hp hphase htime hdue => ?early,
    fun u b hu htime hb => ⟨fun tag hwait => ?begins, fun hnone => ?ends⟩, fun u hu htime => ?stays⟩
  case restarts => rw [exec_frogRestart h, frogRestart_due hj hp hphase hdue htime hcut hb]
  case early => rw [exec_frogRestart h, frogRestart_early hj hp hphase hdue htime]
  case begins => rw [hend, dropWindowEnd_begins hj hu htime hb hwait]
  case ends => rw [hend, dropWindowEnd_alone hj hu htime hb hnone]
  case stays => rw [hend, dropWindowEnd_early hj hu htime]

/-! ### Cuts that run (13 R387, R388) -/

section
variable {b : State} {x : Cut} (hcut : b.cut = some x)
include hcut

/-- At the cut stitch launches stop. -/
theorem cutStitch_due (hpending : x.phase = .pending) (htime : x.stitch ≤ b.stitch) :
    b.cutStitch = { b with cut := some { x with phase := .stopping } } := by
  simp only [State.cutStitch, hcut, Option.map_some, if_pos (And.intro hpending htime)]

/-- Before it nothing changes. -/
theorem cutStitch_early (htime : b.stitch < x.stitch) : b.cutStitch = b := by
  have hstays : ¬ (x.phase = .pending ∧ x.stitch ≤ b.stitch) := fun hdue => Nat.not_lt.mpr hdue.2 htime
  rw [State.cutStitch, hcut, Option.map_some, if_neg hstays, ← hcut]

/-- A link course that was launched before the cut and still awaits frames 10 ms after it is withdrawn. -/
theorem seamWithdrawal_due {id : Nat} {c : Course} {d : State} (hc : b.course? id = some c) (hphase : x.phase = .stopping) (htarget : c.target = 4)
    (hruns : c.running = true) (hawaits : 0 < c.awaiting) (hbefore : c.launchedAt.getD b.stitch < x.stitch)
    (htime : x.stitch + 10000000 ≤ b.stitch) (hd : d = b.withdraw c) :
    b.seamWithdrawal id = { d with cut := d.cut.map (fun (y : Cut) => { y with withdrawn := y.withdrawn ++ [id] }) } := by
  have hgo : (x.phase == .stopping && c.target == 4 && c.running && decide (0 < c.awaiting) && decide (c.launchedAt.getD b.stitch < x.stitch) &&
      decide (x.patience ≤ b.stitch)) = true := by
    simp [Cut.patience, hphase, htarget, hruns, hawaits, hbefore, htime]
  subst hd
  simp only [State.seamWithdrawal, hcut, hc, if_pos hgo]

/-- A cut of this module alone is taken once every unit and every link is ready, and what its BIND_OFF waits for then decides. -/
theorem cutTaken_ready {d : State} (hready : b.cutReady x = true) (hlocal : x.skein = false)
    (hd : d = { b with cut := some { x with phase := .held, taken := b.stitch } }) :
    b.cutTaken = if d.cutReported { x with phase := .held, taken := b.stitch } then d.endBindOff else d := by
  subst hd
  simp only [State.cutTaken, hcut, if_pos hready, hlocal, Bool.false_eq_true, if_false]

theorem cutTaken_notReady (hready : b.cutReady x = false) : b.cutTaken = b := by
  simp only [State.cutTaken, hcut, hready, Bool.false_eq_true, if_false]

theorem cutTimeout_due (htime : x.stitch + 1000000000 ≤ b.stitch) : b.cutTimeout = b.endBindOff := by
  simp only [State.cutTimeout, hcut, if_pos htime]

theorem cutTimeout_early (htime : b.stitch < x.stitch + 1000000000) : b.cutTimeout = b := by
  simp only [State.cutTimeout, hcut, if_neg (Nat.not_le.mpr htime)]

end

/-! ### Cut reports (10 R297; 13 R387) -/

@[simp] theorem traceRec_cut (s : State) (job : Option Word) (type unit stitch : Nat) (core : Bool) (payload : List Byte) :
    (s.traceRec job type unit stitch core payload).cut = s.cut :=
  congrArg (fun y => y.1.cut) (traceRec_unbooked s job type unit stitch core payload)

@[simp] theorem traceReport_cut (s : State) (k : Nat) (job : Option Word) (f : Frame) (leaves : Nat) :
    (s.traceReport k job f leaves).cut = s.cut := by
  cases job with
  | none => rfl
  | some j => exact traceRec_cut _ _ _ _ _ _ _

@[simp] theorem sendReserved_cut (s : State) (k : Nat) (h : HeldFrame) : (s.sendReserved k h).cut = s.cut := by
  unfold State.sendReserved
  split
  · exact traceReport_cut _ _ _ _ _
  · split <;> rfl

@[simp] theorem reportAll_cut (s : State) (job : Word) (payload : List Byte) : (s.reportAll job payload).cut = s.cut := by
  unfold State.reportAll
  split
  · rfl
  · exact foldl_keeps (p := State.cut) (fun y k => sendReserved_cut y k _) _ _

/-- A report that is handed on leaves the cut. -/
@[simp] theorem relayReport_cut (s : State) (via : Arrival) (member : BitVec 16) (job : Word) (payload : List Byte) :
    (s.relayReport via member job payload).cut = s.cut := by
  unfold State.relayReport
  dsimp only
  split
  · exact traceRec_cut _ _ _ _ _ _ _
  · rw [reportAll_cut, traceRec_cut]

/-- The first report of another member joins those of a cut that is not yet taken. -/
theorem cutReport_counts {a z : State} {x y : Cut} {via : Arrival} {member : BitVec 16} {c taken : Nat} (hcut : a.cut = some x)
    (hz : z = a.relayReport via member x.job (cutBytes member c taken)) (hskein : x.skein = true) (hopen : x.tag.isSome = true)
    (hother : member ≠ a.skein.device) (hfirst : x.reports.any (·.1 == member) = false) (hpending : x.phase = .pending)
    (hy : y = { x with reports := x.reports ++ [(member, c, taken)] }) : a.cutReport via member c taken = { z with cut := some y } := by
  have hzcut : z.cut = some x := by rw [hz, relayReport_cut, hcut]
  have htag : x.tag.isNone = false := by rw [Option.isNone_eq_false_iff, hopen]
  have hphase : (x.phase == .held || x.phase == .released) = false := by rw [hpending]; rfl
  have hjob : (a.cut.map (·.job)).getD 0 = x.job := by rw [hcut]; rfl
  subst hy
  simp only [State.cutReport, hjob, ← hz, hzcut, hskein, htag, beq_eq_false_iff_ne.mpr hother, hfirst, hphase, Bool.not_true, Bool.or_self,
    Bool.false_and, Bool.false_eq_true, if_false]

/-! ### The resume stitch (13 R390) -/

/-- The implicit steps are settled. -/
def State.settleImplicits (s : State) : State := (s.courses.filter (·.implicitStep)).foldl (fun (y : State) c => y.settleImplicit c.id) s

/-- The steps of every job are settled. -/
def State.settleJobs (s : State) : State := (s.jobs.map (·.id)).foldl State.settle s

/-- At the resume stitch of a cut whose BIND_OFF has ended operation goes on, and what waited for it is decided. -/
theorem resumeStitch_due {a : State} {x : Cut} {tag : CmdTag} {r held : Nat} {shift : Option Step → Option Step} {b c d : State}
    (hcut : a.cut = some x) (hresume : x.resume = some (tag, r)) (hheld : x.phase = .held) (htime : r ≤ a.stitch) (hended : x.tag = none)
    (hshift : shift = (fun o => o.map (fun p => p.shift x.stitch held))) (hlength : held = r - x.stitch)
    (hb : b = { a with
      cut := none
      links := a.links.map (fun (l : Link) => { l with cutSent := false, cutNeed := none, cutHeard := 0, cutMoved := false })
      courses := a.courses.map (fun c => c.shift x.stitch held)
      jobs := a.jobs.map (fun (j : Job) => { j with opened := shift j.opened, committing := shift j.committing }) })
    (hc : c = x.withdrawn.foldl State.relaunch (x.withdrawn.reverse.foldl State.standFirst b))
    (hd : d = State.finish ((x.aborted.filter (fun id => c.courses.any (fun e => e.id == id && e.status == .queued))).foldl State.runAgain c)
      tag [0] 0) : a.resumeStitch = d.settleImplicits.settleJobs := by
  have hgo : ¬ (x.phase != .held || decide (a.stitch < r)) = true := by simp [hheld, htime]
  subst hshift hlength hb hc hd
  simp only [State.resumeStitch, hcut, hresume, if_neg hgo, hended, Option.isNone_none, if_true]
  rfl

section
variable {s a : State} {t : Stitch} (h : s.Reached t a)
include h

theorem exec_cutStitchReached : exec (.cutStitchReached t) s = .next a.sweep.cutStitch.settleLinks := act_onLinks h _

theorem exec_seamCourseWithdrawal (id : Nat) : exec (.seamCourseWithdrawal t id) s = .next (a.sweep.seamWithdrawal id).settleLinks :=
  act_onLinks h _

theorem exec_cutTaken : exec (.cutTaken t) s = .next a.sweep.cutTaken.settleLinks := act_onLinks h _

theorem exec_cutReportReceived (via : Arrival) (member : BitVec 16) (c taken : Nat) :
    exec (.cutReportReceived t ⟨via, member⟩ c taken) s = .next (a.cutReport via member c taken) :=
  act_reached (f := (·.cutReport via member c taken)) h

theorem exec_bindOffReportTimeout : exec (.bindOffReportTimeout t) s = .next a.cutTimeout := act_reached (f := State.cutTimeout) h

theorem exec_resumeStitchReached : exec (.resumeStitchReached t) s = .next a.resumeStitch := act_reached (f := State.resumeStitch) h

end

/-- Settles O47: the stop, the withdrawals, the taking and the resumption of a cut by their stitches, a report by whether it is the first of its
member. -/
theorem cutsRun : Obligations.CutsRun := by
  unfold Obligations.CutsRun
  intro s a t x h hcut
  refine ⟨fun b hb hcut => ?onLinks, fun via member c taken y z hz hskein hopen hother hfirst hpending hy => ?report, fun htime => ?timeout,
    fun htime => ?patient, fun tag r held shift b c d hresume hheld htime hended hlength hshift hb hc hd =>
      ⟨_, exec_resumeStitchReached h, ?resumes⟩⟩
  case onLinks =>
    subst hb
    refine ⟨fun hpending htime => ?stops, fun htime => ?early,
      fun id c d hc hphase htarget hruns hawaits hbefore htime hd => ?withdrawn, fun d hready hlocal hd => ?taken, fun hready => ?notReady⟩
    case stops => rw [exec_cutStitchReached h, cutStitch_due hcut hpending htime]
    case early => rw [exec_cutStitchReached h, cutStitch_early hcut htime]
    case withdrawn =>
      rw [exec_seamCourseWithdrawal h, seamWithdrawal_due hcut hc hphase htarget hruns hawaits hbefore htime hd]
    case taken => rw [exec_cutTaken h, cutTaken_ready hcut hready hlocal hd]
    case notReady => rw [exec_cutTaken h, cutTaken_notReady hcut hready]
  case report => rw [exec_cutReportReceived h, cutReport_counts hcut hz hskein hopen hother hfirst hpending hy]
  case timeout => rw [exec_bindOffReportTimeout h, cutTimeout_due hcut htime]
  case patient => rw [exec_bindOffReportTimeout h, cutTimeout_early hcut htime]
  case resumes => exact resumeStitch_due hcut hresume hheld htime hended hshift hlength hb hc hd

end Sys2Proof.Machine
end

section
/-! SUPPORT. The losses of power: what the power stage and a lost module do, case by case, and the statement PowerLost, settled by them. -/

namespace Sys2Proof.Machine

/-! ### Power that is lost (13 R392; 16 R442 to R444, R446) -/

/-- A read of a lost module answers all ones. -/
theorem actRead_lost {s : State} {t : Stitch} {n : Nat} {f : State → State} (h : (s.advance t).stage.lost = true) :
    s.actRead t n f = .next ((s.advance t).emit (.reply (List.replicate n 0xFF))) := by
  simp [State.actRead, State.up, h]

theorem exec_timeStitchRead_lost {s : State} {t : Stitch} (h : (s.advance t).stage.lost = true) :
    exec (.timeStitchRead t true) s = .next ((s.advance t).emit (.reply (List.replicate 8 0xFF))) :=
  actRead_lost (n := 8) (f := (·.timeStitchRead true)) h

theorem exec_bar2Read_lost {s : State} {t : Stitch} (h : (s.advance t).stage.lost = true) (off len : Nat) :
    exec (.bar2Read t off len) s = .next ((s.advance t).emit (.reply (List.replicate len 0xFF))) :=
  actRead_lost (n := len) (f := (·.bar2Read off len)) h

/-- A stage that is good, or a lost module, takes the loss of input power. -/
theorem exec_inputPowerLoss {s a : State} {t : Stitch} (ha : a = s.advance t) (hpower : (a.stage.good || a.stage.lost) = true) (c : PowerLoss) :
    exec (.inputPowerLoss t c) s = .next (a.powerLoss c) := by
  subst ha
  exact congrArg Host.Outcome.next (if_pos hpower)

/-- The stored energy carries the module for 0.35 ms from 48 V on, and never longer than 0.7 ms (log 22). -/
theorem holdTime_bounds (vin : Nat) : (4800 ≤ vin → 350000 ≤ holdTime vin) ∧ holdTime vin ≤ 700000 := by
  unfold holdTime
  split
  · omega
  · split <;> omega

theorem powerLoss_carried {a : State} {d : Nat} (hvin : 4800 ≤ a.pw.vin) (hd : d ≤ 350000) : a.powerLoss (.interruption d) = a :=
  if_pos (hd.trans ((holdTime_bounds _).1 hvin))

theorem powerLoss_interrupted {a : State} {d : Nat} (hd : 700000 < d) : a.powerLoss (.interruption d) = a.unpowered :=
  if_neg (Nat.not_le.mpr ((holdTime_bounds _).2.trans_lt hd))

theorem powerLoss_stageFailure {a : State} (hup : a.up = true) : a.powerLoss .stageFailure = a.lose 2 := by
  have hlost : a.stage.lost = false := by simpa using (Bool.and_eq_true_iff.mp hup).2
  rw [State.powerLoss, hlost, if_neg Bool.false_ne_true]

/-- A module that is lost keeps its cause, and its links stop sending. -/
theorem lose_effect (a : State) (latch : Nat) : (a.lose latch).up = false ∧ (a.lose latch).stage.lost = true ∧
    (a.lose latch).stage.latch = latch ∧ a.lose latch = { a with
      stage := (a.lose latch).stage, links := a.links.map (fun (l : Link) => { l with state := 0, rate := 0 }) } :=
  ⟨Bool.and_false _, rfl, rfl, rfl⟩

/-- A power stage that failed is off. -/
theorem lose_stage_off (a : State) : (a.lose 2).stage.good = false := Bool.and_false _

theorem exec_hookWatchdogExpiry {s a : State} {t : Stitch} (h : s.Reached t a) : exec (.hookWatchdogExpiry t) s = .next (a.lose 1) :=
  act_reached (f := (·.lose 1)) h

theorem exec_dieOvertempShutdown {s a : State} {t : Stitch} (h : s.Reached t a) (east : Bool) (temp : Nat) :
    exec (.dieOvertempShutdown t east temp) s = .next (a.overtemp east temp) := act_reached (f := (·.overtemp east temp)) h

theorem overvoltage_high {a : State} {vin : Nat} (h : 6200 < vin) :
    a.overvoltage vin = { a.unpowered with stage := { a.unpowered.stage with overvolt := true } } := if_pos h

theorem overtemp_hot {a : State} {temp : Nat} (h : 118 ≤ temp) :
    a.overtemp false temp = State.lose { a with pw := { a.pw with tempW := temp } } 2 := if_pos h

/-- Settles O24: a loss of input power by its cause and the stored energy, a lost module by its cause, and what a module without power keeps. -/
theorem powerLost : Obligations.PowerLost := by
  unfold Obligations.PowerLost
  intro s a t ha
  have hloss := exec_inputPowerLoss ha
  refine ⟨fun hgood => ?input, fun vin hvin => ?overvoltage, fun hup => ?watchdog, fun hup => ?stageFailure, fun temp hup hhot => ?overtemp,
    ⟨rfl, rfl, rfl, rfl, rfl, rfl, rfl, rfl⟩, fun hlost => ?reads⟩
  case input =>
    have hpower : (a.stage.good || a.stage.lost) = true := by rw [hgood, Bool.true_or]
    refine ⟨fun vin hvin => ?falls, fun vin hvin => ?holds, hloss hpower _, fun d hvin hd => ?carried, fun d hd => ?interrupted⟩
    case falls => rw [hloss hpower, State.powerLoss, if_pos hvin]
    case holds => rw [hloss hpower, State.powerLoss, if_neg (Nat.not_le.mpr hvin)]
    case carried => rw [hloss hpower, powerLoss_carried hvin hd]
    case interrupted => rw [hloss hpower, powerLoss_interrupted hd]
  case overvoltage =>
    rw [← overvoltage_high hvin, ha]
    rfl
  case watchdog =>
    obtain ⟨hdown, -, hlatch, heq⟩ := lose_effect a 1
    exact ⟨_, exec_hookWatchdogExpiry ⟨ha, hup⟩, hdown, hlatch, heq⟩
  case stageFailure =>
    have hpower : (a.stage.good || a.stage.lost) = true := by rw [(Bool.and_eq_true_iff.mp hup).1, Bool.true_or]
    obtain ⟨-, hlost, hlatch, heq⟩ := lose_effect a 2
    exact ⟨_, by rw [hloss hpower, powerLoss_stageFailure hup], lose_stage_off a, hlost, hlatch, heq⟩
  case overtemp =>
    obtain ⟨-, hlost, hlatch, heq⟩ := lose_effect { a with pw := { a.pw with tempW := temp } } 2
    exact ⟨_, by rw [exec_dieOvertempShutdown ⟨ha, hup⟩, overtemp_hot hhot], lose_stage_off _, hlost, hlatch, heq⟩
  case reads =>
    subst ha
    exact ⟨exec_timeStitchRead_lost hlost, exec_bar2Read_lost hlost⟩

end Sys2Proof.Machine
end

section
/-! SUPPORT. Commands that complete: a sample of a module that owes a frame is not all that leaves it, and the statement CommandsComplete,
refuted by it. -/

namespace Sys2Proof.Machine

/-! ### The counterexample (10 R297; 15 R437) -/

/-- Where no frame waits, and after what link 0 sends again no other link owes one, settling the frame times that have passed in the slot `b` until
the stitch `e` is what link 0 sends. -/
theorem sweep_firstOwes {s x : State} {b e : Nat} (hb : slotOf s.stitch = b) (he : s.stitch = e) (hx : State.resendPassed b e s 0 = x)
    (hq : s.txq = []) (howes : s.links.all (·.resend.isEmpty) = false) (hslot : s.openSlot = b)
    (hothers : ∀ k ∈ (List.range 31).map Nat.succ, (x.link k).resend = []) (hqueue : x.txq = []) : s.sweep = x := by
  subst hb he hx
  have hresent : (List.range 32).foldl (State.resendPassed (slotOf s.stitch) s.stitch) s = State.resendPassed (slotOf s.stitch) s.stitch s 0 := by
    rw [List.range_succ_eq_map, List.foldl_cons, foldl_resendPassed_none hothers]
  rw [sweep_noneWaits hq howes hslot]
  exact passTimes_noneWaits hresent hqueue

/-- `owingModule` with a debug token that permits observation, and its observation port enabled. -/
def observedModule : State :=
  { owingModule with
    dbg := { State.reset.dbg with token := some { permissions := 1, sequence := 0, notAfter := 0, digest := [] }, obsControl := 1 } }

theorem observedModule_reached : observedModule.Reached 0 observedModule := ⟨rfl, rfl⟩

theorem observedModule_active : observedModule.obsActive = true := by decide

/-- With the sample, the frame that link 0 owes leaves the module. -/
theorem observedModule_sends : observedModule.sweep.obsSample.out.length = 2 := by
  have hothers : ∀ k ∈ (List.range 31).map Nat.succ, ((State.resendPassed 0 100 observedModule 0).link k).resend = [] := by decide
  have hsweep : observedModule.sweep = State.resendPassed 0 100 observedModule 0 := sweep_firstOwes rfl rfl rfl rfl rfl rfl hothers rfl
  rw [hsweep]
  decide

/-- Refutes O59: of an active observation port the clause says that a sample alone is driven outward; but OBS_SAMPLE first settles the frame times
that have passed (10 R297), in which a link sends again what it owes. -/
theorem not_commandsComplete : ¬ Obligations.CommandsComplete := by
  unfold Obligations.CommandsComplete
  rintro ⟨-, h⟩
  obtain ⟨-, -, -, -, -, -, -, -, -, -, -, -, -, -, -, -, -, hsampled, -⟩ := h observedModule observedModule 0 observedModule_reached
  obtain ⟨u, data, sync, hu, -, hout⟩ := hsampled observedModule_active
  have hnext : observedModule.sweep.obsSample = u := Host.Outcome.next.inj ((exec_obsSample observedModule_reached).symm.trans hu)
  have hone : u.out.length = 1 := by rw [hout]; rfl
  have htwo : u.out.length = 2 := hnext ▸ observedModule_sends
  omega

end Sys2Proof.Machine
end

section
/-! SUPPORT. Power states: what entering a state, waking and ending an exit change and leave, case by case, and the statement PowerStates, settled
by them. -/

namespace Sys2Proof.Machine

/-! ### Needles that lose what they hold (14 R394; 01 R18, R19) -/

/-- Changing some needles changes the list of needles alone. -/
theorem foldl_updNeedle (f : Nat → Needle → Needle) (us : List Nat) (s : State) :
    us.foldl (fun x u => x.updNeedle u (f u)) s = { s with needles := us.foldl (fun l u => l.modify u (f u)) s.needles } := by
  induction us generalizing s with
  | nil => rfl
  | cons u us ih => exact ih _

/-- Needles that lose their registers: one free value is drawn for them, and nothing else changes. -/
theorem loseRegisters_eq (s : State) (us : List Nat) :
    s.loseRegisters us = { s with needles := (s.loseRegisters us).needles, freeCtr := s.freeCtr + 1 } := by
  rw [State.loseRegisters, foldl_updNeedle]

/-- Stores that are filled anew: one free value is drawn for them, and nothing but the needles and the panel stores changes. -/
theorem fillStores_eq (s : State) (us ps : List Nat) : s.fillStores us ps =
    { s with needles := (s.fillStores us ps).needles, panelStores := (s.fillStores us ps).panelStores, freeCtr := s.freeCtr + 1 } := by
  unfold State.fillStores
  dsimp only
  rw [foldl_updNeedle]

/-- An update that leaves the state of a needle leaves that of every needle. -/
theorem updNeedle_states (s : State) (u : Nat) {f : Needle → Needle} (hf : ∀ n, (f n).state = n.state) :
    (s.updNeedle u f).needles.map (·.state) = s.needles.map (·.state) := by
  refine List.ext_getElem? fun i => ?_
  simp only [State.updNeedle, List.getElem?_map, List.getElem?_modify]
  by_cases hi : u = i
  · simp [hi, Function.comp_def, hf]
  · simp [hi]

theorem loseRegisters_states (s : State) (us : List Nat) : (s.loseRegisters us).needles.map (·.state) = s.needles.map (·.state) := by
  refine foldl_keeps (p := fun x : State => x.needles.map (·.state))
    (f := fun x u => x.updNeedle u (fun k => { k with store := k.store.drawRegisters s.freeCtr u })) (fun x u => ?_) us s
  exact updNeedle_states x u fun _ => rfl

/-! ### Entering a state (14 R394, R398, R399) -/

section
variable {a : State} {u : PwTarget}

theorem shallowEntry_taken (hu : isUnitTarget u = true) (hidle : a.targetIdle u = true) (hactive : a.pwOf u = 0)
    (hsince : a.idleSince u + 2000 ≤ a.stitch) (hpermits : a.permits 1 = true) (hfits : a.fitsTimed u 1 = true) :
    a.shallowEntry u = a.setPw u 1 := by
  simp [State.shallowEntry, hu, hidle, hactive, hsince, hpermits, hfits]

/-- A unit that is not idle, not idle for long enough, or not permitted Idle-shallow stays as it is. -/
theorem shallowEntry_refused (h : a.targetIdle u = false ∨ a.permits 1 = false ∨ a.stitch < a.idleSince u + 2000) : a.shallowEntry u = a := by
  rw [State.shallowEntry, if_neg]
  rcases h with hbusy | hforbidden | hearly
  · simp [hbusy]
  · simp [hforbidden]
  · simp [Nat.not_le.mpr hearly]

/-- A unit that is not idle, not idle for long enough, or not permitted Idle-deep stays as it is. -/
theorem deepEntry_refused (h : a.targetIdle u = false ∨ a.permits 2 = false ∨ a.stitch < a.idleSince u + 500000) : a.deepEntry u = a := by
  refine if_neg ?_
  rcases h with hbusy | hforbidden | hearly
  · simp [hbusy]
  · simp [hforbidden]
  · simp [Nat.not_le.mpr hearly]

/-- The state in which a unit has entered Idle-deep: of a panel the needles lose their registers with it. -/
def State.deepened (s : State) (u : PwTarget) : State :=
  let x := match u with
    | .panel p => (s.setPw u 2).loseRegisters ((List.range 12).map (12 * p + ·))
    | _ => s.setPw u 2
  { x with pw := { x.pw with moduleSince := s.stitch } }

theorem deepEntry_taken (hu : isUnitTarget u = true) (hidle : a.targetIdle u = true) (hshallow : a.pwOf u < 2)
    (hsince : a.idleSince u + 500000 ≤ a.stitch) (hpermits : a.permits 2 = true) (hfits : a.fitsTimed u 2 = true)
    (htests : a.testsRemain u = false) : a.deepEntry u = a.deepened u := if_pos (by simp [hu, hidle, hshallow, hsince, hpermits, hfits, htests])

/-- Entering Idle-deep changes the power block, and of the rest the registers of a panel's needles alone. -/
theorem deepened_effect (a : State) (u : PwTarget) : (a.deepened u).pw = { (a.setPw u 2).pw with moduleSince := a.stitch } ∧
    a.deepened u = { a with pw := (a.deepened u).pw, needles := (a.deepened u).needles, freeCtr := (a.deepened u).freeCtr } ∧
    (∀ e, u = .engine e → (a.deepened u).needles = a.needles) ∧ (a.deepened u).needles.map (·.state) = a.needles.map (·.state) := by
  cases u with
  | panel p =>
    unfold State.deepened
    dsimp only
    rw [loseRegisters_eq]
    exact ⟨rfl, rfl, fun e h => PwTarget.noConfusion h, loseRegisters_states _ _⟩
  | engine e => exact ⟨rfl, rfl, fun _ _ => rfl, rfl⟩
  | module => exact ⟨rfl, rfl, fun _ _ => rfl, rfl⟩

theorem standbyEntry_taken (hactive : a.pw.module = 0) (hidle : a.targetIdle .module = true) (hexits : a.pw.exits = [])
    (hsince : a.pw.moduleSince + 10000000 ≤ a.stitch) (hclear : a.standbyClear = true) (hpermits : a.permits 3 = true)
    (hfits : a.fitsTimed .module 3 = true) :
    a.standbyEntry = { a with pw := { a.pw with module := 3, moduleSince := a.stitch, transition := 0 } } := by
  rw [State.standbyEntry, if_pos (by simp [hactive, hidle, hexits, hsince, hclear, hpermits, hfits])]

theorem standbyEntry_refused (h : a.pw.module ≠ 0 ∨ a.standbyClear = false) : a.standbyEntry = a := by
  rw [State.standbyEntry, if_neg]
  rcases h with hasleep | hbusy
  · simp [hasleep]
  · simp [hbusy]

end

/-! ### Holdover that is entered (04 R128) -/

/-- A bit of the timing summary is raised and its error record written. -/
def State.timingReported (s : State) (bit sev : Nat) : State := (s.raiseTiming bit).timingError bit sev

theorem timingReported_leaves (s : State) (bit sev : Nat) : (s.timingReported bit sev).pw = s.pw ∧ (s.timingReported bit sev).jobs = s.jobs ∧
    (s.timingReported bit sev).courses = s.courses ∧ (s.timingReported bit sev).rings = s.rings ∧ (s.timingReported bit sev).links = s.links := by
  have hsans : (s.timingReported bit sev).sansEnds = s.sansEnds := (cper_sans _ _).trans (raise_sans _ _)
  exact ⟨eq_of_sans (p := State.pw) (fun _ => rfl) hsans, eq_of_sans (p := State.jobs) (fun _ => rfl) hsans,
    eq_of_sans (p := State.courses) (fun _ => rfl) hsans, (cper_rings _ _).1.trans (raise_rings _ _),
    eq_of_sans (p := State.links) (fun _ => rfl) hsans⟩

/-! ### Hibernate (14 R394, R398, R400; log 23) -/

@[simp] theorem wear_pw (s : State) : s.wear.pw = s.pw := rfl
@[simp] theorem wear_mem (s : State) : s.wear.mem = s.mem := rfl
@[simp] theorem wear_jobs (s : State) : s.wear.jobs = s.jobs := rfl
@[simp] theorem wear_courses (s : State) : s.wear.courses = s.courses := rfl
@[simp] theorem wear_rings (s : State) : s.wear.rings = s.rings := rfl
@[simp] theorem wear_links (s : State) : s.wear.links = s.links := rfl
@[simp] theorem wear_image (s : State) : s.wear.stash.hibernate = s.stash.hibernate := rfl
@[simp] theorem wear_ckpts (s : State) : s.wear.stash.ckpts = s.stash.ckpts := rfl

/-- The state in which the second command ends the entry, but for the wear of the flash. -/
def State.hibernated (s : State) : State :=
  let x := (if s.skein.member then s.linksOff.enterHoldover else s.linksOff).fillStores (List.range 144) (List.range 12)
  { x with pw := { x.pw with module := 4, moduleSince := s.stitch, transition := 0 } }

section
variable {s : State} (hstandby : s.pw.module = 3)
include hstandby

/-- The first command begins the entry: the image of memory is written. -/
theorem hibernateEntry_begins (hexits : s.pw.exits = []) (hnone : s.pw.transition = 0) (hclear : s.hibernateClear = true)
    (hpermits : s.permits 4 = true) (hsince : s.pw.moduleSince + 60000000000 ≤ s.stitch) (hfits : s.fitsTimed .module 4 = true) : s.hibernateEntry = { s with
      pw := { s.pw with transition := 1 }
      stash := { s.stash with
        hibernate := some s.mem.cells
        bytesWritten := s.stash.bytesWritten + 2048 * (s.jobRanges.map (fun r => (r.2 + 2047) / 2048)).sum } } := by
  rw [State.hibernateEntry, if_neg (by simp [hstandby, hexits]), if_neg (by simp [hnone]),
    if_pos (by simp [hclear, hpermits, hsince, hfits])]
  rfl

theorem hibernateEntry_ends (hexits : s.pw.exits = []) (hentering : s.pw.transition = 1) : s.hibernateEntry = s.hibernated.wear := by
  rw [State.hibernateEntry, if_neg (by simp [hstandby, hexits]), if_pos hentering]
  rfl

variable (hentering : s.pw.transition = 1)
include hentering

/-- While memory is written to its image, no spilled trace record is. -/
theorem drainSpill_entering : s.drainSpill = s := by
  have hpaused : ∀ r, s.spillPaused r = true := fun r => by simp [State.spillPaused, hstandby, hentering]
  refine foldl_keeps (p := id) (fun x j => ?_) s.jobs s
  dsimp only [id]
  split
  · rw [hpaused, Bool.or_true, if_pos rfl]
  · rfl

/-- A record of the module's trace that is to be spilled waits then. -/
theorem spillRecord_entering (r : TraceRing) (bytes : List Byte) :
    s.spillRecord none r bytes = s.setTraceRing none (some { r with queued := r.queued ++ [bytes] }) :=
  drainSpill_entering (s := s.setTraceRing none (some { r with queued := r.queued ++ [bytes] })) hstandby hentering

/-- A record of the module's trace that finds its ring full leaves jobs and courses then. -/
theorem traceFull_entering (r : TraceRing) (type stitch : Nat) (bytes : List Byte) :
    (s.traceFull none r type stitch bytes).jobs = s.jobs ∧ (s.traceFull none r type stitch bytes).courses = s.courses := by
  unfold State.traceFull
  dsimp only
  split
  · rw [spillRecord_entering hstandby hentering]
    exact ⟨rfl, rfl⟩
  · simp only [State.setTraceRing, State.count_jobs, State.count_courses, and_self]

/-- A record of the module's trace leaves jobs and courses then. -/
theorem traceNow_entering (type unit stitch : Nat) (core : Bool) (payload : List Byte) :
    (s.traceNow none type unit stitch core payload).jobs = s.jobs ∧ (s.traceNow none type unit stitch core payload).courses = s.courses := by
  unfold State.traceNow
  dsimp only
  split
  · exact ⟨rfl, rfl⟩
  · split
    · split
      · exact traceFull_entering (s := s.bumpIssue unit) hstandby hentering _ _ _ _
      · simp only [State.setTraceRing, State.bumpIssue, and_self]
    · exact ⟨rfl, rfl⟩

/-- A TIME record leaves jobs and courses then, be it written or held back by a firmware handover. -/
theorem traceTime_entering (before after event : Nat) :
    (s.traceTime before after event).jobs = s.jobs ∧ (s.traceTime before after event).courses = s.courses := by
  unfold State.traceTime State.traceRec
  split
  · exact ⟨rfl, rfl⟩
  · exact traceNow_entering hstandby hentering _ _ _ _ _

/-- A member that enters holdover then keeps its jobs, courses, rings and links. -/
theorem enterHoldover_entering : s.enterHoldover.jobs = s.jobs ∧ s.enterHoldover.courses = s.courses ∧ s.enterHoldover.rings = s.rings ∧
    s.enterHoldover.links = s.links := by
  unfold State.enterHoldover
  split
  · exact ⟨rfl, rfl, rfl, rfl⟩
  · obtain ⟨hpw, hjobs, hcourses, hrings, hlinks⟩ :=
      timingReported_leaves { s with time := { s.time with holdoverStart := some s.stitch } } 1 sevInformational
    obtain ⟨hjobs', hcourses'⟩ :=
      traceTime_entering ((congrArg Pw.module hpw).trans hstandby) ((congrArg Pw.transition hpw).trans hentering) s.stitch s.stitch 3
    have hunbooked := traceTime_unbooked (State.timingReported { s with time := { s.time with holdoverStart := some s.stitch } } 1 sevInformational)
      s.stitch s.stitch 3
    exact ⟨hjobs'.trans hjobs, hcourses'.trans hcourses, (congrArg (fun z => z.1.rings) hunbooked).trans hrings,
      (congrArg (fun z => z.1.links) hunbooked).trans hlinks⟩

end

/-- Links that are switched off are down. -/
theorem linksOff_down (s : State) : ∀ l ∈ s.linksOff.links, l.state = 0 := by
  intro l hl
  simp only [State.linksOff, State.regroup, List.mem_map] at hl
  obtain ⟨⟨l', k⟩, hmem, rfl⟩ := hl
  have hl' := List.fst_mem_of_mem_zipIdx hmem
  obtain ⟨l0, -, rfl⟩ := List.mem_map.mp hl'
  rfl

/-- A module that has entered Hibernate keeps its jobs, courses and rings, and its links are down. -/
theorem hibernated_effect {s : State} (hstandby : s.pw.module = 3) (hentering : s.pw.transition = 1) :
    s.hibernated.jobs = s.jobs ∧ s.hibernated.courses = s.courses ∧ s.hibernated.rings = s.rings ∧ ∀ l ∈ s.hibernated.links, l.state = 0 := by
  unfold State.hibernated
  dsimp only
  rw [fillStores_eq]
  cases s.skein.member with
  | false => exact ⟨rfl, rfl, rfl, linksOff_down s⟩
  | true =>
    obtain ⟨hjobs, hcourses, hrings, hlinks⟩ := enterHoldover_entering (s := s.linksOff) hstandby hentering
    exact ⟨hjobs, hcourses, hrings, fun l hl => linksOff_down s l (hlinks ▸ hl)⟩

/-- One that is in no skein keeps its memory, the image of it and its checkpoints. -/
theorem hibernated_alone {s : State} (h : s.skein.member = false) : s.hibernated.mem = s.mem ∧ s.hibernated.stash = s.stash := by
  unfold State.hibernated
  dsimp only
  rw [h, fillStores_eq]
  exact ⟨rfl, rfl⟩

/-! ### Wakes (14 R395, R396, R399) -/

/-- `y` is `x` but for exits that have started, and an entry of Hibernate that they abandon with the image that it has written. -/
def State.Woken (x y : State) : Prop := ∃ started transition image, y =
  { x with pw := { x.pw with exits := x.pw.exits ++ started, transition := transition }, stash := { x.stash with hibernate := image } }

theorem State.Woken.refl (s : State) : s.Woken s := ⟨[], s.pw.transition, s.stash.hibernate, by rw [List.append_nil]⟩

theorem State.Woken.trans {x y z : State} (h : x.Woken y) (h' : y.Woken z) : x.Woken z := by
  obtain ⟨e, t, i, rfl⟩ := h
  obtain ⟨e', t', i', rfl⟩ := h'
  exact ⟨e ++ e', t', i', by simp only [List.append_assoc]⟩

section
variable {x y : State} (h : x.Woken y)
include h

theorem State.Woken.module : y.pw.module = x.pw.module := by obtain ⟨_, _, _, rfl⟩ := h; rfl

theorem State.Woken.pwOf (v : PwTarget) : y.pwOf v = x.pwOf v := by obtain ⟨_, _, _, rfl⟩ := h; cases v <;> rfl

theorem State.Woken.tolWait : y.pw.tolWait = x.pw.tolWait := by obtain ⟨_, _, _, rfl⟩ := h; rfl

/-- An exit that runs still runs. -/
theorem State.Woken.exits {v : PwTarget} (hv : x.pw.exits.any (·.1 == v) = true) : y.pw.exits.any (·.1 == v) = true := by
  obtain ⟨_, _, _, rfl⟩ := h
  simp only [List.any_append, hv, Bool.true_or]

end

theorem wakeModule_woken (s : State) : s.Woken s.wakeModule := by
  unfold State.wakeModule
  split
  · exact ⟨_, _, _, rfl⟩
  · exact State.Woken.refl s

/-- A wake of a unit, of a module that is neither in Standby nor in Hibernate. -/
theorem wake_unit {s : State} {u : PwTarget} (hu : u ≠ .module) (hm : s.pw.module < 3) : s.wake u =
    if s.pwOf u = 0 ∨ s.pw.exits.any (·.1 == u) then s else { s with pw := { s.pw with exits := s.pw.exits ++ [(u, s.stitch)] } } := by
  cases u with
  | module => exact absurd rfl hu
  | panel p => exact if_neg (Nat.not_le.mpr hm)
  | engine e => exact if_neg (Nat.not_le.mpr hm)

/-- In Standby and Hibernate every wake wakes the module. -/
theorem wake_asleep {s : State} (hm : 3 ≤ s.pw.module) (u : PwTarget) : s.wake u = s.wakeModule := by
  cases u with
  | module => rfl
  | panel p => exact if_pos hm
  | engine e => exact if_pos hm

/-- All that a wake can do is to start an exit, and to abandon an entry of Hibernate. -/
theorem wake_woken (s : State) (u : PwTarget) : s.Woken (s.wake u) := by
  by_cases hu : u = .module
  · rw [hu]
    exact wakeModule_woken s
  · rcases Nat.lt_or_ge s.pw.module 3 with hm | hm
    · rw [wake_unit hu hm]
      split
      · exact State.Woken.refl s
      · exact ⟨_, _, _, rfl⟩
    · rw [wake_asleep hm]
      exact wakeModule_woken s

theorem foldl_wake_woken (us : List PwTarget) (s : State) : s.Woken (us.foldl State.wake s) := by
  induction us generalizing s with
  | nil => exact State.Woken.refl s
  | cons u us ih => exact (wake_woken s u).trans (ih _)

/-- A unit that rests exits from its wake on. -/
theorem wake_exits {s : State} {u : PwTarget} (hu : u ≠ .module) (hm : s.pw.module < 3) (hrests : s.pwOf u ≠ 0) :
    (s.wake u).pw.exits.any (·.1 == u) = true := by
  rw [wake_unit hu hm]
  split
  case isTrue h => exact h.resolve_left hrests
  case isFalse => simp

/-- Of targets that are woken in their order, a unit that rests exits afterwards. -/
theorem foldl_wake_exits {us : List PwTarget} {u : PwTarget} (hmem : u ∈ us) (hu : u ≠ .module) {s : State} (hm : s.pw.module < 3)
    (hrests : s.pwOf u ≠ 0) : (us.foldl State.wake s).pw.exits.any (·.1 == u) = true := by
  induction us generalizing s with
  | nil => exact absurd hmem List.not_mem_nil
  | cons w us ih =>
    rw [List.foldl_cons]
    rcases List.mem_cons.mp hmem with rfl | hmem
    · exact (foldl_wake_woken us _).exits (wake_exits hu hm hrests)
    · have hwoken := wake_woken s w
      exact ih hmem (hwoken.module ▸ hm) (hwoken.pwOf u ▸ hrests)

theorem mem_allTargets_of_unit {u : PwTarget} (hu : isUnitTarget u = true) : u ∈ allTargets := by
  cases u with
  | panel p => simpa [allTargets, isUnitTarget] using hu
  | engine e => simpa [allTargets, isUnitTarget] using hu
  | module => exact absurd hu Bool.false_ne_true

/-- A unit in a state that is not permitted exits. -/
theorem exitDeeper_exits {s : State} {u : PwTarget} (hu : isUnitTarget u = true) (hm : s.pw.module < 3) (hrests : s.pwOf u ≠ 0)
    (hdeep : s.permits (s.pwOf u) = false) : s.exitDeeper.pw.exits.any (·.1 == u) = true := by
  refine foldl_wake_exits (List.mem_filter.mpr ⟨mem_allTargets_of_unit hu, ?_⟩) (fun h => ?_) hm hrests
  · simp [hrests, hdeep]
  · rw [h] at hu
    exact Bool.false_ne_true hu

/-- Where every target is Active, none exits. -/
theorem exitDeeper_active {s : State} (h : ∀ u, s.pwOf u = 0) : s.exitDeeper = s := by
  have hnone : allTargets.filter (fun u => s.pwOf u != 0 && !s.permits (s.pwOf u)) = [] :=
    List.filter_eq_nil_iff.mpr fun u _ => by simp [h u]
  rw [State.exitDeeper, hnone, List.foldl_nil]

section
variable {a : State}

/-- A module in Hibernate that wakes starts its exit. -/
theorem wakeModule_hibernate (hm : a.pw.module = 4) (hexits : a.pw.exits = []) :
    a.wakeModule = { a with pw := { a.pw with exits := [(.module, a.stitch)], transition := 2 } } := by
  simp [State.wakeModule, hm, hexits]

theorem timedWake_due {u : PwTarget} {l : Nat} (hl : nextTimed (a.waking u) = some l)
    (hdue : l ≤ a.stitch + 1000 * a.exitLatency (a.pwOf u) + 1000) : a.timedWake u = a.wake u := by
  simp only [State.timedWake, hl, if_pos hdue]

theorem timedWake_early {u : PwTarget} {l : Nat} (hl : nextTimed (a.waking u) = some l)
    (hearly : a.stitch + 1000 * a.exitLatency (a.pwOf u) + 1000 < l) : a.timedWake u = a := by
  simp only [State.timedWake, hl, if_neg (Nat.not_le.mpr hearly)]

end

/-! ### Exits (14 R395, R397, R400) -/

/-- The state in which the module's exit has ended, before waiting accesses are served. -/
def State.moduleActive (s : State) (since : Nat) : State :=
  let x := s.measureExit s.pw.module since
  let y : State := { x with pw := { x.pw with exits := x.pw.exits.filter (·.1 != .module) } }
  { y.reloadAtExit with
    pw := { y.pw with
      module := 0, transition := if y.pw.transition = 3 then 3 else 0, panels := List.replicate 12 0, engines := List.replicate 8 0
      panelIdle := List.replicate 12 s.stitch, engineIdle := List.replicate 8 s.stitch } }

/-- The end of its exit leaves memory, jobs and courses. -/
theorem moduleActive_leaves (s : State) (since : Nat) : (s.moduleActive since).mem = s.mem ∧ (s.moduleActive since).jobs = s.jobs ∧
    (s.moduleActive since).courses = s.courses := by
  unfold State.moduleActive
  exact ⟨rfl, rfl, rfl⟩

/-- The end of its exit leaves what waits for memory and for a tolerance. -/
theorem moduleActive_waits (s : State) (since : Nat) : (s.moduleActive since).bar2Wait = s.bar2Wait ∧
    (s.moduleActive since).pw.tolWait = s.pw.tolWait := by
  unfold State.moduleActive
  exact ⟨rfl, rfl⟩

theorem moduleActive_pwOf (s : State) (since : Nat) : ∀ u : PwTarget, (s.moduleActive since).pwOf u = 0
  | .module => rfl
  | .panel p => List.getElem?_getD_replicate_default_eq 0 12 p
  | .engine e => List.getElem?_getD_replicate_default_eq 0 8 e

section
variable {a : State}

/-- An image without bad chunks is restored, and used up. -/
theorem hibernateExit_sound {m : List Host.Cell} (himage : a.stash.hibernate = some m) (hm : a.pw.module = 4)
    (hexits : a.pw.exits.any (·.1 == .module) = true) : a.hibernateExit [] = { a with
      mem := { a.mem with cells := m }, stash := { a.stash with hibernate := none }
      links := a.links.map (fun (l : Link) => { l with state := 1, rate := 0 }) } := by
  simp only [State.hibernateExit, himage, hm, hexits, Bool.and_self, if_true, List.foldl_nil, decide_true]

theorem settleTolerance_none {s : State} (h : s.pw.tolWait = none) : s.settleTolerance = s := by
  simp only [State.settleTolerance, h]

/-- Where no tolerance waits, the exits that a measurement starts settle none. -/
theorem exitDeeper_settled {s : State} (h : s.pw.tolWait = none) : s.exitDeeper.settleTolerance = s.exitDeeper :=
  settleTolerance_none ((foldl_wake_woken _ s).tolWait.trans h)

theorem exitDone_none {u : PwTarget} (h : a.pw.exits.find? (·.1 == u) = none) : a.exitDone u = a := by
  simp only [State.exitDone, h]

variable {since : Nat} (hnone : a.pw.tolWait = none)
include hnone

theorem exitDone_panel {p : Nat} {b : State} (hfind : a.pw.exits.find? (·.1 == .panel p) = some (.panel p, since))
    (hb : b = a.measureExit (a.pw.panels.getD p 0) since) : a.exitDone (.panel p) = State.exitDeeper { b with pw := { b.pw with
      exits := b.pw.exits.filter (·.1 != .panel p), panels := b.pw.panels.set p 0, panelIdle := b.pw.panelIdle.set p a.stitch } } := by
  subst hb
  simp only [State.exitDone, hfind]
  exact exitDeeper_settled hnone

theorem exitDone_engine {e : Nat} {b : State} (hfind : a.pw.exits.find? (·.1 == .engine e) = some (.engine e, since))
    (hb : b = a.measureExit (a.pw.engines.getD e 0) since) : a.exitDone (.engine e) = State.exitDeeper { b with pw := { b.pw with
      exits := b.pw.exits.filter (·.1 != .engine e), engines := b.pw.engines.set e 0, engineIdle := b.pw.engineIdle.set e a.stitch } } := by
  subst hb
  simp only [State.exitDone, hfind]
  exact exitDeeper_settled hnone

/-- With nothing waiting for memory, the module is Active with every unit. -/
theorem exitDone_module (hfind : a.pw.exits.find? (·.1 == .module) = some (.module, since))
    (hrestored : a.pw.module ≠ 4 ∨ a.stash.hibernate = none) (hwait : a.bar2Wait = []) : a.exitDone .module = a.moduleActive since := by
  have hgo : ¬ (PwTarget.module == .module && a.pw.module == 4 && a.stash.hibernate.isSome) = true := by rcases hrestored with h | h <;> simp [h]
  obtain ⟨hbar2, htol⟩ := moduleActive_waits a since
  have hserved : (a.moduleActive since).serveBar2 = a.moduleActive since := serveBar2_noneWaits (hbar2.trans hwait)
  have hended : a.exitDone .module = (a.moduleActive since).serveBar2.exitDeeper.settleTolerance := by
    simp only [State.exitDone, hfind]
    exact if_neg hgo
  calc a.exitDone .module
    _ = (a.moduleActive since).serveBar2.exitDeeper.settleTolerance := hended
    _ = (a.moduleActive since).settleTolerance := by rw [hserved, exitDeeper_active (moduleActive_pwOf a since)]
    _ = a.moduleActive since := settleTolerance_none (htol.trans hnone)

end

/-! ### The statement -/

section
variable {s a : State} {t : Stitch} (h : s.Reached t a)
include h

theorem exec_idleShallowEntry (u : PwTarget) : exec (.idleShallowEntry t u) s = .next (a.shallowEntry u) := act_reached (f := (·.shallowEntry u)) h

theorem exec_idleDeepEntry (u : PwTarget) : exec (.idleDeepEntry t u) s = .next (a.deepEntry u) := act_reached (f := (·.deepEntry u)) h

theorem exec_standbyEntry : exec (.standbyEntry t) s = .next a.standbyEntry := act_reached (f := State.standbyEntry) h

theorem exec_hibernateEntry : exec (.hibernateEntry t) s = .next a.hibernateEntry := act_reached (f := State.hibernateEntry) h

theorem exec_powerStateWake (u : PwTarget) : exec (.powerStateWake t u) s = .next (a.wake u) := act_reached (f := (·.wake u)) h

theorem exec_timedWake (u : PwTarget) : exec (.timedWake t u) s = .next (a.timedWake u) := act_reached (f := (·.timedWake u)) h

theorem exec_hibernateExit (bad : List Nat) : exec (.hibernateExit t bad) s = .next (a.hibernateExit bad) :=
  act_reached (f := (·.hibernateExit bad)) h

theorem exec_powerStateExitDone (u : PwTarget) : exec (.powerStateExitDone t u) s = .next (a.exitDone u) := act_reached (f := (·.exitDone u)) h

end

/-- Settles O51: an entry by its conditions, a wake by where the module and the unit stand, a timed launch by its stitch, and an exit by what has
been waking. -/
theorem powerStates : Obligations.PowerStates := by
  unfold Obligations.PowerStates
  intro s a t u h
  have hwake := exec_powerStateWake h u
  refine ⟨fun hu hidle => ⟨fun hactive hsince hpermits hfits => ?shallow, fun hshallow hsince hpermits hfits htests => ?deep⟩,
    fun hnot => ?shallowRefused, fun hnot => ?deepRefused, fun hactive hidle hexits hsince hclear hpermits hfits => ?standby,
    fun hnot => ?standbyRefused, fun hstandby hexits => ⟨fun hnone hclear hpermits hsince hfits => ?begins, fun hentering => ?hibernates⟩,
    fun hu hm => ⟨fun hrests hstands => ?wakes, fun hactive => ?awake⟩, fun hm => ?asleep, exec_powerStateWake h .module,
    wakeModule_hibernate, fun l hl => ⟨fun hdue => ?timed, fun hearly => ?early⟩, fun m himage hm hexits => ?restored,
    fun p since b hfind hnone hb => ?panel, fun e since b hfind hnone hb => ?engine,
    fun d v hv hm hrests hdeep => exitDeeper_exits hv hm hrests hdeep, fun since hfind hnone hrestored hwait => ?moduleExit, fun hnone => ?noExit⟩
  case shallow => rw [exec_idleShallowEntry h, shallowEntry_taken hu hidle hactive hsince hpermits hfits]
  case deep =>
    refine ⟨a.deepened u, ?_, deepened_effect a u⟩
    rw [exec_idleDeepEntry h, deepEntry_taken hu hidle hshallow hsince hpermits hfits htests]
  case shallowRefused => rw [exec_idleShallowEntry h, shallowEntry_refused hnot]
  case deepRefused => rw [exec_idleDeepEntry h, deepEntry_refused hnot]
  case standby => rw [exec_standbyEntry h, standbyEntry_taken hactive hidle hexits hsince hclear hpermits hfits]
  case standbyRefused => rw [exec_standbyEntry h, standbyEntry_refused hnot]
  case begins => rw [exec_hibernateEntry h, hibernateEntry_begins hstandby hexits hnone hclear hpermits hsince hfits]
  case hibernates =>
    refine ⟨a.hibernated.wear, ?runs, (congrArg Pw.module (wear_pw _)).trans rfl, fun halone => ?image, ?kept⟩
    case runs => rw [exec_hibernateEntry h, hibernateEntry_ends hstandby hexits hentering]
    case image =>
      obtain ⟨hmem, hstash⟩ := hibernated_alone halone
      rw [wear_mem, wear_image, wear_ckpts, hmem, hstash]
      exact ⟨rfl, rfl, rfl⟩
    case kept =>
      rw [wear_jobs, wear_courses, wear_rings, wear_links]
      exact hibernated_effect hstandby hentering
  case wakes => rw [hwake, wake_unit hu hm, if_neg (by simp [hrests, hstands])]
  case awake => rw [hwake, wake_unit hu hm, if_pos (.inl hactive)]
  case asleep => rw [hwake, wake_asleep hm]
  case timed => rw [exec_timedWake h, timedWake_due hl hdue]
  case early => rw [exec_timedWake h, timedWake_early hl hearly]
  case restored => rw [exec_hibernateExit h, hibernateExit_sound himage hm hexits]
  case panel => rw [exec_powerStateExitDone h, exitDone_panel hnone hfind hb]
  case engine => rw [exec_powerStateExitDone h, exitDone_engine hnone hfind hb]
  case moduleExit =>
    refine ⟨a.moduleActive since, ?_, rfl, rfl, rfl, moduleActive_leaves a since⟩
    rw [exec_powerStateExitDone h, exitDone_module hnone hfind hrestored hwait]
  case noExit => rw [exec_powerStateExitDone h, exitDone_none hnone]

end Sys2Proof.Machine
end

section
/-! SUPPORT. The power cycle: PWR_CYCLE by the length of its pulse, the bank that the next cast-on chooses, the stage that starts again, and the
statement PowerCycle, settled by them. -/

namespace Sys2Proof.Machine

/-! ### The pulse (16 R445; log 29) -/

theorem exec_pwrCycleAssert_short {t : Stitch} {d : Nat} (s : State) (h : d < 10000000) :
    exec (.pwrCycleAssert t d) s = .next (s.advance t) := if_pos h

theorem exec_pwrCycleAssert_between {t : Stitch} {d : Nat} (s : State) (hlow : 10000000 ≤ d) (hhigh : d < 100000000) :
    exec (.pwrCycleAssert t d) s = .fault .pwrCycleUndefined :=
  (if_neg (Nat.not_lt.mpr hlow)).trans (if_pos hhigh)

theorem exec_pwrCycleAssert_long {t : Stitch} {d : Nat} (s : State) (h : 100000000 ≤ d) :
    exec (.pwrCycleAssert t d) s = .next (s.advance t).unpowered :=
  (if_neg (by omega)).trans (if_neg (Nat.not_lt.mpr h))

/-! ### The bank that the next cast-on chooses (14 R406; 16 R445) -/

/-- The choice after a trial reads the banks, the floor, the active bank and the trial; a loss of power ends an activation under way and leaves
these. -/
theorem unpowered_choose (a : State) (latch : Nat) : (a.unpowered.fw.afterTrial latch).choose = (a.fw.afterTrial latch).choose := by
  cases habandoned : a.fw.trial && latch == 1 with
  | true =>
    have hold : a.fw.afterTrial latch = { a.fw with activeB := !a.fw.activeB, trial := false } := if_pos habandoned
    have hnew : a.unpowered.fw.afterTrial latch = { a.unpowered.fw with activeB := !a.fw.activeB, trial := false } := if_pos habandoned
    rw [hold, hnew]
    rfl
  | false =>
    have hnot := Bool.eq_false_iff.mp habandoned
    have hold : a.fw.afterTrial latch = a.fw := if_neg hnot
    have hnew : a.unpowered.fw.afterTrial latch = a.unpowered.fw := if_neg hnot
    rw [hold, hnew]
    rfl

/-! ### The stage starts again (16 R442, R443, R445) -/

/-- Without power the counter stands. -/
theorem advance_unpowered (a : State) (t : Stitch) : a.unpowered.advance t = a.unpowered := rfl

/-- After a loss of power the turn-on condition makes the stage good. -/
theorem exec_powerGood_unpowered {a : State} {t : Stitch} {f : CastOnFindings} (hpin : f.presence = true) (hlow : 4300 ≤ f.vin)
    (hheld : 10000000 ≤ f.vinHeld) (hhigh : f.vin ≤ 6200) (hover : a.stage.overvolt = true → f.vin < 6100) :
    ∃ u, exec (.powerGood t f) a.unpowered = .next u ∧ u.stage.good = true := by
  have hon := powerGood_on (a := a.unpowered) rfl rfl hpin hlow hheld hhigh hover
  refine ⟨_, by rw [exec_powerGood, advance_unpowered], ?_⟩
  rw [hon]

/-- Settles O25: PWR_CYCLE by the length of its pulse; a long one is the loss of input power, after which the stage starts again with the bank that
would have been chosen. -/
theorem powerCycle : Obligations.PowerCycle := by
  unfold Obligations.PowerCycle
  rintro s a t d rfl
  refine ⟨exec_pwrCycleAssert_short s, fun hlong => ⟨exec_pwrCycleAssert_long s hlong, fun hgood => ?loss, rfl, rfl, rfl, rfl, rfl,
    unpowered_choose _, fun t2 f hpin hlow hheld hhigh hover => ?restart⟩, exec_pwrCycleAssert_between s⟩
  case loss =>
    exact exec_inputPowerLoss rfl (by rw [hgood, Bool.true_or]) .removal
  case restart =>
    exact exec_powerGood_unpowered hpin hlow hheld hhigh (fun hset => absurd (hover.symm.trans hset) Bool.false_ne_true)

end Sys2Proof.Machine
end
